-- ==== Sys2Proof/Word.lean ====
section
/-! DEFINITION. The word types of the K16 (R7, R28): plain bit vectors, bit 0 the least significant. -/
namespace Sys2Proof

abbrev U2 := BitVec 2
abbrev U3 := BitVec 3
abbrev U4 := BitVec 4
abbrev U5 := BitVec 5
abbrev U6 := BitVec 6
abbrev Byte := BitVec 8
abbrev U11 := BitVec 11
abbrev U16 := BitVec 16
abbrev U32 := BitVec 32
abbrev U64 := BitVec 64
abbrev U128 := BitVec 128
/-- A vector register or latch (R28, R30). -/
abbrev Vec := BitVec 2048
/-- A moment register (R28, R31): means in the low half, variances in the high half. -/
abbrev Mom := BitVec 4096
/-- The number of a bundle: its byte address divided by 16 (R18: bits [3:0] of the pc are always zero). -/
abbrev Pc := BitVec 60

end Sys2Proof
end

