-- ==== Sys2Proof/Syntax.lean ====
section
/-! DEFINITION. The steps of the K16 as syntax: one constructor of Instr per row of spec/opcode_table.json.
The encoded rows are the slot instructions of R108..R110 with their header fields (R103); the rows without an
encoding are the part's other indivisible steps (95_what_each_step_holds.md), with what each needs to be told. -/
namespace Sys2Proof

/-- A scalar- or vector-class destination (R33): a named register, or transient. -/
inductive Dst where
  | reg (r : U5)
  | tr
  deriving DecidableEq, Repr

/-- A six-bit scalar source (R32): `g`, `q` by age, or the constant whose field value is 48 + k, which is k − 8. -/
inductive Src where
  | g (r : U5)
  | q (age : U4)
  | c (k : U4)
  deriving DecidableEq, Repr

/-- A six-bit vector source (R32) of a field that takes no moment operand. -/
inductive VSrc where
  | v (r : U5)
  | b0
  | b1
  | b2
  deriving DecidableEq, Repr

/-- An SI immediate (R100): IMM11 alone, or EXT1:IMM11 under a header. -/
inductive Imm where
  | narrow (i : U11)
  | wide (x : Byte) (i : U11)
  deriving DecidableEq, Repr

/-- An SH or CF immediate (R100): IMM9 alone, or EXT1:IMM9 under a header. -/
inductive Imm9 where
  | narrow (i : BitVec 9)
  | wide (x : Byte) (i : BitVec 9)
  deriving DecidableEq, Repr

/-- An SM displacement (R100): DISP8 alone, or EXT1:DISP8 under a header. -/
inductive Disp where
  | narrow (i : Byte)
  | wide (x : Byte) (i : Byte)
  deriving DecidableEq, Repr

/-- The destination of an engine load (R102, R105, R211): scalar with its SZ, a vector register with the element
type T and U of R213, or a moment register. -/
inductive LdDst where
  | narrow (sz : U3) (d : Dst)
  | vec (d : Dst) (t : U3) (u : Bool)
  | mom (r : U4)
  deriving DecidableEq, Repr

/-- The data source of an engine store (R102, R105, R214). -/
inductive StSrc where
  | narrow (sz : U3) (x : Src)
  | vec (x : VSrc) (t : U3) (u : Bool)
  | mom (r : U4)
  deriving DecidableEq, Repr

/-- A trap about to be taken (R142..R144): its cause, slot, LAND and ASYNC marks, resumption point, faulting
bundle and information word. -/
structure TrapEvent where
  code : Byte
  slot : U2
  land : Bool
  async : Bool
  resume : Pc
  faulting : Pc
  info : U64
  deriving DecidableEq, Repr

/-- What a pod write does at its destination (R221..R224, R234, R265, R266). -/
inductive PodKind where
  | put
  | flag
  | radd
  | qput
  | route
  | seal
  | phm
  deriving DecidableEq, Repr

/-- A pod write from a device outside the model, with the three identifiers of R298. -/
structure OutsideWrite where
  job : Nat
  srcDev : Nat
  srcParty : Nat
  core : Nat
  off : Nat
  kind : PodKind
  tag : Bool
  tier : U2
  esz : Nat
  data : List Byte
  deriving DecidableEq, Repr

/-- The write that arrives at a receiving port agent: one in flight on the device, or one from outside. -/
inductive Arrival where
  | queued (n : Nat)
  | outside (w : OutsideWrite)
  deriving DecidableEq, Repr

/-- An answer from a device outside the model (R225): 0 acknowledges, else the error response; for a routing send
0 is ACCEPTED, 1 FULL, 2 ERROR; `free` is the count of R234. -/
structure RemoteAnswer where
  code : Byte
  free : U16
  deriving DecidableEq, Repr

/-- One submission entry (R389) as Operculum takes it: the issuing function and queue, CID, HANDLE and PARAM. -/
structure Cmd where
  fn : Nat
  q : Nat
  cid : U16
  handle : U64
  param : BitVec 384
  deriving DecidableEq, Repr

/-- Every step of the K16 that spec/opcode_table.json lists. -/
inductive Instr where
  /-- ADD (R124). -/
  | add (d : Dst) (a b : Src) (p : U3)
  /-- SUB (R124). -/
  | sub (d : Dst) (a b : Src) (p : U3)
  /-- AND (R124). -/
  | and (d : Dst) (a b : Src) (p : U3)
  /-- OR (R124). -/
  | or (d : Dst) (a b : Src) (p : U3)
  /-- XOR (R124). -/
  | xor (d : Dst) (a b : Src) (p : U3)
  /-- ANDN (R124). -/
  | andn (d : Dst) (a b : Src) (p : U3)
  /-- SLL (R124). -/
  | sll (d : Dst) (a b : Src) (p : U3)
  /-- SRL (R124). -/
  | srl (d : Dst) (a b : Src) (p : U3)
  /-- SRA (R124). -/
  | sra (d : Dst) (a b : Src) (p : U3)
  /-- ROR (R124). -/
  | ror (d : Dst) (a b : Src) (p : U3)
  /-- MIN (R124). -/
  | min (d : Dst) (a b : Src) (p : U3)
  /-- MAX (R124). -/
  | max (d : Dst) (a b : Src) (p : U3)
  /-- MINU (R124). -/
  | minu (d : Dst) (a b : Src) (p : U3)
  /-- MAXU (R124). -/
  | maxu (d : Dst) (a b : Src) (p : U3)
  /-- SLT (R124). -/
  | slt (d : Dst) (a b : Src) (p : U3)
  /-- SLTU (R124). -/
  | sltu (d : Dst) (a b : Src) (p : U3)
  /-- ADDW (R124). -/
  | addw (d : Dst) (a b : Src) (p : U3)
  /-- SUBW (R124). -/
  | subw (d : Dst) (a b : Src) (p : U3)
  /-- SLLW (R124). -/
  | sllw (d : Dst) (a b : Src) (p : U3)
  /-- SRLW (R124). -/
  | srlw (d : Dst) (a b : Src) (p : U3)
  /-- SRAW (R124). -/
  | sraw (d : Dst) (a b : Src) (p : U3)
  /-- MUL (R124). -/
  | mul (d : Dst) (a b : Src) (p : U3)
  /-- MULH (R124). -/
  | mulh (d : Dst) (a b : Src) (p : U3)
  /-- MULHU (R124). -/
  | mulhu (d : Dst) (a b : Src) (p : U3)
  /-- MULHSU (R124). -/
  | mulhsu (d : Dst) (a b : Src) (p : U3)
  /-- MULW (R124). -/
  | mulw (d : Dst) (a b : Src) (p : U3)
  /-- ADDSAT (R125). -/
  | addsat (d : Dst) (a b : Src) (p : U3)
  /-- SUBSAT (R125). -/
  | subsat (d : Dst) (a b : Src) (p : U3)
  /-- ADDSATW (R125). -/
  | addsatw (d : Dst) (a b : Src) (p : U3)
  /-- SUBSATW (R125). -/
  | subsatw (d : Dst) (a b : Src) (p : U3)
  /-- ADDSATU (R125). -/
  | addsatu (d : Dst) (a b : Src) (p : U3)
  /-- SUBSATU (R125). -/
  | subsatu (d : Dst) (a b : Src) (p : U3)
  /-- MULSATW (R125). -/
  | mulsatw (d : Dst) (a b : Src) (p : U3)
  /-- DIV (R125). -/
  | div (d : Dst) (a b : Src) (p : U3)
  /-- DIVU (R125). -/
  | divu (d : Dst) (a b : Src) (p : U3)
  /-- REM (R125). -/
  | rem (d : Dst) (a b : Src) (p : U3)
  /-- REMU (R125). -/
  | remu (d : Dst) (a b : Src) (p : U3)
  /-- ADDI (R126). -/
  | addi (d : Dst) (a : Src) (imm : Imm) (p : U3)
  /-- ANDI (R126). -/
  | andi (d : Dst) (a : Src) (imm : Imm) (p : U3)
  /-- ORI (R126). -/
  | ori (d : Dst) (a : Src) (imm : Imm) (p : U3)
  /-- XORI (R126). -/
  | xori (d : Dst) (a : Src) (imm : Imm) (p : U3)
  /-- SLLI (R127). -/
  | slli (d : Dst) (a : Src) (sh : U6) (p : U3)
  /-- SRLI (R127). -/
  | srli (d : Dst) (a : Src) (sh : U6) (p : U3)
  /-- SRAI (R127). -/
  | srai (d : Dst) (a : Src) (sh : U6) (p : U3)
  /-- RORI (R127). -/
  | rori (d : Dst) (a : Src) (sh : U6) (p : U3)
  /-- SLLIW (R127). -/
  | slliw (d : Dst) (a : Src) (sh : U5) (p : U3)
  /-- SRLIW (R127). -/
  | srliw (d : Dst) (a : Src) (sh : U5) (p : U3)
  /-- SRAIW (R127). -/
  | sraiw (d : Dst) (a : Src) (sh : U5) (p : U3)
  /-- RORIW (R127). -/
  | roriw (d : Dst) (a : Src) (sh : U5) (p : U3)
  /-- LDI (R128). -/
  | ldi (d : Dst) (imm : Imm) (p : U3)
  /-- LDIS (R128). -/
  | ldis (d : Dst) (a : Src) (imm : Imm) (p : U3)
  /-- CMP (R129). -/
  | cmp (pd cond : U3) (cmb : U2) (a b : Src) (p : U3)
  /-- CMPI (R129). -/
  | cmpi (pd cond : U3) (a : Src) (imm : Imm) (p : U3)
  /-- PAND (R130). -/
  | pand (pd pa pb p : U3)
  /-- POR (R130). -/
  | por (pd pa pb p : U3)
  /-- PXOR (R130). -/
  | pxor (pd pa pb p : U3)
  /-- PANDN (R130). -/
  | pandn (pd pa pb p : U3)
  /-- KFROMG (R130). -/
  | kfromg (kd : U3) (a : Src) (p : U3)
  /-- GFROMK (R130). -/
  | gfromk (d : Dst) (ka p : U3)
  /-- PFROMG (R130). -/
  | pfromg (pd : U3) (a : Src) (p : U3)
  /-- GFROMP (R130). -/
  | gfromp (d : Dst) (pa p : U3)
  /-- SEL (R131). -/
  | sel (d : Dst) (a b : Src) (ps p : U3)
  /-- SELN (R131). -/
  | seln (d : Dst) (a b : Src) (ps p : U3)
  /-- BEXT (R132). -/
  | bext (d : Dst) (a b : Src) (p : U3)
  /-- BEXTU (R132). -/
  | bextu (d : Dst) (a b : Src) (p : U3)
  /-- BINS (R132). -/
  | bins (d : U5) (a b : Src) (p : U3)
  /-- CLZ (R132). -/
  | clz (d : Dst) (a : Src) (p : U3)
  /-- CTZ (R132). -/
  | ctz (d : Dst) (a : Src) (p : U3)
  /-- POPC (R132). -/
  | popc (d : Dst) (a : Src) (p : U3)
  /-- BSWAP (R132). -/
  | bswap (d : Dst) (a : Src) (p : U3)
  /-- BREV (R132). -/
  | brev (d : Dst) (a : Src) (p : U3)
  /-- ADDS (R133). -/
  | adds (d : Dst) (a b : Src) (sh : U4) (p : U3)
  /-- SETDEV (R133). -/
  | setdev (d : Dst) (a b : Src) (p : U3)
  /-- SETCORE (R133). -/
  | setcore (d : Dst) (a b : Src) (p : U3)
  /-- LD_SPL_SM (R212). -/
  | ldSplSm (d : Dst) (a : Src) (disp : Disp) (sz p : U3)
  /-- ST_SPL_SM (R215). -/
  | stSplSm (x a : Src) (disp : Disp) (sz p : U3)
  /-- MFSR (R134). -/
  | mfsr (d : U6) (spr : U11) (x : U6) (e : Byte) (p : U3)
  /-- MTSR (R134). -/
  | mtsr (v : Src) (spr : U11) (x : U6) (e : Byte) (p : U3)
  /-- SHW_MS (R180). -/
  | shwMs (reg : U2) (fld : U5) (a : Src) (imm : Imm9) (p : U3)
  /-- SHW_XS (R243). -/
  | shwXs (reg : U2) (fld : U5) (a : Src) (imm : Imm9) (p : U3)
  /-- BR (R135). -/
  | br (p : U3) (off : BitVec 19)
  /-- BRN (R135). -/
  | brn (p : U3) (off : BitVec 19)
  /-- CALL (R135). -/
  | call (p : U3) (off : BitVec 19)
  /-- JR (R135). -/
  | jr (a : Src) (p : U3)
  /-- CALLR (R135). -/
  | callr (d : Dst) (a : Src) (p : U3)
  /-- RET (R135). -/
  | ret (p : U3)
  /-- LCLR (R139). -/
  | lclr (n p : U3)
  /-- LOOP (R136). -/
  | loop (lid : U3) (a : Src) (last : BitVec 17)
  /-- YIELD (R148). -/
  | yield (p : U3)
  /-- TRAP (R148). -/
  | trap (a : Src) (p : U3)
  /-- BRK (R148). -/
  | brk (p : U3)
  /-- HALT (R149). -/
  | halt (p : U3)
  /-- URET (R150). -/
  | uret (p : U3)
  /-- SRET (R150). -/
  | sret (p : U3)
  /-- RBSAVE (R151). -/
  | rbsave (a : Src) (p : U3)
  /-- RBLOAD (R151). -/
  | rbload (a : Src) (p : U3)
  /-- RBDROP (R151). -/
  | rbdrop (p : U3)
  /-- TLBINV (R152). -/
  | tlbinv (a : Src) (p : U3)
  /-- TLBINVCTX (R152). -/
  | tlbinvctx (a : Src) (p : U3)
  /-- TLBINVALL (R152). -/
  | tlbinvall (p : U3)
  /-- TLBSYNC (R152). -/
  | tlbsync (p : U3)
  /-- CBLD_BF16 (R204). -/
  | cbldBf16 (t : U4) (a : Src) (imm : Imm9) (p : U3)
  /-- CBLD_E4M3 (R204). -/
  | cbldE4m3 (t : U4) (a : Src) (imm : Imm9) (p : U3)
  /-- SCLD (R204). -/
  | scld (a : Src) (imm : Imm9) (p : U3)
  /-- MMSET (R173). -/
  | mmset (a : Src) (imm : Imm9) (p : U3)
  /-- MMCOV (R173). -/
  | mmcov (a : Src) (imm : Imm9) (p : U3)
  /-- MMCLAMP (R173). -/
  | mmclamp (a : Src) (imm : Imm9) (p : U3)
  /-- VADD (R158). -/
  | vadd (d : Dst) (a b : VSrc) (t k rm : U3)
  /-- VSUB (R158). -/
  | vsub (d : Dst) (a b : VSrc) (t k rm : U3)
  /-- VMIN (R158). -/
  | vmin (d : Dst) (a b : VSrc) (t k rm : U3)
  /-- VMAX (R158). -/
  | vmax (d : Dst) (a b : VSrc) (t k rm : U3)
  /-- VMUL (R158). -/
  | vmul (d : Dst) (a b : VSrc) (t k rm : U3)
  /-- VDIV (R158). -/
  | vdiv (d : Dst) (a b : VSrc) (t k rm : U3)
  /-- VABS (R158). -/
  | vabs (d : Dst) (a : VSrc) (t k rm : U3)
  /-- VNEG (R158). -/
  | vneg (d : Dst) (a : VSrc) (t k rm : U3)
  /-- VSQRT (R158). -/
  | vsqrt (d : Dst) (a : VSrc) (t k rm : U3)
  /-- VRCP (R158). -/
  | vrcp (d : Dst) (a : VSrc) (t k rm : U3)
  /-- VFRAC (R158). -/
  | vfrac (d : Dst) (a : VSrc) (t k rm : U3)
  /-- VCLASS (R158). -/
  | vclass (d : Dst) (a : VSrc) (t k rm : U3)
  /-- VFMA (R159). -/
  | vfma (d : Dst) (a b c : VSrc) (t : U2) (k rm : U3)
  /-- VFMS (R159). -/
  | vfms (d : Dst) (a b c : VSrc) (t : U2) (k rm : U3)
  /-- VFNMA (R159). -/
  | vfnma (d : Dst) (a b c : VSrc) (t : U2) (k rm : U3)
  /-- VFNMS (R159). -/
  | vfnms (d : Dst) (a b c : VSrc) (t : U2) (k rm : U3)
  /-- VIADD (R160). -/
  | viadd (d : Dst) (a b : VSrc) (t k : U3)
  /-- VISUB (R160). -/
  | visub (d : Dst) (a b : VSrc) (t k : U3)
  /-- VIADDS (R160). -/
  | viadds (d : Dst) (a b : VSrc) (t k : U3)
  /-- VISUBS (R160). -/
  | visubs (d : Dst) (a b : VSrc) (t k : U3)
  /-- VIMUL (R160). -/
  | vimul (d : Dst) (a b : VSrc) (t k : U3) (sat : Bool)
  /-- VIMULH (R160). -/
  | vimulh (d : Dst) (a b : VSrc) (t k : U3)
  /-- VIMIN (R160). -/
  | vimin (d : Dst) (a b : VSrc) (t k : U3)
  /-- VIMAX (R160). -/
  | vimax (d : Dst) (a b : VSrc) (t k : U3)
  /-- VAND (R161). -/
  | vand (d : Dst) (a b : VSrc) (k : U3)
  /-- VOR (R161). -/
  | vor (d : Dst) (a b : VSrc) (k : U3)
  /-- VXOR (R161). -/
  | vxor (d : Dst) (a b : VSrc) (k : U3)
  /-- VANDN (R161). -/
  | vandn (d : Dst) (a b : VSrc) (k : U3)
  /-- VSLL (R161). -/
  | vsll (d : Dst) (a b : VSrc) (t k : U3)
  /-- VSRL (R161). -/
  | vsrl (d : Dst) (a b : VSrc) (t k : U3)
  /-- VSRA (R161). -/
  | vsra (d : Dst) (a b : VSrc) (t k : U3)
  /-- VROL (R161). -/
  | vrol (d : Dst) (a b : VSrc) (t k : U3)
  /-- VFCMP_EQ (R162). -/
  | vfcmpEq (kd : U3) (a b : VSrc) (k : U3)
  /-- VFCMP_LT (R162). -/
  | vfcmpLt (kd : U3) (a b : VSrc) (k : U3)
  /-- VFCMP_LE (R162). -/
  | vfcmpLe (kd : U3) (a b : VSrc) (k : U3)
  /-- VFCMP_UN (R162). -/
  | vfcmpUn (kd : U3) (a b : VSrc) (k : U3)
  /-- VICMP_EQ (R162). -/
  | vicmpEq (kd : U3) (a b : VSrc) (t k : U3)
  /-- VICMP_LT (R162). -/
  | vicmpLt (kd : U3) (a b : VSrc) (t k : U3)
  /-- VICMP_LE (R162). -/
  | vicmpLe (kd : U3) (a b : VSrc) (t k : U3)
  /-- VICMP_LTU (R162). -/
  | vicmpLtu (kd : U3) (a b : VSrc) (t k : U3)
  /-- VCVT_FF (R166). -/
  | vcvtFf (d : Dst) (a : VSrc) (src : U4) (t k : U3) (part : U2) (rm : U3) (sat : Bool)
  /-- VCVT_FI (R166). -/
  | vcvtFi (d : Dst) (a : VSrc) (src : U4) (t k : U3) (part : U2) (rm : U3) (sat : Bool)
  /-- VPERM (R168). -/
  | vperm (d : Dst) (a b : VSrc) (t k : U3)
  /-- VZIPLO (R168). -/
  | vziplo (d : Dst) (a b : VSrc) (t k : U3)
  /-- VZIPHI (R168). -/
  | vziphi (d : Dst) (a b : VSrc) (t k : U3)
  /-- VUNZIP (R168). -/
  | vunzip (d : Dst) (a b : VSrc) (t k : U3)
  /-- VROT (R168). -/
  | vrot (d : Dst) (a : VSrc) (x : Src) (t k : U3)
  /-- VSHDN (R168). -/
  | vshdn (d : Dst) (a : VSrc) (x : Src) (t k : U3)
  /-- VSHUP (R168). -/
  | vshup (d : Dst) (a : VSrc) (x : Src) (t k : U3)
  /-- VREV (R168). -/
  | vrev (d : Dst) (a : VSrc) (t k : U3)
  /-- VFREDSUM (R170). -/
  | vfredsum (d : Dst) (a : VSrc) (t k rm : U3)
  /-- VFREDMAX (R170). -/
  | vfredmax (d : Dst) (a : VSrc) (t k rm : U3)
  /-- VIREDSUM (R170). -/
  | viredsum (d : Dst) (a : VSrc) (t k : U3) (sat : Bool)
  /-- VIREDMAX (R170). -/
  | viredmax (d : Dst) (a : VSrc) (t k : U3)
  /-- VBCAST (R169). -/
  | vbcast (d : Dst) (x : Src) (t k : U3)
  /-- VINS (R169). -/
  | vins (d : Dst) (a : VSrc) (x : Src) (t k : U3)
  /-- VEXT (R169). -/
  | vext (d : Dst) (a : VSrc) (x : Src) (t : U3)
  /-- VBCASTL (R169). -/
  | vbcastl (d : Dst) (a : VSrc) (x : Src) (t k : U3)
  /-- VEXP2 (R171). -/
  | vexp2 (d : Dst) (a : VSrc) (t k rm : U3)
  /-- VLOG2 (R171). -/
  | vlog2 (d : Dst) (a : VSrc) (t k rm : U3)
  /-- VRSQRT (R171). -/
  | vrsqrt (d : Dst) (a : VSrc) (t k rm : U3)
  /-- VTANH (R171). -/
  | vtanh (d : Dst) (a : VSrc) (t k rm : U3)
  /-- VSINPI (R171). -/
  | vsinpi (d : Dst) (a : VSrc) (t k rm : U3)
  /-- VCOSPI (R171). -/
  | vcospi (d : Dst) (a : VSrc) (t k rm : U3)
  /-- VERF (R171). -/
  | verf (d : Dst) (a : VSrc) (t k rm : U3)
  /-- VSIGM (R171). -/
  | vsigm (d : Dst) (a : VSrc) (t k rm : U3)
  /-- KAND (R163). -/
  | kand (kd ka kb : U3)
  /-- KOR (R163). -/
  | kor (kd ka kb : U3)
  /-- KXOR (R163). -/
  | kxor (kd ka kb : U3)
  /-- KANDN (R163). -/
  | kandn (kd ka kb : U3)
  /-- VSEL (R164). -/
  | vsel (d : Dst) (a b : VSrc) (k : U3)
  /-- VIMAD (R165). -/
  | vimad (d : Dst) (a b c : VSrc) (k : U3) (sat : Bool)
  /-- MMAKE (R177). -/
  | mmake (d : U4) (a b : VSrc) (k : U3)
  /-- MGETM (R177). -/
  | mgetm (d : Dst) (a : U4) (k : U3)
  /-- MGETV (R177). -/
  | mgetv (d : Dst) (a : U4) (k : U3)
  /-- MMOV (R177). -/
  | mmov (d a : U4) (k : U3)
  /-- MADD (R177). -/
  | madd (d a b : U4) (c : VSrc) (k : U3)
  /-- MSUB (R177). -/
  | msub (d a b : U4) (c : VSrc) (k : U3)
  /-- MMUL (R177). -/
  | mmul (d a b : U4) (k : U3)
  /-- MSCALE (R177). -/
  | mscale (d a : U4) (x : Src) (k : U3)
  /-- MRELU (R177). -/
  | mrelu (d a : U4) (k : U3)
  /-- MEXP (R177). -/
  | mexp (d a : U4) (k : U3)
  /-- MSIGM (R177). -/
  | msigm (d a : U4) (k : U3)
  /-- MGELU (R177). -/
  | mgelu (d a : U4) (k : U3)
  /-- MCMEAN (R177). -/
  | mcmean (d : Dst) (a : U4) (k : U3)
  /-- MCHI (R177). -/
  | mchi (d : Dst) (a : U4) (x : Src) (k : U3)
  /-- MCLO (R177). -/
  | mclo (d : Dst) (a : U4) (x : Src) (k : U3)
  /-- MCDRAW (R177). -/
  | mcdraw (d : Dst) (a : U4) (k : U3)
  /-- MMA (R192). -/
  | mma (m : U2) (sw : Bool) (acc : U11) (gx : U5) (asgn bsgn isat z : Bool) (p : U3)
  /-- MMASA (R193). -/
  | mmasa (m : U2) (sw : Bool) (acc : U11) (gx : U5) (asgn bsgn isat z : Bool) (p : U3)
  /-- MMASB (R193). -/
  | mmasb (m : U2) (sw : Bool) (acc : U11) (gx : U5) (asgn bsgn isat z : Bool) (p : U3)
  /-- MMAM (R194). -/
  | mmam (m : U2) (sw : Bool) (acc : U11) (gx : U5) (z : Bool) (p : U3)
  /-- AZERO (R196). -/
  | azero (acc : U11) (cnt : Byte) (p : U3)
  /-- AGET (R197). -/
  | aget (acc : U11) (v : U5) (row : U4) (col : Bool) (p : U3)
  /-- AGET_NW (R198). -/
  | agetNw (acc : U11) (v : U5) (row : U4) (col : Bool) (p : U3)
  /-- AMGET (R197). -/
  | amget (acc : U11) (md row : U4) (p : U3)
  /-- AMGET_NW (R198). -/
  | amgetNw (acc : U11) (md row : U4) (p : U3)
  /-- APUT (R196). -/
  | aput (acc : U11) (v : U5) (row : U4) (col : Bool) (p : U3)
  /-- DRAIN (R201). -/
  | drain (m : U2) (sw : Bool) (acc : U11) (gx : U5) (rm : U3) (sat bias : Bool) (p : U3)
  /-- DRAINQ (R202). -/
  | drainq (m : U2) (sw : Bool) (acc : U11) (gx : U5) (bias zp : Bool) (p : U3)
  /-- ARSUM (R203). -/
  | arsum (m : U2) (sw : Bool) (acc : U11) (gx : U5) (sgn isat z : Bool) (p : U3)
  /-- ACSUM (R203). -/
  | acsum (m : U2) (sw : Bool) (acc : U11) (gx : U5) (sgn isat z : Bool) (p : U3)
  /-- LD_SPL (R219). -/
  | ldSpl (d : LdDst) (a : Src) (wt cons : Bool) (p : U3)
  /-- ST_SPL (R215). -/
  | stSpl (x : StSrc) (a : Src) (p : U3)
  /-- LD_SPK (R212). -/
  | ldSpk (d : LdDst) (a : Src) (n : Byte) (p : U3)
  /-- ST_SPK (R215). -/
  | stSpk (x : StSrc) (a : Src) (tag : Bool) (p : U3)
  /-- PUT_SPP (R222). -/
  | putSpp (x : StSrc) (a : Src) (tier : U2) (tag : Bool) (p : U3)
  /-- PUTF_SPP (R222). -/
  | putfSpp (x : StSrc) (a : Src) (fg : U5) (tier : U2) (tag : Bool) (p : U3)
  /-- RADD_SPP (R222). -/
  | raddSpp (x a : Src) (tier : U2) (p : U3)
  /-- RCOPY_SPP (R222). -/
  | rcopySpp (x : U5) (a : Src) (tier : U2) (tag : Bool) (p : U3)
  /-- LD_HBM (R213). -/
  | ldHbm (d : LdDst) (a : Src) (n : Byte) (p : U3)
  /-- ST_HBM (R215). -/
  | stHbm (x : StSrc) (a : Src) (p : U3)
  /-- AMO (R237). -/
  | amo (x a : Src) (n : Byte) (w : Bool) (scope : U3) (aop : U4) (p : U3)
  /-- PUT_PHM (R223). -/
  | putPhm (x : StSrc) (a : Src) (tier : U2) (p : U3)
  /-- LD_HST (R213). -/
  | ldHst (d : LdDst) (a : Src) (n : Byte) (p : U3)
  /-- ST_HST (R215). -/
  | stHst (x : StSrc) (a : Src) (p : U3)
  /-- PARM (R220). -/
  | parm (a b : Src) (p : U3)
  /-- PREL (R220). -/
  | prel (a : Src) (p : U3)
  /-- PFILL (R220). -/
  | pfill (a : Src) (p : U3)
  /-- PGET (R220). -/
  | pget (d : Dst) (a : Src) (p : U3)
  /-- FWAIT (R229). -/
  | fwait (a b : Src) (p : U3)
  /-- FWAITNE (R229). -/
  | fwaitne (a b : Src) (p : U3)
  /-- BINIT (R232). -/
  | binit (a b : Src) (p : U3)
  /-- BARRIVE (R232). -/
  | barrive (a : Src) (p : U3)
  /-- BWAIT (R232). -/
  | bwait (a : Src) (p : U3)
  /-- BINVAL (R232). -/
  | binval (a : Src) (p : U3)
  /-- QPUT (R234). -/
  | qput (a b : Src) (n : U4) (esz : U3) (tier : U2) (p : U3)
  /-- QPOP (R235). -/
  | qpop (d : Dst) (n : U4) (nw : Bool) (p : U3)
  /-- QDONE (R235). -/
  | qdone (n : U4) (p : U3)
  /-- FENCE (R241). -/
  | fence (scope : U4) (grp : Byte) (p : U3)
  /-- COPY (R246). -/
  | copy (x : U2) (sw : Bool) (a : U5) (d : Dst) (n : U4) (tier : U2) (tag follow : Bool) (p : U3)
  /-- CCHAIN (R251). -/
  | cchain (d : Dst) (a : Src) (n : U4) (p : U3)
  /-- CWAIT (R254). -/
  | cwait (n : U4) (b : Src) (p : U3)
  /-- MACRO (R269). -/
  | macroRun (a : Src) (idx : BitVec 10) (p : U3)
  /-- MCLD (R268). -/
  | mcld (a b : Src) (p : U3)
  /-- NTILE (R272). -/
  | ntile (p : U3)
  /-- RNGSEED (R274). -/
  | rngseed (a b : Src) (flush : Bool) (p : U3)
  /-- RNGPOP (R274). -/
  | rngpop (d : Dst) (p : U3)
  /-- NOP (R107). -/
  | nop
  /-- HDR (R103). -/
  | hdr (group : Bool) (e3 e2 e1 : Byte)
  /-- MWAIT (R188). -/
  | mwait
  /-- COLL (R257). -/
  | coll (a : Src)
  /-- RSEND (R262). -/
  | rsend (a : Src)
  /-- MACRO_STEP (R269). -/
  | macroStep
  /-- RESULT_LANDING (R24). -/
  | resultLanding
  /-- LOAD_DATA_ARRIVAL (R50). -/
  | loadDataArrival (n : Nat)
  /-- LOAD_LANDING (R50). -/
  | loadLanding
  /-- FETCH_FILL (R22). -/
  | fetchFill
  /-- PAGE_WALK_COMPLETE (R397). -/
  | pageWalkComplete (n : Nat)
  /-- TRAP_ENTRY (R144). -/
  | trapEntry (ev : TrapEvent)
  /-- RNG_APPEND (R273). -/
  | rngAppend
  /-- CORE_RESET (R28). -/
  | coreReset
  /-- RSPLIT_WRITE (R57). -/
  | rsplitWrite (v : Bool)
  /-- LACT_WRITE (R141). -/
  | lactWrite (v : U64)
  /-- QCFG_WRITE (R233). -/
  | qcfgWrite (n : U4) (v : U64)
  /-- QPTR_WRITE (R233). -/
  | qptrWrite (n : U4) (v : U64)
  /-- PCTL_READY (R364). -/
  | pctlReady
  /-- ACCXFER_WRITE (R382). -/
  | accxferWrite (v : U64)
  /-- ELOGPOS_WRITE (R440). -/
  | elogposWrite (v : U64)
  /-- CTRLO_READ (R446). -/
  | ctrloRead (c : Nat)
  /-- DEBUG_STOP (R442). -/
  | debugStop
  /-- MATRIX_ENTRY_START (R256). -/
  | matrixEntryStart
  /-- MATRIX_ENTRY_COMPLETE (R185). -/
  | matrixEntryComplete
  /-- COPY_RECORD (R247). -/
  | copyRecord (cl ch : Nat)
  /-- COPY_TRANSFER_COMPLETE (R249). -/
  | copyTransferComplete (cl ch : Nat)
  /-- CHAIN_RECORD_READ (R252). -/
  | chainRecordRead (cl ch : Nat)
  /-- WRITE_ARRIVAL (R302). -/
  | writeArrival (w : Arrival)
  /-- TAGGED_WRITE (R217). -/
  | taggedWrite (n : Nat)
  /-- RELEASE (R218). -/
  | release (n : Nat)
  /-- RADD_PERFORM (R222). -/
  | raddPerform (n : Nat)
  /-- FLAG_INCREMENT (R283). -/
  | flagIncrement (n : Nat)
  /-- QPUT_ARRIVAL (R234). -/
  | qputArrival (n : Nat)
  /-- SPK_STORE_PERFORM (R215). -/
  | spkStorePerform (n : Nat)
  /-- PHM_PUT_ARRIVAL (R223). -/
  | phmPutArrival (n : Nat)
  /-- HBM_STORE_PERFORM (R215). -/
  | hbmStorePerform (n : Nat)
  /-- HST_STORE_EMIT (R289). -/
  | hstStoreEmit (n : Nat)
  /-- ATOMIC_PERFORM (R238). -/
  | atomicPerform (n : Nat)
  /-- ATOMIC_ANSWER (R239). -/
  | atomicAnswer (n : Nat)
  /-- WRITE_ANSWER (R225). -/
  | writeAnswer (n : Nat) (outside : Option RemoteAnswer)
  /-- ECC_WRITEBACK (R424). -/
  | eccWriteback (n : Nat)
  /-- COLL_BUCKET_COMPLETE (R259). -/
  | collBucketComplete (n : Nat)
  /-- ROUTE_SEND_ANSWER (R265). -/
  | routeSendAnswer (n : Nat) (outside : Option RemoteAnswer)
  /-- ROUTING_ENTRY_ARRIVAL (R265). -/
  | routingEntryArrival (n : Nat)
  /-- SEAL_ARRIVAL (R266). -/
  | sealArrival (n : Nat)
  /-- ROUTE_BATCH_COMPLETE (R266). -/
  | routeBatchComplete (n : Nat)
  /-- HALT_COMPLETE (R149). -/
  | haltComplete
  /-- INSTANCE_FAULT (R430). -/
  | instanceFault
  /-- GRAPH_ADMIT (R317). -/
  | graphAdmit (part : Nat)
  /-- DISPATCH_DECISION (R324). -/
  | dispatchDecision (part : Nat)
  /-- GANG_RELEASE (R342). -/
  | gangRelease (job : Nat)
  /-- QUANTUM_BOUNDARY (R330). -/
  | quantumBoundary
  /-- FORCED_SAVE (R364). -/
  | forcedSave
  /-- GEMMA_WRITE (R369). -/
  | gemmaWrite (ctx : Nat)
  /-- INTERVAL_BOUNDARY (R322). -/
  | intervalBoundary (part : Nat)
  /-- HEAD_SAMPLE (R322). -/
  | headSample (cl v : Nat)
  /-- ASQBASE_WRITE (R387). -/
  | asqbaseWrite (fn : Nat) (v : U64)
  /-- ACQBASE_WRITE (R387). -/
  | acqbaseWrite (fn : Nat) (v : U64)
  /-- AQDEPTH_WRITE (R387). -/
  | aqdepthWrite (fn : Nat) (v : U32)
  /-- SQTAIL_WRITE (R387). -/
  | sqtailWrite (fn q : Nat) (v : U32)
  /-- CQHEAD_WRITE (R387). -/
  | cqheadWrite (fn q : Nat) (v : U32)
  /-- SUBMISSION_FETCH (R390). -/
  | submissionFetch (fn q : Nat)
  /-- COMPLETION_POST (R390). -/
  | completionPost (fn q : Nat)
  /-- QUEUE_SLOT_MAP (R385). -/
  | queueSlotMap (part : Nat)
  /-- VF_CREATE (R411). -/
  | vfCreate (c : Cmd)
  /-- VF_BIND (R413). -/
  | vfBind (c : Cmd)
  /-- VF_UNBIND (R411). -/
  | vfUnbind (c : Cmd)
  /-- QP_CREATE (R411). -/
  | qpCreate (c : Cmd)
  /-- QP_DELETE (R411). -/
  | qpDelete (c : Cmd)
  /-- IMAGE_LOAD (R411). -/
  | imageLoad (c : Cmd)
  /-- MAP (R411). -/
  | mapCmd (c : Cmd)
  /-- UNMAP (R411). -/
  | unmap (c : Cmd)
  /-- SUBMIT (R391). -/
  | submit (c : Cmd)
  /-- PAUSE (R411). -/
  | pause (c : Cmd)
  /-- RESUME (R411). -/
  | resume (c : Cmd)
  /-- EVICT (R411). -/
  | evict (c : Cmd)
  /-- RELOCATE (R377). -/
  | relocate (c : Cmd)
  /-- CTR_REQ (R421). -/
  | ctrReq (c : Cmd)
  /-- CTR_RELEASE (R411). -/
  | ctrRelease (c : Cmd)
  /-- CTR_EVENTS (R421). -/
  | ctrEvents (c : Cmd)
  /-- LAYOUT (R449). -/
  | layout (c : Cmd)
  /-- PART_RESET (R402). -/
  | partReset (c : Cmd)
  /-- SCHED_SET (R316). -/
  | schedSet (c : Cmd)
  /-- BUCKET_SET (R405). -/
  | bucketSet (c : Cmd)
  /-- REGION_PUBLISH (R406). -/
  | regionPublish (c : Cmd)
  /-- REGION_WITHDRAW (R407). -/
  | regionWithdraw (c : Cmd)
  /-- LINK_ROTATE (R420). -/
  | linkRotate (c : Cmd)
  /-- JOURNAL_READ (R448). -/
  | journalRead (c : Cmd)
  /-- REGION_SEAL (R406). -/
  | regionSeal (n : Nat)
  /-- POWER_GATE_ON (R402). -/
  | powerGateOn (cl : Nat)
  /-- SCRUB_REPORT (R403). -/
  | scrubReport (n : Nat)
  /-- LAYOUT_COMMIT (R449). -/
  | layoutCommit
  /-- MGMT_WATCHDOG_RESET (R450). -/
  | mgmtWatchdogReset
  /-- COLD_RESET (R451). -/
  | coldReset
  /-- TOKEN_REFILL (R405). -/
  | tokenRefill
  /-- LINK_TRAINING (R420). -/
  | linkTraining (port : Nat)
  /-- ROTATE_CONFIRM (R420). -/
  | rotateConfirm (port : Nat) (outward : Bool)
  /-- RETIRE (R420). -/
  | retire (port : Nat) (outward : Bool)
  /-- KEY_COUNTER_EXPIRY (R420). -/
  | keyCounterExpiry (port : Nat) (outward : Bool)
  /-- FLIT_REPLAY (R435). -/
  | flitReplay (port : Nat) (outward : Bool)
  /-- LINK_RETRAIN (R435). -/
  | linkRetrain (port : Nat)
  /-- LINK_DOWN (R435). -/
  | linkDown (port : Nat)
  /-- BOUNDARY_LOST (R436). -/
  | boundaryLost (bnd : Nat)
  /-- PATROL (R425). -/
  | patrol (addr : Nat)
  /-- SPDM_REQUEST (R417). -/
  | spdmRequest (fn : Nat) (block : Nat) (signed : Bool)
  /-- LOCK_INTERFACE_REQUEST (R419). -/
  | lockInterfaceRequest (fn : Nat)
  /-- START_INTERFACE_REQUEST (R419). -/
  | startInterfaceRequest (fn : Nat)
  /-- TDI_ERROR (R419). -/
  | tdiError (fn : Nat)
  /-- TLB_REMOVAL_TAKES_EFFECT (R152). -/
  | tlbRemovalTakesEffect (cl : Nat)
  /-- FLIT_ACKNOWLEDGEMENT (R420). -/
  | flitAcknowledgement (port : Nat) (outward : Bool)
  /-- JOURNAL_FLASH_MIRROR (R447). -/
  | journalFlashMirror
  deriving DecidableEq, Repr

end Sys2Proof
end

