-- ==== Sys2Proof/WellFormed.lean ====
section
/-! DEFINITION. Which instructions are well formed: every field at a value that its encoding admits (R99..R110 and
the instruction chapters). A step without an encoding is well formed as it stands. -/
namespace Sys2Proof

/-- The floating types of T that R154 accepts: FP32, BF16, FP16. -/
def okFp (t : U3) : Bool := t.toNat < 3
/-- The integer readings of T that R154 accepts. -/
def okInt (t : U3) : Bool := t == 0 || t == 1 || 5 ≤ t.toNat
/-- The rounding modes of R69. -/
def okRm (rm : U3) : Bool := rm.toNat < 5
/-- The tiers of R221; 3 is reserved. -/
def okTier (t : U2) : Bool := t != 3
/-- The sizes a scalar load takes (R105). -/
def okLdSz (sz : U3) : Bool := sz != 7
/-- The sizes a scalar store takes (R105). -/
def okStSz (sz : U3) : Bool := sz == 0 || sz == 1 || sz == 3 || sz == 5
/-- The width in bits of the element type ET (R104). -/
def etWidth (et : Nat) : Nat :=
  match et with
  | 0 | 5 => 32
  | 1 | 2 | 6 => 16
  | 3 | 4 | 7 | 8 => 8
  | _ => 64
/-- The integer reading of T (R154): 0 is UINT8 and 1 is INT64. -/
def intEt (t : U3) : Nat := if t == 0 then 8 else if t == 1 then 9 else t.toNat
/-- The number of parts of a conversion (R166). -/
def cvtRatio (s d : Nat) : Nat :=
  Nat.max (etWidth s) (etWidth d) / Nat.min (etWidth s) (etWidth d)
/-- A destination ET that takes SAT (R155). -/
def okCvtSat (d : Nat) (sat : Bool) : Bool := !sat || d == 3 || d == 4
/-- The destination type of a conversion between a floating and an integer type (R166). -/
def cvtFiDst (src : U4) (t : U3) : Nat := if src.toNat ≤ 4 then intEt t else t.toNat
/-- The types of a floating-to-floating conversion (R166). -/
def okCvtFf (src : U4) (t : U3) (part : U2) (rm : U3) (sat : Bool) : Bool :=
  src.toNat ≤ 4 && t.toNat ≤ 4 && src.toNat != t.toNat && part.toNat < cvtRatio src.toNat t.toNat && okRm rm &&
    okCvtSat t.toNat sat
/-- The types of a conversion between floating and integer (R166). -/
def okCvtFi (src : U4) (t : U3) (part : U2) (rm : U3) (sat : Bool) : Bool :=
  src.toNat ≤ 9 && (if src.toNat ≤ 4 then okInt t else t.toNat ≤ 4) &&
    part.toNat < cvtRatio src.toNat (cvtFiDst src t) && okRm rm && okCvtSat (cvtFiDst src t) sat
/-- A load destination whose page conversions are not in play (R211). -/
def okLdPlain : LdDst → Bool
  | .narrow sz _ => okLdSz sz
  | .vec _ t u => t == 0 && !u
  | .mom _ => true
/-- The destination of an HBM or HST load (R211). -/
def okLdConv : LdDst → Bool
  | .narrow sz _ => okLdSz sz
  | .vec _ t u => !u || t == 7
  | .mom _ => true
/-- The source of a store that converts nothing (R214, R221). -/
def okStPlain : StSrc → Bool
  | .narrow sz _ => okStSz sz
  | .vec _ t u => t == 0 && !u
  | .mom _ => true
/-- The source of an HBM or HST store (R214). -/
def okStConv : StSrc → Bool
  | .narrow sz _ => okStSz sz
  | .vec _ t u => !u || t == 7
  | .mom _ => true
/-- `ldis` takes 16 bits: bits [18:16] of a wide immediate are 0 (R128). -/
def okLdis : Imm → Bool
  | .narrow _ => true
  | .wide x _ => x.toNat < 32
/-- A scalar source that names `g1`..`g30` (R237). -/
def okPair : Src → Bool
  | .g r => r != 0 && r != 31
  | _ => false
/-- The operation, size, offset and source of an atomic (R237). -/
def okAmo (x : Src) (n : Byte) (w : Bool) (scope : U3) (aop : U4) : Bool :=
  scope.toNat < 5 && aop.toNat < 11 && (!(aop == 8 || aop == 9) || n != 0) && (aop != 9 || okPair x) &&
    (aop != 10 || w)

/-- Whether every field of the instruction has a value that its encoding admits. -/
def Instr.wf : Instr → Bool
  | .nop => true
  | .hdr _ _ _ _ => true
  | .add _ _ _ _ => true
  | .sub _ _ _ _ => true
  | .and _ _ _ _ => true
  | .or _ _ _ _ => true
  | .xor _ _ _ _ => true
  | .andn _ _ _ _ => true
  | .sll _ _ _ _ => true
  | .srl _ _ _ _ => true
  | .sra _ _ _ _ => true
  | .ror _ _ _ _ => true
  | .min _ _ _ _ => true
  | .max _ _ _ _ => true
  | .minu _ _ _ _ => true
  | .maxu _ _ _ _ => true
  | .slt _ _ _ _ => true
  | .sltu _ _ _ _ => true
  | .addw _ _ _ _ => true
  | .subw _ _ _ _ => true
  | .sllw _ _ _ _ => true
  | .srlw _ _ _ _ => true
  | .sraw _ _ _ _ => true
  | .mul _ _ _ _ => true
  | .mulh _ _ _ _ => true
  | .mulhu _ _ _ _ => true
  | .mulhsu _ _ _ _ => true
  | .mulw _ _ _ _ => true
  | .addsat _ _ _ _ => true
  | .subsat _ _ _ _ => true
  | .addsatw _ _ _ _ => true
  | .subsatw _ _ _ _ => true
  | .addsatu _ _ _ _ => true
  | .subsatu _ _ _ _ => true
  | .mulsatw _ _ _ _ => true
  | .div _ _ _ _ => true
  | .divu _ _ _ _ => true
  | .rem _ _ _ _ => true
  | .remu _ _ _ _ => true
  | .addi _ _ _ _ => true
  | .andi _ _ _ _ => true
  | .ori _ _ _ _ => true
  | .xori _ _ _ _ => true
  | .slli _ _ _ _ => true
  | .srli _ _ _ _ => true
  | .srai _ _ _ _ => true
  | .rori _ _ _ _ => true
  | .slliw _ _ _ _ => true
  | .srliw _ _ _ _ => true
  | .sraiw _ _ _ _ => true
  | .roriw _ _ _ _ => true
  | .ldi _ _ _ => true
  | .ldis _ _ imm _ => okLdis imm
  | .cmp _ _ cmb _ _ _ => cmb != 3
  | .cmpi _ _ _ _ _ => true
  | .pand _ _ _ _ => true
  | .por _ _ _ _ => true
  | .pxor _ _ _ _ => true
  | .pandn _ _ _ _ => true
  | .kfromg _ _ _ => true
  | .gfromk _ _ _ => true
  | .pfromg _ _ _ => true
  | .gfromp _ _ _ => true
  | .sel _ _ _ _ _ => true
  | .seln _ _ _ _ _ => true
  | .bext _ _ _ _ => true
  | .bextu _ _ _ _ => true
  | .bins _ _ _ _ => true
  | .clz _ _ _ => true
  | .ctz _ _ _ => true
  | .popc _ _ _ => true
  | .bswap _ _ _ => true
  | .brev _ _ _ => true
  | .adds _ _ _ _ _ => true
  | .setdev _ _ _ _ => true
  | .setcore _ _ _ _ => true
  | .ldSplSm _ _ _ sz _ => okLdSz sz
  | .stSplSm _ _ _ sz _ => okStSz sz
  | .mfsr _ _ _ _ _ => true
  | .mtsr _ _ _ _ _ => true
  | .shwMs _ fld _ _ _ => fld.toNat < 18
  | .shwXs _ fld _ _ _ => fld.toNat < 9
  | .br _ _ => true
  | .brn _ _ => true
  | .call _ _ => true
  | .jr _ _ => true
  | .callr _ _ _ => true
  | .ret _ => true
  | .lclr _ _ => true
  | .loop _ _ last => last != 0
  | .yield _ => true
  | .trap _ _ => true
  | .brk _ => true
  | .halt _ => true
  | .uret _ => true
  | .sret _ => true
  | .rbsave _ _ => true
  | .rbload _ _ => true
  | .rbdrop _ => true
  | .tlbinv _ _ => true
  | .tlbinvctx _ _ => true
  | .tlbinvall _ => true
  | .tlbsync _ => true
  | .cbldBf16 _ _ _ _ => true
  | .cbldE4m3 _ _ _ _ => true
  | .scld _ _ _ => true
  | .mmset _ _ _ => true
  | .mmcov _ _ _ => true
  | .mmclamp _ _ _ => true
  | .vadd _ _ _ t _ rm => okFp t && okRm rm
  | .vsub _ _ _ t _ rm => okFp t && okRm rm
  | .vmin _ _ _ t _ rm => okFp t && okRm rm
  | .vmax _ _ _ t _ rm => okFp t && okRm rm
  | .vmul _ _ _ t _ rm => okFp t && okRm rm
  | .vdiv _ _ _ t _ rm => okFp t && okRm rm
  | .vabs _ _ t _ rm => okFp t && okRm rm
  | .vneg _ _ t _ rm => okFp t && okRm rm
  | .vsqrt _ _ t _ rm => okFp t && okRm rm
  | .vrcp _ _ t _ rm => okFp t && okRm rm
  | .vfrac _ _ t _ rm => okFp t && rm == 0
  | .vclass _ _ t _ rm => okFp t && rm == 0
  | .vfma _ _ _ _ t _ rm => t != 3 && okRm rm
  | .vfms _ _ _ _ t _ rm => t != 3 && okRm rm
  | .vfnma _ _ _ _ t _ rm => t != 3 && okRm rm
  | .vfnms _ _ _ _ t _ rm => t != 3 && okRm rm
  | .viadd _ _ _ t _ => okInt t
  | .visub _ _ _ t _ => okInt t
  | .viadds _ _ _ t _ => okInt t
  | .visubs _ _ _ t _ => okInt t
  | .vimul _ _ _ t _ _ => okInt t
  | .vimulh _ _ _ t _ => okInt t
  | .vimin _ _ _ t _ => okInt t
  | .vimax _ _ _ t _ => okInt t
  | .vand _ _ _ _ => true
  | .vor _ _ _ _ => true
  | .vxor _ _ _ _ => true
  | .vandn _ _ _ _ => true
  | .vsll _ _ _ t _ => okInt t
  | .vsrl _ _ _ t _ => okInt t
  | .vsra _ _ _ t _ => okInt t
  | .vrol _ _ _ t _ => okInt t
  | .vfcmpEq _ _ _ _ => true
  | .vfcmpLt _ _ _ _ => true
  | .vfcmpLe _ _ _ _ => true
  | .vfcmpUn _ _ _ _ => true
  | .vicmpEq _ _ _ t _ => t == 1 || t == 5
  | .vicmpLt _ _ _ t _ => t == 1 || t == 5
  | .vicmpLe _ _ _ t _ => t == 1 || t == 5
  | .vicmpLtu _ _ _ t _ => t == 1 || t == 5
  | .vcvtFf _ _ src t _ part rm sat => okCvtFf src t part rm sat
  | .vcvtFi _ _ src t _ part rm sat => okCvtFi src t part rm sat
  | .vperm _ _ _ _ _ => true
  | .vziplo _ _ _ _ _ => true
  | .vziphi _ _ _ _ _ => true
  | .vunzip _ _ _ _ _ => true
  | .vrot _ _ _ _ _ => true
  | .vshdn _ _ _ _ _ => true
  | .vshup _ _ _ _ _ => true
  | .vrev _ _ _ _ => true
  | .vfredsum _ _ t _ rm => okFp t && rm.toNat < 4
  | .vfredmax _ _ t _ rm => okFp t && rm.toNat < 4
  | .viredsum _ _ t _ _ => okInt t
  | .viredmax _ _ t _ => okInt t
  | .vbcast _ _ _ _ => true
  | .vins _ _ _ _ _ => true
  | .vext _ _ _ _ => true
  | .vbcastl _ _ _ _ _ => true
  | .vexp2 _ _ t _ rm => okFp t && okRm rm
  | .vlog2 _ _ t _ rm => okFp t && okRm rm
  | .vrsqrt _ _ t _ rm => okFp t && okRm rm
  | .vtanh _ _ t _ rm => okFp t && okRm rm
  | .vsinpi _ _ t _ rm => okFp t && okRm rm
  | .vcospi _ _ t _ rm => okFp t && okRm rm
  | .verf _ _ t _ rm => okFp t && okRm rm
  | .vsigm _ _ t _ rm => okFp t && okRm rm
  | .kand _ _ _ => true
  | .kor _ _ _ => true
  | .kxor _ _ _ => true
  | .kandn _ _ _ => true
  | .vsel _ _ _ _ => true
  | .vimad _ _ _ _ _ _ => true
  | .mmake _ _ _ _ => true
  | .mgetm _ _ _ => true
  | .mgetv _ _ _ => true
  | .mmov _ _ _ => true
  | .madd _ _ _ _ _ => true
  | .msub _ _ _ _ _ => true
  | .mmul _ _ _ _ => true
  | .mscale _ _ _ _ => true
  | .mrelu _ _ _ => true
  | .mexp _ _ _ => true
  | .msigm _ _ _ => true
  | .mgelu _ _ _ => true
  | .mcmean _ _ _ => true
  | .mchi _ _ _ _ => true
  | .mclo _ _ _ _ => true
  | .mcdraw _ _ _ => true
  | .mma _ _ _ _ _ _ _ _ _ => true
  | .mmasa _ _ _ _ _ _ _ _ _ => true
  | .mmasb _ _ _ _ _ _ _ _ _ => true
  | .mmam _ _ _ _ _ _ => true
  | .azero _ _ _ => true
  | .aget _ _ _ _ _ => true
  | .agetNw _ _ _ _ _ => true
  | .amget _ _ _ _ => true
  | .amgetNw _ _ _ _ => true
  | .aput _ _ _ _ _ => true
  | .drain _ _ _ _ rm _ _ _ => okRm rm
  | .drainq _ _ _ _ _ _ _ => true
  | .arsum _ _ _ _ _ _ _ _ => true
  | .acsum _ _ _ _ _ _ _ _ => true
  | .mwait => true
  | .ldSpl d _ _ _ _ => okLdPlain d
  | .stSpl x _ _ => okStPlain x
  | .ldSpk d _ n _ => okLdPlain d && n != 0
  | .stSpk x _ _ _ => okStPlain x
  | .putSpp x _ tier _ _ => okStPlain x && okTier tier
  | .putfSpp x _ _ tier _ _ => okStPlain x && okTier tier
  | .raddSpp _ _ tier _ => okTier tier
  | .rcopySpp x _ tier _ _ => x != 0 && x != 31 && okTier tier
  | .ldHbm d _ n _ => okLdConv d && n != 0
  | .stHbm x _ _ => okStConv x
  | .amo x _ n w scope aop _ => okAmo x n w scope aop
  | .putPhm x _ tier _ => okStPlain x && okTier tier
  | .ldHst d _ n _ => okLdConv d && n != 0
  | .stHst x _ _ => okStConv x
  | .parm _ _ _ => true
  | .prel _ _ => true
  | .pfill _ _ => true
  | .pget _ _ _ => true
  | .fwait _ _ _ => true
  | .fwaitne _ _ _ => true
  | .binit _ _ _ => true
  | .barrive _ _ => true
  | .bwait _ _ => true
  | .binval _ _ => true
  | .qput _ _ _ esz tier _ => esz != 7 && okTier tier
  | .qpop _ _ _ _ => true
  | .qdone _ _ => true
  | .fence scope grp _ => scope.toNat < 5 && (scope == 3 || grp == 0)
  | .copy _ _ a _ _ tier _ _ _ => a != 0 && a != 31 && okTier tier
  | .cchain _ _ _ _ => true
  | .cwait _ _ _ => true
  | .coll _ => true
  | .rsend _ => true
  | .macroRun _ _ _ => true
  | .mcld _ _ _ => true
  | .ntile _ => true
  | .rngseed _ _ _ _ => true
  | .rngpop _ _ => true
  | .macroStep => true
  | .resultLanding => true
  | .loadDataArrival _ => true
  | .loadLanding => true
  | .fetchFill => true
  | .pageWalkComplete _ => true
  | .trapEntry _ => true
  | .rngAppend => true
  | .coreReset => true
  | .rsplitWrite _ => true
  | .lactWrite _ => true
  | .qcfgWrite _ _ => true
  | .qptrWrite _ _ => true
  | .pctlReady => true
  | .accxferWrite _ => true
  | .elogposWrite _ => true
  | .ctrloRead _ => true
  | .debugStop => true
  | .matrixEntryStart => true
  | .matrixEntryComplete => true
  | .copyRecord _ _ => true
  | .copyTransferComplete _ _ => true
  | .chainRecordRead _ _ => true
  | .writeArrival _ => true
  | .taggedWrite _ => true
  | .release _ => true
  | .raddPerform _ => true
  | .flagIncrement _ => true
  | .qputArrival _ => true
  | .spkStorePerform _ => true
  | .phmPutArrival _ => true
  | .hbmStorePerform _ => true
  | .hstStoreEmit _ => true
  | .atomicPerform _ => true
  | .atomicAnswer _ => true
  | .writeAnswer _ _ => true
  | .eccWriteback _ => true
  | .collBucketComplete _ => true
  | .routeSendAnswer _ _ => true
  | .routingEntryArrival _ => true
  | .sealArrival _ => true
  | .routeBatchComplete _ => true
  | .haltComplete => true
  | .instanceFault => true
  | .graphAdmit _ => true
  | .dispatchDecision _ => true
  | .gangRelease _ => true
  | .quantumBoundary => true
  | .forcedSave => true
  | .gemmaWrite _ => true
  | .intervalBoundary _ => true
  | .headSample _ _ => true
  | .asqbaseWrite _ _ => true
  | .acqbaseWrite _ _ => true
  | .aqdepthWrite _ _ => true
  | .sqtailWrite _ _ _ => true
  | .cqheadWrite _ _ _ => true
  | .submissionFetch _ _ => true
  | .completionPost _ _ => true
  | .queueSlotMap _ => true
  | .vfCreate _ => true
  | .vfBind _ => true
  | .vfUnbind _ => true
  | .qpCreate _ => true
  | .qpDelete _ => true
  | .imageLoad _ => true
  | .mapCmd _ => true
  | .unmap _ => true
  | .submit _ => true
  | .pause _ => true
  | .resume _ => true
  | .evict _ => true
  | .relocate _ => true
  | .ctrReq _ => true
  | .ctrRelease _ => true
  | .ctrEvents _ => true
  | .layout _ => true
  | .partReset _ => true
  | .schedSet _ => true
  | .bucketSet _ => true
  | .regionPublish _ => true
  | .regionWithdraw _ => true
  | .linkRotate _ => true
  | .journalRead _ => true
  | .regionSeal _ => true
  | .powerGateOn _ => true
  | .scrubReport _ => true
  | .layoutCommit => true
  | .mgmtWatchdogReset => true
  | .coldReset => true
  | .tokenRefill => true
  | .linkTraining _ => true
  | .rotateConfirm _ _ => true
  | .retire _ _ => true
  | .keyCounterExpiry _ _ => true
  | .flitReplay _ _ => true
  | .linkRetrain _ => true
  | .linkDown _ => true
  | .boundaryLost _ => true
  | .patrol _ => true
  | .spdmRequest _ _ _ => true
  | .lockInterfaceRequest _ => true
  | .startInterfaceRequest _ => true
  | .tdiError _ => true
  | .tlbRemovalTakesEffect _ => true
  | .flitAcknowledgement _ _ => true
  | .journalFlashMirror => true

end Sys2Proof
end

