-- ==== Sys2Proof/Decode.lean ====
section
/-! DEFINITION. Decoding (R99..R110): from a slot word, its position, the kind of core and the header byte its slot
takes, to an instruction or a named rejection, in the precedence of R106; and the encoder. -/
namespace Sys2Proof

/-- Why a slot word is no instruction (R106 steps 1 and 2): the names of the rejections. -/
inductive Reject where
  /-- A major opcode that the slot's map marks illegal (R108..R110). -/
  | illegalMajor
  /-- A function value that no chapter assigns. -/
  | illegalFunction
  /-- An instruction that the issuing kind of core does not have (R17). -/
  | illegalCore
  /-- A moment operand where none is allowed, or none where one is required (R32, R174). -/
  | illegalMoment
  /-- An element type that the instruction does not accept (R104). -/
  | illegalType
  /-- A reserved bit that is 1, or an unused field that is not 0. -/
  | reservedField
  /-- A reserved field value. -/
  | reservedValue
  /-- A reserved vector source, 35..47 (R32). -/
  | reservedSource
  /-- A transient or moment destination with its other bits not 0 (R33). -/
  | reservedDestination
  /-- A reserved element type code, 10..15 (R104). -/
  | reservedType
  /-- A rounding mode or SAT bit that the form does not take (R69, R155). -/
  | reservedRounding
  /-- A landing offset of 0 (R102). -/
  | zeroOffset
  /-- A header byte that the slot does not use (R103). -/
  | extensionByte
  /-- A non-zero bit under major 0x00 (R107). -/
  | noOperation
  /-- Bits [27:25] of a header (R103). -/
  | headerBits
  deriving DecidableEq, Repr

/-- Whether the rejection is of step 1 of R106, cause 0x01. -/
def Reject.isIllegal : Reject → Bool
  | .illegalMajor | .illegalFunction | .illegalCore | .illegalMoment | .illegalType => true
  | _ => false

/-- The trap cause of a rejection (R106). -/
def Reject.cause (r : Reject) : Byte := if r.isIllegal then 0x01 else 0x02

/-- The first check that fails, those of step 1 of R106 before those of step 2. -/
def firstBad (cs : List (Option Reject)) : Option Reject :=
  match cs.find? (fun c => c.elim false Reject.isIllegal) with
  | some (some r) => some r
  | _ => (cs.find? Option.isSome).join

/-- What a slot word stands for: a header, a collective, a routing send, a pop of the random-bit queue, or any
other instruction. (Four
constructors of Instr are kept apart here only because Lean's compiler builds no object with a constructor number
above 243; Decoded.instr says which instruction each is.) -/
inductive Decoded where
  | hdr (group : Bool) (e3 e2 e1 : Byte)
  | coll (a : Src)
  | rsend (a : Src)
  | rngpop (d : Dst) (p : U3)
  | op (i : Instr)
  deriving DecidableEq, Repr

/-- The instruction that a decoded word is. -/
noncomputable def Decoded.instr : Decoded → Instr
  | .hdr g e3 e2 e1 => .hdr g e3 e2 e1
  | .coll a => .coll a
  | .rsend a => .rsend a
  | .rngpop d p => .rngpop d p
  | .op i => i

/-- The decoded word, when every check passes. -/
def acceptD (cs : List (Option Reject)) (i : Decoded) : Except Reject Decoded :=
  match firstBad cs with
  | some r => .error r
  | none => .ok i

/-- The instruction, when every check passes. -/
def accept (cs : List (Option Reject)) (i : Instr) : Except Reject Decoded := acceptD cs (.op i)

/-- A check: none when the condition holds, else the rejection. -/
def ck (b : Bool) (r : Reject) : Option Reject := if b then none else some r

/-- Bits [lo+n−1:lo] of a slot word. -/
def fld (w : U32) (lo n : Nat) : BitVec n := w.extractLsb' lo n

/-- A one-bit field as a Bool. -/
def bit (w : U32) (i : Nat) : Bool := w.getLsbD i

/-- The extension byte's bit. -/
def ebit (x : Byte) (i : Nat) : Bool := x.getLsbD i

/-! Operand fields (R32, R33). -/

def dstBits : Dst → U6
  | .reg r => 0#1 ++ r
  | .tr => 0x20

def dstOf (x : U6) : Dst := if x.getLsbD 5 then .tr else .reg (x.extractLsb' 0 5)

/-- R33: a transient destination has bits [4:0] zero. -/
def ckDst (x : U6) : Option Reject :=
  ck (!(x.getLsbD 5) || x.extractLsb' 0 5 == 0#5) .reservedDestination

def srcBits : Src → U6
  | .g r => 0#1 ++ r
  | .q a => 2#2 ++ a
  | .c k => 3#2 ++ k

def srcOf (x : U6) : Src :=
  if x.getLsbD 5 then if x.getLsbD 4 then .c (x.extractLsb' 0 4) else .q (x.extractLsb' 0 4)
  else .g (x.extractLsb' 0 5)

def vsrcBits : VSrc → U6
  | .v r => 0#1 ++ r
  | .b0 => 32
  | .b1 => 33
  | .b2 => 34

def vsrcOf (x : U6) : VSrc :=
  if x.getLsbD 5 then if x == 33 then .b1 else if x == 34 then .b2 else .b0
  else .v (x.extractLsb' 0 5)

/-- R32: 35..47 are reserved, and 48..63 name moment registers. -/
def ckV (x : U6) : Option Reject :=
  if 48 ≤ x.toNat then some .illegalMoment else if 35 ≤ x.toNat then some .reservedSource else none

def momBits (r : U4) : U6 := 3#2 ++ r
def momOf (x : U6) : U4 := x.extractLsb' 0 4

/-- R174: a field marked m holds 48..63. -/
def ckM (x : U6) : Option Reject := ck (48 ≤ x.toNat) .illegalMoment

def mdBits (r : U4) : U6 := 0#2 ++ r

/-- R33: bits 4 and 5 of a moment destination are reserved. -/
def ckMd (x : U6) : Option Reject := ck (x.extractLsb' 4 2 == 0#2) .reservedDestination

def p3Bits (r : U3) : U6 := 0#3 ++ r
def p3Of (x : U6) : U3 := x.extractLsb' 0 3

/-- R130: bits [5:3] of a field that names a predicate or a lane mask are 0. -/
def ckP3 (x : U6) : Option Reject := ck (x.extractLsb' 3 3 == 0#3) .reservedField

def ckZero {n : Nat} (x : BitVec n) : Option Reject := ck (x == 0#n) .reservedField
def ckExt (x : Byte) : Option Reject := ck (x == 0#8) .extensionByte
def ckT0 {n : Nat} (t : BitVec n) : Option Reject := ck (t == 0#n) .reservedField
def ckFp (t : U3) : Option Reject := ck (okFp t) .illegalType
def ckInt (t : U3) : Option Reject := ck (okInt t) .illegalType
def ckRm (rm : U3) : Option Reject := ck (okRm rm) .reservedRounding
def ckTier (t : U2) : Option Reject := ck (okTier t) .reservedValue

/-! The formats (R100..R102). -/

def mkSR (op d a b : U6) (fn : U5) (p : U3) : U32 := op ++ d ++ a ++ b ++ fn ++ p
def mkSI (op d a : U6) (i : U11) (p : U3) : U32 := op ++ d ++ a ++ i ++ p
def mkSM (op d a : U6) (i : Byte) (z p : U3) : U32 := op ++ d ++ a ++ i ++ z ++ p
def mkSS (op d : U6) (r : U11) (x : U6) (p : U3) : U32 := op ++ d ++ r ++ x ++ p
def mkSH (op : U6) (r : U3) (f : U5) (a : U6) (i : BitVec 9) (p : U3) : U32 := op ++ r ++ f ++ a ++ i ++ p
def mkSB (op : U6) (fn : U4) (p : U3) (off : BitVec 19) : U32 := op ++ fn ++ p ++ off
def mkSL (op : U6) (l : U3) (a : U6) (e : BitVec 17) : U32 := op ++ l ++ a ++ e
def mkCF (op : U6) (fn t : U4) (a : U6) (i : BitVec 9) (p : U3) : U32 := op ++ fn ++ t ++ a ++ i ++ p
def mkVR (op d a b : U6) (t k : U3) (fn : U2) : U32 := op ++ d ++ a ++ b ++ t ++ k ++ fn
def mkVF (op d a b c : U6) (t : U2) : U32 := op ++ d ++ a ++ b ++ c ++ t
def mkEM (op : U6) (fn : U4) (m : U2) (w : Bool) (acc : U11) (p : U3) (g : U5) : U32 :=
  op ++ fn ++ m ++ BitVec.ofBool w ++ acc ++ p ++ g
def mkEL (op d a : U6) (n : Byte) (z p : U3) : U32 := op ++ d ++ a ++ n ++ z ++ p
def mkEG (op : U6) (fn : U4) (x : U2) (w : Bool) (a b : U6) (c : U4) (p : U3) : U32 :=
  op ++ fn ++ x ++ BitVec.ofBool w ++ a ++ b ++ c ++ p
def mkH (g : Bool) (e3 e2 e1 : Byte) : U32 := 0x78#7 ++ BitVec.ofBool g ++ e3 ++ e2 ++ e1
/-- The extension byte of VR (R103). -/
def xVR (rm : U3) (sat : Bool) : Byte := 0#4 ++ BitVec.ofBool sat ++ rm
/-- The extension byte of VF (R103). -/
def xVF (k rm : U3) (sat : Bool) : Byte := 0#1 ++ BitVec.ofBool sat ++ rm ++ k
/-- The extension byte of EL and ES (R103). -/
def xEL (w : Bool) (t : U3) (m : U4) : Byte := BitVec.ofBool w ++ t ++ m
/-- MMOD and AUX bytes, by bits. -/
def xBits (b7 b6 b5 b4 b3 b2 b1 b0 : Bool) : Byte :=
  BitVec.ofBool b7 ++ BitVec.ofBool b6 ++ BitVec.ofBool b5 ++ BitVec.ofBool b4 ++ BitVec.ofBool b3 ++
    BitVec.ofBool b2 ++ BitVec.ofBool b1 ++ BitVec.ofBool b0

/-- A slot word where it stands: its slot, whether the bundle has a header, the byte the header lends it. -/
structure Enc where
  slot : U2
  hdr : Bool
  ext : Byte
  word : U32
  deriving DecidableEq, Repr

/-- The widened immediate of SI (R100). -/
def immOf (wide : Bool) (x : Byte) (i : U11) : Imm := if wide then .wide x i else .narrow i
def imm9Of (wide : Bool) (x : Byte) (i : BitVec 9) : Imm9 := if wide then .wide x i else .narrow i
def dispOf (wide : Bool) (x : Byte) (i : Byte) : Disp := if wide then .wide x i else .narrow i

/-- The functions of a major by FN. -/
def srAlu (fn : Nat) : Option (Dst → Src → Src → U3 → Instr) :=
  match fn with
  | 0 => some .add
  | 1 => some .sub
  | 2 => some .and
  | 3 => some .or
  | 4 => some .xor
  | 5 => some .andn
  | 6 => some .sll
  | 7 => some .srl
  | 8 => some .sra
  | 9 => some .ror
  | 10 => some .min
  | 11 => some .max
  | 12 => some .minu
  | 13 => some .maxu
  | 14 => some .slt
  | 15 => some .sltu
  | 16 => some .addw
  | 17 => some .subw
  | 18 => some .sllw
  | 19 => some .srlw
  | 20 => some .sraw
  | _ => none

/-- The functions of a major by FN. -/
def srMul (fn : Nat) : Option (Dst → Src → Src → U3 → Instr) :=
  match fn with
  | 0 => some .mul
  | 1 => some .mulh
  | 2 => some .mulhu
  | 3 => some .mulhsu
  | 4 => some .mulw
  | 5 => some .addsat
  | 6 => some .subsat
  | 7 => some .addsatw
  | 8 => some .subsatw
  | 9 => some .addsatu
  | 10 => some .subsatu
  | 11 => some .mulsatw
  | 12 => some .div
  | 13 => some .divu
  | 14 => some .rem
  | 15 => some .remu
  | _ => none

/-- The functions of a major by FN. -/
def srPred (fn : Nat) : Option (U3 → U3 → U3 → U3 → Instr) :=
  match fn with
  | 0 => some .pand
  | 1 => some .por
  | 2 => some .pxor
  | 3 => some .pandn
  | _ => none

/-- The functions of a major by FN. -/
def srBits (fn : Nat) : Option (Dst → Src → U3 → Instr) :=
  match fn with
  | 3 => some .clz
  | 4 => some .ctz
  | 5 => some .popc
  | 6 => some .bswap
  | 7 => some .brev
  | _ => none

/-- The functions of a major by FN. -/
def siShift (fn : Nat) : Option (Dst → Src → U6 → U3 → Instr) :=
  match fn with
  | 0 => some .slli
  | 1 => some .srli
  | 2 => some .srai
  | 3 => some .rori
  | _ => none

/-- The functions of a major by FN. -/
def siShiftW (fn : Nat) : Option (Dst → Src → U5 → U3 → Instr) :=
  match fn with
  | 0 => some .slliw
  | 1 => some .srliw
  | 2 => some .sraiw
  | 3 => some .roriw
  | _ => none

/-- `pred` at FN 4..7 of major 0x0C (R130). -/
def decodeMove (ext : Byte) (d a b : U6) (fn : Nat) (p : U3) : Except Reject Decoded :=
  match fn with
  | 4 => accept [ckExt ext, ckP3 d, ckZero b] (.kfromg (p3Of d) (srcOf a) p)
  | 5 => accept [ckExt ext, ckDst d, ckP3 a, ckZero b] (.gfromk (dstOf d) (p3Of a) p)
  | 6 => accept [ckExt ext, ckP3 d, ckZero b] (.pfromg (p3Of d) (srcOf a) p)
  | 7 => accept [ckExt ext, ckDst d, ckP3 a, ckZero b] (.gfromp (dstOf d) (p3Of a) p)
  | _ => .error .illegalFunction

/-- The majors that both scalar slots hold (R108). -/
def decodeCommon (isM wide : Bool) (ext : Byte) (w : U32) : Except Reject Decoded :=
  let d := fld w 20 6
  let a := fld w 14 6
  let b := fld w 8 6
  let fn := (fld w 3 5).toNat
  let p := fld w 0 3
  let imm := immOf wide ext (fld w 3 11)
  match (fld w 26 6).toNat with
  | 0x00 => accept [ck (w == 0) .noOperation, ckExt ext] .nop
  | 0x01 =>
    match srAlu fn with
    | some f => accept [ckExt ext, ckDst d] (f (dstOf d) (srcOf a) (srcOf b) p)
    | none => .error .illegalFunction
  | 0x02 =>
    match srMul fn with
    | some f => accept [ckExt ext, ckDst d] (f (dstOf d) (srcOf a) (srcOf b) p)
    | none => .error .illegalFunction
  | 0x03 => accept [ckDst d] (.addi (dstOf d) (srcOf a) imm p)
  | 0x04 => accept [ckDst d] (.andi (dstOf d) (srcOf a) imm p)
  | 0x05 => accept [ckDst d] (.ori (dstOf d) (srcOf a) imm p)
  | 0x06 => accept [ckDst d] (.xori (dstOf d) (srcOf a) imm p)
  | 0x07 =>
    if bit w 11 then
      match siShiftW (fld w 12 2).toNat with
      | some f => accept [ckExt ext, ckDst d, ckZero (fld w 8 3)] (f (dstOf d) (srcOf a) (fld w 3 5) p)
      | none => .error .illegalFunction
    else
      match siShift (fld w 12 2).toNat with
      | some f => accept [ckExt ext, ckDst d, ckZero (fld w 9 2)] (f (dstOf d) (srcOf a) (fld w 3 6) p)
      | none => .error .illegalFunction
  | 0x08 => accept [ckDst d, ckZero a] (.ldi (dstOf d) imm p)
  | 0x09 => accept [ckDst d, ck (okLdis imm) .reservedField] (.ldis (dstOf d) (srcOf a) imm p)
  | 0x0A =>
    accept [ckExt ext, ckP3 d, ck (fld w 6 2 != 3) .reservedValue]
      (.cmp (p3Of d) (fld w 3 3) (fld w 6 2) (srcOf a) (srcOf b) p)
  | 0x0B => accept [] (.cmpi (fld w 20 3) (fld w 23 3) (srcOf a) imm p)
  | 0x0C =>
    match srPred fn with
    | some f => accept [ckExt ext, ckP3 d, ckP3 a, ckP3 b] (f (p3Of d) (p3Of a) (p3Of b) p)
    | none => decodeMove ext d a b fn p
  | 0x0D =>
    if bit w 6 then accept [ckExt ext, ckDst d, ckZero (fld w 7 1)] (.seln (dstOf d) (srcOf a) (srcOf b) (fld w 3 3) p)
    else accept [ckExt ext, ckDst d, ckZero (fld w 7 1)] (.sel (dstOf d) (srcOf a) (srcOf b) (fld w 3 3) p)
  | 0x0E =>
    match fn with
    | 0 => accept [ckExt ext, ckDst d] (.bext (dstOf d) (srcOf a) (srcOf b) p)
    | 1 => accept [ckExt ext, ckDst d] (.bextu (dstOf d) (srcOf a) (srcOf b) p)
    | 2 =>
      accept [ckExt ext, ck (d.extractLsb' 5 1 == 0#1) .reservedDestination]
        (.bins (d.extractLsb' 0 5) (srcOf a) (srcOf b) p)
    | k =>
      match srBits k with
      | some f => accept [ckExt ext, ckDst d, ckZero b] (f (dstOf d) (srcOf a) p)
      | none => .error .illegalFunction
  | 0x0F =>
    match fn with
    | 16 => accept [ckExt ext, ckDst d] (.setdev (dstOf d) (srcOf a) (srcOf b) p)
    | 17 => accept [ckExt ext, ckDst d] (.setcore (dstOf d) (srcOf a) (srcOf b) p)
    | k =>
      if k < 16 then accept [ckExt ext, ckDst d] (.adds (dstOf d) (srcOf a) (srcOf b) (fld w 3 4) p)
      else .error .illegalFunction
  | 0x10 =>
    accept [ckDst d, ck (okLdSz (fld w 3 3)) .reservedValue]
      (.ldSplSm (dstOf d) (srcOf a) (dispOf wide ext (fld w 6 8)) (fld w 3 3) p)
  | 0x11 =>
    accept [ck (okStSz (fld w 3 3)) .reservedValue]
      (.stSplSm (srcOf d) (srcOf a) (dispOf wide ext (fld w 6 8)) (fld w 3 3) p)
  | 0x12 => accept [] (.mfsr d (fld w 9 11) (fld w 3 6) ext p)
  | 0x13 => accept [] (.mtsr (srcOf d) (fld w 9 11) (fld w 3 6) ext p)
  | 0x14 =>
    let i := imm9Of wide ext (fld w 3 9)
    if bit w 25 then
      accept [ck ((fld w 18 5).toNat < 9) .reservedValue] (.shwXs (fld w 23 2) (fld w 18 5) (srcOf (fld w 12 6)) i p)
    else
      accept [ck isM .illegalCore, ck ((fld w 18 5).toNat < 18) .reservedValue]
        (.shwMs (fld w 23 2) (fld w 18 5) (srcOf (fld w 12 6)) i p)
  | _ => .error .illegalMajor

/-- The majors that only slot 0 holds (R108). -/
def decodeSlot0 (isM : Bool) (w : U32) : Except Reject Decoded :=
  let d := fld w 20 6
  let a := fld w 14 6
  let b := fld w 8 6
  let fn := (fld w 3 5).toNat
  let p := fld w 0 3
  match (fld w 26 6).toNat with
  | 0x18 =>
    match (fld w 22 4).toNat with
    | 0 => accept [] (.br (fld w 19 3) (fld w 0 19))
    | 1 => accept [] (.brn (fld w 19 3) (fld w 0 19))
    | _ => .error .illegalFunction
  | 0x19 =>
    match (fld w 22 4).toNat with
    | 0 => accept [] (.call (fld w 19 3) (fld w 0 19))
    | _ => .error .illegalFunction
  | 0x1A =>
    match fn with
    | 0 => accept [ckZero d, ckZero b] (.jr (srcOf a) p)
    | 1 => accept [ckDst d, ckZero b] (.callr (dstOf d) (srcOf a) p)
    | 2 => accept [ckZero d, ckZero a, ckZero b] (.ret p)
    | 3 => accept [ckZero d, ck (a.extractLsb' 3 3 == 7#3) .reservedValue, ckZero b] (.lclr (p3Of a) p)
    | _ => .error .illegalFunction
  | 0x1B => accept [ck (fld w 0 17 != 0) .reservedValue] (.loop (fld w 23 3) (srcOf (fld w 17 6)) (fld w 0 17))
  | 0x1C =>
    match fn with
    | 0 => accept [ckZero d, ckZero a, ckZero b] (.yield p)
    | 1 => accept [ckZero d, ckZero b] (.trap (srcOf a) p)
    | 2 => accept [ckZero d, ckZero a, ckZero b] (.brk p)
    | 3 => accept [ckZero d, ckZero a, ckZero b] (.halt p)
    | 4 => accept [ckZero d, ckZero a, ckZero b] (.uret p)
    | 5 => accept [ckZero d, ckZero a, ckZero b] (.sret p)
    | 6 => accept [ckZero d, ckZero b] (.rbsave (srcOf a) p)
    | 7 => accept [ckZero d, ckZero b] (.rbload (srcOf a) p)
    | 8 => accept [ckZero d, ckZero a, ckZero b] (.rbdrop p)
    | _ => .error .illegalFunction
  | 0x1D =>
    match fn with
    | 0 => accept [ckZero d, ckZero b] (.tlbinv (srcOf a) p)
    | 1 => accept [ckZero d, ckZero b] (.tlbinvctx (srcOf a) p)
    | 2 => accept [ckZero d, ckZero a, ckZero b] (.tlbinvall p)
    | 3 => accept [ckZero d, ckZero a, ckZero b] (.tlbsync p)
    | _ => .error .illegalFunction
  | 0x3C | 0x3D | 0x3E | 0x3F =>
    acceptD [ck (fld w 25 3 == 0#3) .headerBits] (.hdr (bit w 24) (fld w 16 8) (fld w 8 8) (fld w 0 8))
  | _ => decodeCommon isM false 0 w

/-- The majors of slot 1 (R108): the configuration forms, and those common to both scalar slots. -/
def decodeSlot1 (isM hdr : Bool) (ext : Byte) (w : U32) : Except Reject Decoded :=
  let a := srcOf (fld w 12 6)
  let i := imm9Of hdr ext (fld w 3 9)
  let p := fld w 0 3
  let t := fld w 18 4
  match (fld w 26 6).toNat with
  | 0x20 =>
    match (fld w 22 4).toNat with
    | 0 => accept [ck isM .illegalCore] (.cbldBf16 t a i p)
    | 1 => accept [ck isM .illegalCore] (.cbldE4m3 t a i p)
    | _ => .error .illegalFunction
  | 0x21 =>
    match (fld w 22 4).toNat with
    | 0 => accept [ck isM .illegalCore, ckZero t] (.scld a i p)
    | _ => .error .illegalFunction
  | 0x22 =>
    match (fld w 22 4).toNat with
    | 0 => accept [ckZero t] (.mmset a i p)
    | 1 => accept [ckZero t] (.mmcov a i p)
    | 2 => accept [ckZero t] (.mmclamp a i p)
    | _ => .error .illegalFunction
  | _ => decodeCommon isM hdr ext w

/-! Slot 2 (R101, R109). -/

/-- The two-source floating forms: major and FN. R155 gives RM 0..4 to "FP arithmetic"; the model takes all of R158's forms of
majors 0x01 and 0x02 to be that, minimum, maximum, absolute value and negation too, which round nothing (log 75). -/
def vrFp2 (op fn : Nat) : Option (Dst → VSrc → VSrc → U3 → U3 → U3 → Instr) :=
  match op, fn with
  | 0x01, 0 => some .vadd
  | 0x01, 1 => some .vsub
  | 0x01, 2 => some .vmin
  | 0x01, 3 => some .vmax
  | 0x02, 0 => some .vmul
  | 0x02, 1 => some .vdiv
  | _, _ => none

/-- The one-source floating forms that take RM (R155): absolute value and negation as above, and the
elementary functions. -/
def vrFp1 (op fn : Nat) : Option (Dst → VSrc → U3 → U3 → U3 → Instr) :=
  match op, fn with
  | 0x02, 2 => some .vabs
  | 0x02, 3 => some .vneg
  | 0x14, 0 => some .vexp2
  | 0x14, 1 => some .vlog2
  | 0x14, 2 => some .vrsqrt
  | 0x14, 3 => some .vtanh
  | 0x15, 0 => some .vsinpi
  | 0x15, 1 => some .vcospi
  | 0x15, 2 => some .verf
  | 0x15, 3 => some .vsigm
  | _, _ => none

/-- The two-source integer forms that take neither SAT nor RM. -/
def vrInt2 (op fn : Nat) : Option (Dst → VSrc → VSrc → U3 → U3 → Instr) :=
  match op, fn with
  | 0x08, 0 => some .viadd
  | 0x08, 1 => some .visub
  | 0x08, 2 => some .viadds
  | 0x08, 3 => some .visubs
  | 0x0b, 0 => some .vsll
  | 0x0b, 1 => some .vsrl
  | 0x0b, 2 => some .vsra
  | 0x0b, 3 => some .vrol
  | 0x09, 1 => some .vimulh
  | 0x09, 2 => some .vimin
  | 0x09, 3 => some .vimax
  | _, _ => none

/-- Logical operations. -/
def vrLogic (fn : Nat) : Option (Dst → VSrc → VSrc → U3 → Instr) :=
  match fn with
  | 0 => some .vand
  | 1 => some .vor
  | 2 => some .vxor
  | 3 => some .vandn
  | _ => none

/-- Floating compares. -/
def vrFcmp (fn : Nat) : Option (U3 → VSrc → VSrc → U3 → Instr) :=
  match fn with
  | 0 => some .vfcmpEq
  | 1 => some .vfcmpLt
  | 2 => some .vfcmpLe
  | 3 => some .vfcmpUn
  | _ => none

/-- Integer compares. -/
def vrIcmp (fn : Nat) : Option (U3 → VSrc → VSrc → U3 → U3 → Instr) :=
  match fn with
  | 0 => some .vicmpEq
  | 1 => some .vicmpLt
  | 2 => some .vicmpLe
  | 3 => some .vicmpLtu
  | _ => none

/-- Permutes. -/
def vrPerm (fn : Nat) : Option (Dst → VSrc → VSrc → U3 → U3 → Instr) :=
  match fn with
  | 0 => some .vperm
  | 1 => some .vziplo
  | 2 => some .vziphi
  | 3 => some .vunzip
  | _ => none

/-- Rotate and shift by scalar. -/
def vsRot (fn : Nat) : Option (Dst → VSrc → Src → U3 → U3 → Instr) :=
  match fn with
  | 0 => some .vrot
  | 1 => some .vshdn
  | 2 => some .vshup
  | _ => none

/-- Lane-mask logic. -/
def vrMask (fn : Nat) : Option (U3 → U3 → U3 → Instr) :=
  match fn with
  | 0 => some .kand
  | 1 => some .kor
  | 2 => some .kxor
  | 3 => some .kandn
  | _ => none

/-- Moment non-linear forms. -/
def vrMnl (fn : Nat) : Option (U4 → U4 → U3 → Instr) :=
  match fn with
  | 0 => some .mrelu
  | 1 => some .mexp
  | 2 => some .msigm
  | 3 => some .mgelu
  | _ => none

/-- Fused forms by major. -/
def vfFma (fn : Nat) : Option (Dst → VSrc → VSrc → VSrc → U2 → U3 → U3 → Instr) :=
  match fn with
  | 4 => some .vfma
  | 5 => some .vfms
  | 6 => some .vfnma
  | 7 => some .vfnms
  | _ => none

/-- The VR forms whose extension byte holds only RM: bits [7:4] and SAT are 0 (R103, R155). -/
def ckXRm (ext : Byte) : Option Reject := ck (ext.extractLsb' 3 5 == 0#5) .reservedRounding
/-- The VR forms whose extension byte holds only SAT. -/
def ckXSat (ext : Byte) : Option Reject :=
  ck (ext.extractLsb' 0 3 == 0#3 && ext.extractLsb' 4 4 == 0#4) .reservedRounding
/-- The forms that take neither RM nor SAT. -/
def ckXNone (ext : Byte) : Option Reject := ck (ext == 0) .reservedRounding
/-- The VF forms that take only the lane mask. -/
def ckXK (ext : Byte) : Option Reject := ck (ext.extractLsb' 3 5 == 0#5) .reservedRounding

/-- A conversion (R166): the pair of types, then the reserved codes and the part. -/
def ckCvtFf (src : U4) (t : U3) : Option Reject :=
  if 9 < src.toNat then ck (t.toNat ≤ 4) .illegalType
  else ck (src.toNat ≤ 4 && t.toNat ≤ 4 && src.toNat != t.toNat) .illegalType
def ckCvtFi (src : U4) (t : U3) : Option Reject :=
  if 9 < src.toNat then none
  else ck (if src.toNat ≤ 4 then okInt t else t.toNat ≤ 4) .illegalType

/-- Major 0x20 and 0x26 and the other moment forms of VR format (R177). -/
def decodeMoment (op fn : Nat) (ext : Byte) (d a b : U6) (t k : U3) : Except Reject Decoded :=
  let cs := [ckT0 t, ckXNone ext]
  match op, fn with
  | 0x20, 0 => accept (ckMd d :: ckV a :: ckV b :: cs) (.mmake (momOf d) (vsrcOf a) (vsrcOf b) k)
  | 0x20, 1 => accept (ckDst d :: ckM a :: ckZero b :: cs) (.mgetm (dstOf d) (momOf a) k)
  | 0x20, 2 => accept (ckDst d :: ckM a :: ckZero b :: cs) (.mgetv (dstOf d) (momOf a) k)
  | 0x20, 3 => accept (ckMd d :: ckM a :: ckZero b :: cs) (.mmov (momOf d) (momOf a) k)
  | 0x23, 0 => accept (ckMd d :: ckM a :: ckM b :: cs) (.mmul (momOf d) (momOf a) (momOf b) k)
  | 0x24, 0 => accept (ckMd d :: ckM a :: cs) (.mscale (momOf d) (momOf a) (srcOf b) k)
  | 0x25, fn =>
    match vrMnl fn with
    | some f => accept (ckMd d :: ckM a :: ckZero b :: cs) (f (momOf d) (momOf a) k)
    | none => .error .illegalFunction
  | 0x26, 0 => accept (ckDst d :: ckM a :: ckZero b :: cs) (.mcmean (dstOf d) (momOf a) k)
  | 0x26, 1 => accept (ckDst d :: ckM a :: cs) (.mchi (dstOf d) (momOf a) (srcOf b) k)
  | 0x26, 2 => accept (ckDst d :: ckM a :: cs) (.mclo (dstOf d) (momOf a) (srcOf b) k)
  | 0x26, 3 => accept (ckDst d :: ckM a :: ckZero b :: cs) (.mcdraw (dstOf d) (momOf a) k)
  | _, _ => .error .illegalFunction

/-- The map of slot 2 (R109). DESIGN CHOICE (log 75): the floating minimum, maximum, absolute value and negation take an RM of
0..4 as FP arithmetic does (R155). -/
def decodeSlot2 (ext : Byte) (w : U32) : Except Reject Decoded :=
  let op := (fld w 26 6).toNat
  let d := fld w 20 6
  let a := fld w 14 6
  let b := fld w 8 6
  let c := fld w 2 6
  let t := fld w 5 3
  let k := fld w 2 3
  let fn := (fld w 0 2).toNat
  let t2 := fld w 0 2
  let rm := ext.extractLsb' 0 3
  let sat := ebit ext 3
  let fk := ext.extractLsb' 0 3
  let frm := ext.extractLsb' 3 3
  let fsat := ebit ext 6
  match op with
  | 0x00 => accept [ck (w == 0) .noOperation, ckExt ext] .nop
  | 0x04 | 0x05 | 0x06 | 0x07 =>
    match vfFma op with
    | some f =>
      accept [ckDst d, ckV a, ckV b, ckV c, ck (t2 != 3) .illegalType, ckRm frm,
        ck (ext.extractLsb' 6 2 == 0#2) .reservedRounding] (f (dstOf d) (vsrcOf a) (vsrcOf b) (vsrcOf c) t2 fk frm)
    | none => .error .illegalMajor
  | 0x0A =>
    match vrLogic fn with
    | some f => accept [ckDst d, ckV a, ckV b, ckT0 t, ckXNone ext] (f (dstOf d) (vsrcOf a) (vsrcOf b) k)
    | none => .error .illegalFunction
  | 0x0C =>
    match vrFcmp fn with
    | some f =>
      accept [ckP3 d, ckV a, ckV b, ck (t == 0) .illegalType, ckXNone ext] (f (p3Of d) (vsrcOf a) (vsrcOf b) k)
    | none => .error .illegalFunction
  | 0x0D =>
    match vrIcmp fn with
    | some f =>
      accept [ckP3 d, ckV a, ckV b, ck (t == 1 || t == 5) .illegalType, ckXNone ext]
        (f (p3Of d) (vsrcOf a) (vsrcOf b) t k)
    | none => .error .illegalFunction
  | 0x0E =>
    let src := b.extractLsb' 0 4
    accept [ckDst d, ckV a, ckCvtFf src t, ckZero (b.extractLsb' 4 2), ck (src.toNat ≤ 9) .reservedType,
      ck (okCvtFf src t t2 rm sat) .reservedRounding, ck (ext.extractLsb' 4 4 == 0#4) .reservedRounding]
      (.vcvtFf (dstOf d) (vsrcOf a) src t k t2 rm sat)
  | 0x0F =>
    let src := b.extractLsb' 0 4
    accept [ckDst d, ckV a, ckCvtFi src t, ckZero (b.extractLsb' 4 2), ck (src.toNat ≤ 9) .reservedType,
      ck (okCvtFi src t t2 rm sat) .reservedRounding, ck (ext.extractLsb' 4 4 == 0#4) .reservedRounding]
      (.vcvtFi (dstOf d) (vsrcOf a) src t k t2 rm sat)
  | 0x10 =>
    match vrPerm fn with
    | some f => accept [ckDst d, ckV a, ckV b, ckXNone ext] (f (dstOf d) (vsrcOf a) (vsrcOf b) t k)
    | none => .error .illegalFunction
  | 0x11 =>
    match vsRot fn with
    | some f => accept [ckDst d, ckV a, ckXNone ext] (f (dstOf d) (vsrcOf a) (srcOf b) t k)
    | none => accept [ckDst d, ckV a, ckZero b, ckXNone ext] (.vrev (dstOf d) (vsrcOf a) t k)
  | 0x12 =>
    match fn with
    | 0 =>
      accept [ckDst d, ckV a, ckZero b, ckFp t, ck (rm.toNat < 4) .reservedRounding, ckXRm ext]
        (.vfredsum (dstOf d) (vsrcOf a) t k rm)
    | 1 =>
      accept [ckDst d, ckV a, ckZero b, ckFp t, ck (rm.toNat < 4) .reservedRounding, ckXRm ext]
        (.vfredmax (dstOf d) (vsrcOf a) t k rm)
    | 2 => accept [ckDst d, ckV a, ckZero b, ckInt t, ckXSat ext] (.viredsum (dstOf d) (vsrcOf a) t k sat)
    | _ => accept [ckDst d, ckV a, ckZero b, ckInt t, ckXNone ext] (.viredmax (dstOf d) (vsrcOf a) t k)
  | 0x03 =>
    match fn with
    | 0 => accept [ckDst d, ckV a, ckZero b, ckFp t, ckRm rm, ckXRm ext] (.vsqrt (dstOf d) (vsrcOf a) t k rm)
    | 1 => accept [ckDst d, ckV a, ckZero b, ckFp t, ckRm rm, ckXRm ext] (.vrcp (dstOf d) (vsrcOf a) t k rm)
    | 2 => accept [ckDst d, ckV a, ckZero b, ckFp t, ckXNone ext] (.vfrac (dstOf d) (vsrcOf a) t k 0)
    | _ => accept [ckDst d, ckV a, ckZero b, ckFp t, ckXNone ext] (.vclass (dstOf d) (vsrcOf a) t k 0)
  | 0x13 =>
    match fn with
    | 0 => accept [ckDst d, ckZero a, ckXNone ext] (.vbcast (dstOf d) (srcOf b) t k)
    | 1 => accept [ckDst d, ckV a, ckXNone ext] (.vins (dstOf d) (vsrcOf a) (srcOf b) t k)
    | 2 => accept [ckDst d, ckV a, ckZero k, ckXNone ext] (.vext (dstOf d) (vsrcOf a) (srcOf b) t)
    | _ => accept [ckDst d, ckV a, ckXNone ext] (.vbcastl (dstOf d) (vsrcOf a) (srcOf b) t k)
  | 0x16 =>
    match vrMask fn with
    | some f =>
      accept [ckP3 d, ckP3 a, ckP3 b, ckT0 t, ckZero k, ckXNone ext] (f (p3Of d) (p3Of a) (p3Of b))
    | none => .error .illegalFunction
  | 0x17 =>
    accept [ckDst d, ckV a, ckV b, ckZero c, ckT0 t2, ckXK ext] (.vsel (dstOf d) (vsrcOf a) (vsrcOf b) fk)
  | 0x18 =>
    accept [ckDst d, ckV a, ckV b, ckV c, ck (t2 == 3) .illegalType,
      ck (frm == 0#3 && !ebit ext 7) .reservedRounding] (.vimad (dstOf d) (vsrcOf a) (vsrcOf b) (vsrcOf c) fk fsat)
  | 0x20 | 0x23 | 0x24 | 0x25 | 0x26 => decodeMoment op fn ext d a b t k
  | 0x21 =>
    accept [ckMd d, ckM a, ckM b, ckV c, ckT0 t2, ckXK ext] (.madd (momOf d) (momOf a) (momOf b) (vsrcOf c) fk)
  | 0x22 =>
    accept [ckMd d, ckM a, ckM b, ckV c, ckT0 t2, ckXK ext] (.msub (momOf d) (momOf a) (momOf b) (vsrcOf c) fk)
  | _ =>
    match vrFp2 op fn with
    | some f => accept [ckDst d, ckV a, ckV b, ckFp t, ckRm rm, ckXRm ext] (f (dstOf d) (vsrcOf a) (vsrcOf b) t k rm)
    | none =>
      match vrFp1 op fn with
      | some f => accept [ckDst d, ckV a, ckZero b, ckFp t, ckRm rm, ckXRm ext] (f (dstOf d) (vsrcOf a) t k rm)
      | none =>
        match vrInt2 op fn with
        | some f => accept [ckDst d, ckV a, ckV b, ckInt t, ckXNone ext] (f (dstOf d) (vsrcOf a) (vsrcOf b) t k)
        | none =>
          if op == 0x09 then
            accept [ckDst d, ckV a, ckV b, ckInt t, ckXSat ext] (.vimul (dstOf d) (vsrcOf a) (vsrcOf b) t k sat)
          else .error .illegalMajor

/-! Slot 3 (R102, R110). -/

/-- The destination of an engine load by SZ and W (R102, R105). -/
def ldDstOf (d : U6) (sz t : U3) (u w : Bool) : LdDst :=
  if sz != 7 then .narrow sz (dstOf d) else if w then .mom (momOf d) else .vec (dstOf d) t u

/-- R211: the checks of D, W, T and U of an engine load; `conv` for the majors that take T and U. -/
def ckLd (conv : Bool) (d : U6) (sz t : U3) (u w : Bool) : Option Reject :=
  if sz != 7 then (ckDst d).or (ck (!w && t == 0 && !u) .reservedField)
  else if w then (ckMd d).or (ck (t == 0 && !u) .reservedField)
  else (ckDst d).or (ck (if conv then !u || t == 7 else t == 0 && !u) .reservedField)

/-- The source of an engine store by SZ (R102). -/
def stSrcOf (s : U6) (sz t : U3) (u : Bool) : StSrc :=
  if sz != 7 then .narrow sz (srcOf s) else if 48 ≤ s.toNat then .mom (momOf s) else .vec (vsrcOf s) t u

/-- R214: the checks of S, SZ, T and U of an engine store. -/
def ckSt (conv : Bool) (s : U6) (sz t : U3) (u : Bool) : Option Reject :=
  if sz != 7 then (ck (okStSz sz) .reservedValue).or (ck (t == 0 && !u) .reservedField)
  else if 48 ≤ s.toNat then ck (t == 0 && !u) .reservedField
  else (ck (s.toNat < 35) .reservedSource).or (ck (if conv then !u || t == 7 else t == 0 && !u) .reservedField)

def ldFields : LdDst → U6 × U3 × U3 × Bool × Bool
  | .narrow sz d => (dstBits d, sz, 0, false, false)
  | .vec d t u => (dstBits d, 7, t, u, false)
  | .mom r => (mdBits r, 7, 0, false, true)

def stFields : StSrc → U6 × U3 × U3 × Bool
  | .narrow sz x => (srcBits x, sz, 0, false)
  | .vec x t u => (vsrcBits x, 7, t, u)
  | .mom r => (momBits r, 7, 0, false)

/-- The matrix majors (R191, R196, R199, R203); `x` is MMOD. -/
def decodeMatrix (op fn : Nat) (x : Byte) (w : U32) : Except Reject Decoded :=
  let m := fld w 20 2
  let sw := bit w 19
  let acc := fld w 8 11
  let p := fld w 5 3
  let g := fld w 0 5
  let hi := ckZero (x.extractLsb' 4 4)
  let mv := ck (m == 0 && !sw) .reservedField
  match op, fn with
  | 0x01, 0 => accept [hi] (.mma m sw acc g (ebit x 0) (ebit x 1) (ebit x 2) (ebit x 3) p)
  | 0x02, 0 => accept [hi] (.mmasa m sw acc g (ebit x 0) (ebit x 1) (ebit x 2) (ebit x 3) p)
  | 0x02, 1 => accept [hi] (.mmasb m sw acc g (ebit x 0) (ebit x 1) (ebit x 2) (ebit x 3) p)
  | 0x03, 0 => accept [hi, ckZero (x.extractLsb' 0 3)] (.mmam m sw acc g (ebit x 3) p)
  | 0x04, 0 => accept [mv, ckZero g] (.azero acc x p)
  | 0x04, 1 => accept [mv, ckZero (x.extractLsb' 5 3)] (.aget acc g (x.extractLsb' 0 4) (ebit x 4) p)
  | 0x04, 2 => accept [mv, ckZero (x.extractLsb' 5 3)] (.agetNw acc g (x.extractLsb' 0 4) (ebit x 4) p)
  | 0x04, 3 =>
    accept [mv, hi, ckZero (g.extractLsb' 4 1)] (.amget acc (g.extractLsb' 0 4) (x.extractLsb' 0 4) p)
  | 0x04, 4 =>
    accept [mv, hi, ckZero (g.extractLsb' 4 1)] (.amgetNw acc (g.extractLsb' 0 4) (x.extractLsb' 0 4) p)
  | 0x04, 5 => accept [mv, ckZero (x.extractLsb' 5 3)] (.aput acc g (x.extractLsb' 0 4) (ebit x 4) p)
  | 0x05, 0 =>
    accept [ckRm (x.extractLsb' 0 3), ckZero (x.extractLsb' 5 3)]
      (.drain m sw acc g (x.extractLsb' 0 3) (ebit x 3) (ebit x 4) p)
  | 0x05, 1 =>
    accept [ckZero (x.extractLsb' 0 4), ckZero (x.extractLsb' 6 2)] (.drainq m sw acc g (ebit x 4) (ebit x 5) p)
  | 0x06, 0 => accept [hi, ckZero (x.extractLsb' 1 1)] (.arsum m sw acc g (ebit x 0) (ebit x 2) (ebit x 3) p)
  | 0x06, 1 => accept [hi, ckZero (x.extractLsb' 0 1)] (.acsum m sw acc g (ebit x 1) (ebit x 2) (ebit x 3) p)
  | _, _ => .error .illegalFunction

/-- The pod writes of major 0x14 by KIND (R221). -/
def decodePod (mod : Byte) (t : U3) (mod2 : U4) (x7 : Bool) (s a : U6) (sz p : U3) : Except Reject Decoded :=
  let tier := mod.extractLsb' 0 2
  let tag := ebit mod 2
  let fg := mod.extractLsb' 3 5
  let cs := [ckTier tier, ckZero t, ckZero (mod2.extractLsb' 2 2), ck (!x7) .reservedField]
  match (mod2.extractLsb' 0 2).toNat with
  | 0 => accept (ckSt false s sz t false :: ckZero fg :: cs) (.putSpp (stSrcOf s sz 0 false) (srcOf a) tier tag p)
  | 1 => accept (ckSt false s sz t false :: cs) (.putfSpp (stSrcOf s sz 0 false) (srcOf a) fg tier tag p)
  | 2 =>
    accept (ckZero fg :: ck (sz == 1) .reservedValue :: ck (!tag) .reservedField :: cs)
      (.raddSpp (srcOf s) (srcOf a) tier p)
  | _ =>
    accept (ckZero fg :: ck (sz == 0) .reservedValue :: ck (0 < s.toNat && s.toNat < 31) .reservedValue :: cs)
      (.rcopySpp (s.extractLsb' 0 5) (srcOf a) tier tag p)

/-- The general engine majors (R102, EG); `x` is AUX. -/
def decodeGeneral (op fn : Nat) (x : Byte) (w : U32) : Except Reject Decoded :=
  let xs := fld w 20 2
  let sw := bit w 19
  let a := fld w 13 6
  let b := fld w 7 6
  let c := fld w 3 4
  let p := fld w 0 3
  let nox := ck (xs == 0 && !sw) .reservedField
  let cs := [nox, ckZero c, ckExt x]
  match op, fn with
  | 0x07, 0 => accept (ckZero a :: ckZero b :: ckZero p :: cs) .mwait
  | 0x1B, 0 => accept cs (.parm (srcOf a) (srcOf b) p)
  | 0x1B, 1 => accept (ckZero b :: cs) (.prel (srcOf a) p)
  | 0x1B, 2 => accept (ckZero b :: cs) (.pfill (srcOf a) p)
  | 0x1B, 3 => accept (ckDst b :: cs) (.pget (dstOf b) (srcOf a) p)
  | 0x1C, 0 => accept cs (.fwait (srcOf a) (srcOf b) p)
  | 0x1C, 1 => accept cs (.fwaitne (srcOf a) (srcOf b) p)
  | 0x1D, 0 => accept cs (.binit (srcOf a) (srcOf b) p)
  | 0x1D, 1 => accept (ckZero b :: cs) (.barrive (srcOf a) p)
  | 0x1D, 2 => accept (ckZero b :: cs) (.bwait (srcOf a) p)
  | 0x1D, 3 => accept (ckZero b :: cs) (.binval (srcOf a) p)
  | 0x1E, 0 =>
    accept [nox, ck (x.extractLsb' 0 3 != 7#3) .reservedValue, ckTier (x.extractLsb' 3 2), ckZero (x.extractLsb' 5 3)]
      (.qput (srcOf a) (srcOf b) c (x.extractLsb' 0 3) (x.extractLsb' 3 2) p)
  | 0x1E, 1 => accept [nox, ckZero a, ckDst b, ckZero (x.extractLsb' 1 7)] (.qpop (dstOf b) c (ebit x 0) p)
  | 0x1E, 2 => accept [nox, ckZero a, ckZero b, ckExt x] (.qdone c p)
  | 0x1F, 0 =>
    accept [nox, ckZero a, ckZero b, ck (c.toNat < 5) .reservedValue, ck (c == 3 || x == 0) .extensionByte]
      (.fence c x p)
  | 0x20, 0 =>
    accept [ck (0 < a.toNat && a.toNat < 31) .reservedValue, ckDst b, ckTier (x.extractLsb' 0 2),
      ckZero (x.extractLsb' 4 4)]
      (.copy xs sw (a.extractLsb' 0 5) (dstOf b) c (x.extractLsb' 0 2) (ebit x 2) (ebit x 3) p)
  | 0x21, 0 => accept [nox, ckDst b, ckExt x] (.cchain (dstOf b) (srcOf a) c p)
  | 0x21, 1 => accept [nox, ckZero a, ckExt x] (.cwait c (srcOf b) p)
  | 0x22, 0 => acceptD (ckZero b :: ckZero p :: cs) (.coll (srcOf a))
  | 0x23, 0 => acceptD (ckZero b :: ckZero p :: cs) (.rsend (srcOf a))
  | 0x24, 0 => accept [nox, ckExt x] (.macroRun (srcOf a) (b ++ c) p)
  | 0x24, 1 => accept cs (.mcld (srcOf a) (srcOf b) p)
  | 0x25, 0 => accept (ckZero a :: ckZero b :: cs) (.ntile p)
  | 0x26, 0 => accept [nox, ckZero c, ckZero (x.extractLsb' 1 7)] (.rngseed (srcOf a) (srcOf b) (ebit x 0) p)
  | 0x26, 1 => acceptD (ckZero a :: ckDst b :: cs) (.rngpop (dstOf b) p)
  | _, _ => .error .illegalFunction

/-- The memory majors of EL and ES format (R102, R211, R214, R221, R223, R237). -/
def decodeMemory (op : Nat) (ext : Byte) (w : U32) : Except Reject Decoded :=
  let d := fld w 20 6
  let a := srcOf (fld w 14 6)
  let n := fld w 6 8
  let sz := fld w 3 3
  let p := fld w 0 3
  let x7 := ebit ext 7
  let t := ext.extractLsb' 4 3
  let u := ebit ext 3
  let mod2 := ext.extractLsb' 0 4
  let lo := ckZero (ext.extractLsb' 0 3)
  match op with
  | 0x10 =>
    accept [ckLd false d sz t u x7, lo, ckZero (n.extractLsb' 2 6)]
      (.ldSpl (ldDstOf d sz t u x7) a (ebit n 0) (ebit n 1) p)
  | 0x11 => accept [ckSt false d sz t u, ck (!x7) .reservedField, lo, ckZero n] (.stSpl (stSrcOf d sz t u) a p)
  | 0x12 => accept [ckLd false d sz t u x7, lo, ck (n != 0) .zeroOffset] (.ldSpk (ldDstOf d sz t u x7) a n p)
  | 0x13 =>
    accept [ckSt false d sz t u, ck (!x7) .reservedField, lo, ckZero (n.extractLsb' 1 7)]
      (.stSpk (stSrcOf d sz t u) a (ebit n 0) p)
  | 0x14 => decodePod n t mod2 x7 d (fld w 14 6) sz p
  | 0x15 => accept [ckLd true d sz t u x7, lo, ck (n != 0) .zeroOffset] (.ldHbm (ldDstOf d sz t u x7) a n p)
  | 0x16 => accept [ckSt true d sz t u, ck (!x7) .reservedField, lo, ckZero n] (.stHbm (stSrcOf d sz t u) a p)
  | 0x17 =>
    accept [ck (!x7) .reservedField, ck (sz.toNat < 2) .reservedValue,
      ck (okAmo (srcOf d) n (sz == 1) t mod2) .reservedValue] (.amo (srcOf d) a n (sz == 1) t mod2 p)
  | 0x18 =>
    accept [ckSt false d sz t false, ck (!x7) .reservedField, ckZero mod2, ckTier (n.extractLsb' 0 2),
      ckZero (n.extractLsb' 2 6)] (.putPhm (stSrcOf d sz 0 false) a (n.extractLsb' 0 2) p)
  | 0x19 => accept [ckLd true d sz t u x7, lo, ck (n != 0) .zeroOffset] (.ldHst (ldDstOf d sz t u x7) a n p)
  | 0x1A => accept [ckSt true d sz t u, ck (!x7) .reservedField, lo, ckZero n] (.stHst (stSrcOf d sz t u) a p)
  | _ => .error .illegalMajor

/-- The map of slot 3 (R110): majors 0x01..0x07 are illegal on an S-core. -/
def decodeSlot3 (isM : Bool) (ext : Byte) (w : U32) : Except Reject Decoded :=
  let op := (fld w 26 6).toNat
  let fn := (fld w 22 4).toNat
  if op == 0 then accept [ck (w == 0) .noOperation, ckExt ext] .nop
  else if op < 7 then if isM then decodeMatrix op fn ext w else .error .illegalCore
  else if op == 7 then if isM then decodeGeneral op fn ext w else .error .illegalCore
  else if op < 0x10 then .error .illegalMajor
  else if op < 0x1B then decodeMemory op ext w
  else if op < 0x27 then decodeGeneral op fn ext w
  else .error .illegalMajor

/-- A slot word decoded where it stands (R106 steps 1 and 2). -/
def decode (isM : Bool) (e : Enc) : Except Reject Decoded :=
  match e.slot.toNat with
  | 0 => decodeSlot0 isM e.word
  | 1 => decodeSlot1 isM e.hdr (if e.hdr then e.ext else 0) e.word
  | 2 => decodeSlot2 (if e.hdr then e.ext else 0) e.word
  | _ => decodeSlot3 isM (if e.hdr then e.ext else 0) e.word

/-! The encoder. -/

def encSI (imm : Imm) (op d a : U6) (p : U3) : Enc :=
  match imm with
  | .narrow i => ⟨0, false, 0, mkSI op d a i p⟩
  | .wide x i => ⟨1, true, x, mkSI op d a i p⟩

def encSM (disp : Disp) (op d a : U6) (sz p : U3) : Enc :=
  match disp with
  | .narrow i => ⟨0, false, 0, mkSM op d a i sz p⟩
  | .wide x i => ⟨1, true, x, mkSM op d a i sz p⟩

def encSH (imm : Imm9) (r : U3) (f : U5) (a : U6) (p : U3) : Enc :=
  match imm with
  | .narrow i => ⟨0, false, 0, mkSH 0x14 r f a i p⟩
  | .wide x i => ⟨1, true, x, mkSH 0x14 r f a i p⟩

def encCF (imm : Imm9) (op : U6) (fn t : U4) (a : U6) (p : U3) : Enc :=
  match imm with
  | .narrow i => ⟨1, false, 0, mkCF op fn t a i p⟩
  | .wide x i => ⟨1, true, x, mkCF op fn t a i p⟩

def encLd (op : U6) (d : LdDst) (a : Src) (n : Byte) (p : U3) : Enc :=
  let f := ldFields d
  ⟨3, true, xEL f.2.2.2.2 f.2.2.1 (BitVec.ofBool f.2.2.2.1 ++ 0#3), mkEL op f.1 (srcBits a) n f.2.1 p⟩

def encSt (op : U6) (s : StSrc) (a : Src) (mod : Byte) (m2 : U3) (p : U3) : Enc :=
  let f := stFields s
  ⟨3, true, xEL false f.2.2.1 (BitVec.ofBool f.2.2.2 ++ m2), mkEL op f.1 (srcBits a) mod f.2.1 p⟩

/-- The word of an instruction, where it stands, from the encoding tables; none for a step without an encoding. -/
def encode : Instr → Option Enc
  | .nop => some ⟨0, false, 0, 0⟩
  | .hdr g e3 e2 e1 => some ⟨0, true, 0, mkH g e3 e2 e1⟩
  | .add d a b p => some ⟨0, false, 0, mkSR 0x01 (dstBits d) (srcBits a) (srcBits b) 0 p⟩
  | .sub d a b p => some ⟨0, false, 0, mkSR 0x01 (dstBits d) (srcBits a) (srcBits b) 1 p⟩
  | .and d a b p => some ⟨0, false, 0, mkSR 0x01 (dstBits d) (srcBits a) (srcBits b) 2 p⟩
  | .or d a b p => some ⟨0, false, 0, mkSR 0x01 (dstBits d) (srcBits a) (srcBits b) 3 p⟩
  | .xor d a b p => some ⟨0, false, 0, mkSR 0x01 (dstBits d) (srcBits a) (srcBits b) 4 p⟩
  | .andn d a b p => some ⟨0, false, 0, mkSR 0x01 (dstBits d) (srcBits a) (srcBits b) 5 p⟩
  | .sll d a b p => some ⟨0, false, 0, mkSR 0x01 (dstBits d) (srcBits a) (srcBits b) 6 p⟩
  | .srl d a b p => some ⟨0, false, 0, mkSR 0x01 (dstBits d) (srcBits a) (srcBits b) 7 p⟩
  | .sra d a b p => some ⟨0, false, 0, mkSR 0x01 (dstBits d) (srcBits a) (srcBits b) 8 p⟩
  | .ror d a b p => some ⟨0, false, 0, mkSR 0x01 (dstBits d) (srcBits a) (srcBits b) 9 p⟩
  | .min d a b p => some ⟨0, false, 0, mkSR 0x01 (dstBits d) (srcBits a) (srcBits b) 10 p⟩
  | .max d a b p => some ⟨0, false, 0, mkSR 0x01 (dstBits d) (srcBits a) (srcBits b) 11 p⟩
  | .minu d a b p => some ⟨0, false, 0, mkSR 0x01 (dstBits d) (srcBits a) (srcBits b) 12 p⟩
  | .maxu d a b p => some ⟨0, false, 0, mkSR 0x01 (dstBits d) (srcBits a) (srcBits b) 13 p⟩
  | .slt d a b p => some ⟨0, false, 0, mkSR 0x01 (dstBits d) (srcBits a) (srcBits b) 14 p⟩
  | .sltu d a b p => some ⟨0, false, 0, mkSR 0x01 (dstBits d) (srcBits a) (srcBits b) 15 p⟩
  | .addw d a b p => some ⟨0, false, 0, mkSR 0x01 (dstBits d) (srcBits a) (srcBits b) 16 p⟩
  | .subw d a b p => some ⟨0, false, 0, mkSR 0x01 (dstBits d) (srcBits a) (srcBits b) 17 p⟩
  | .sllw d a b p => some ⟨0, false, 0, mkSR 0x01 (dstBits d) (srcBits a) (srcBits b) 18 p⟩
  | .srlw d a b p => some ⟨0, false, 0, mkSR 0x01 (dstBits d) (srcBits a) (srcBits b) 19 p⟩
  | .sraw d a b p => some ⟨0, false, 0, mkSR 0x01 (dstBits d) (srcBits a) (srcBits b) 20 p⟩
  | .mul d a b p => some ⟨0, false, 0, mkSR 0x02 (dstBits d) (srcBits a) (srcBits b) 0 p⟩
  | .mulh d a b p => some ⟨0, false, 0, mkSR 0x02 (dstBits d) (srcBits a) (srcBits b) 1 p⟩
  | .mulhu d a b p => some ⟨0, false, 0, mkSR 0x02 (dstBits d) (srcBits a) (srcBits b) 2 p⟩
  | .mulhsu d a b p => some ⟨0, false, 0, mkSR 0x02 (dstBits d) (srcBits a) (srcBits b) 3 p⟩
  | .mulw d a b p => some ⟨0, false, 0, mkSR 0x02 (dstBits d) (srcBits a) (srcBits b) 4 p⟩
  | .addsat d a b p => some ⟨0, false, 0, mkSR 0x02 (dstBits d) (srcBits a) (srcBits b) 5 p⟩
  | .subsat d a b p => some ⟨0, false, 0, mkSR 0x02 (dstBits d) (srcBits a) (srcBits b) 6 p⟩
  | .addsatw d a b p => some ⟨0, false, 0, mkSR 0x02 (dstBits d) (srcBits a) (srcBits b) 7 p⟩
  | .subsatw d a b p => some ⟨0, false, 0, mkSR 0x02 (dstBits d) (srcBits a) (srcBits b) 8 p⟩
  | .addsatu d a b p => some ⟨0, false, 0, mkSR 0x02 (dstBits d) (srcBits a) (srcBits b) 9 p⟩
  | .subsatu d a b p => some ⟨0, false, 0, mkSR 0x02 (dstBits d) (srcBits a) (srcBits b) 10 p⟩
  | .mulsatw d a b p => some ⟨0, false, 0, mkSR 0x02 (dstBits d) (srcBits a) (srcBits b) 11 p⟩
  | .div d a b p => some ⟨0, false, 0, mkSR 0x02 (dstBits d) (srcBits a) (srcBits b) 12 p⟩
  | .divu d a b p => some ⟨0, false, 0, mkSR 0x02 (dstBits d) (srcBits a) (srcBits b) 13 p⟩
  | .rem d a b p => some ⟨0, false, 0, mkSR 0x02 (dstBits d) (srcBits a) (srcBits b) 14 p⟩
  | .remu d a b p => some ⟨0, false, 0, mkSR 0x02 (dstBits d) (srcBits a) (srcBits b) 15 p⟩
  | .addi d a imm p => some (encSI imm 0x03 (dstBits d) (srcBits a) p)
  | .andi d a imm p => some (encSI imm 0x04 (dstBits d) (srcBits a) p)
  | .ori d a imm p => some (encSI imm 0x05 (dstBits d) (srcBits a) p)
  | .xori d a imm p => some (encSI imm 0x06 (dstBits d) (srcBits a) p)
  | .slli d a sh p => some ⟨0, false, 0, mkSI 0x07 (dstBits d) (srcBits a) (0#2 ++ 0#3 ++ sh) p⟩
  | .srli d a sh p => some ⟨0, false, 0, mkSI 0x07 (dstBits d) (srcBits a) (1#2 ++ 0#3 ++ sh) p⟩
  | .srai d a sh p => some ⟨0, false, 0, mkSI 0x07 (dstBits d) (srcBits a) (2#2 ++ 0#3 ++ sh) p⟩
  | .rori d a sh p => some ⟨0, false, 0, mkSI 0x07 (dstBits d) (srcBits a) (3#2 ++ 0#3 ++ sh) p⟩
  | .slliw d a sh p => some ⟨0, false, 0, mkSI 0x07 (dstBits d) (srcBits a) (0#2 ++ 8#4 ++ sh) p⟩
  | .srliw d a sh p => some ⟨0, false, 0, mkSI 0x07 (dstBits d) (srcBits a) (1#2 ++ 8#4 ++ sh) p⟩
  | .sraiw d a sh p => some ⟨0, false, 0, mkSI 0x07 (dstBits d) (srcBits a) (2#2 ++ 8#4 ++ sh) p⟩
  | .roriw d a sh p => some ⟨0, false, 0, mkSI 0x07 (dstBits d) (srcBits a) (3#2 ++ 8#4 ++ sh) p⟩
  | .ldi d imm p => some (encSI imm 0x08 (dstBits d) 0 p)
  | .ldis d a imm p => some (encSI imm 0x09 (dstBits d) (srcBits a) p)
  | .cmp pd cond cmb a b p => some ⟨0, false, 0, mkSR 0x0A (p3Bits pd) (srcBits a) (srcBits b) (cmb ++ cond) p⟩
  | .cmpi pd cond a imm p => some (encSI imm 0x0B (cond ++ pd) (srcBits a) p)
  | .pand pd pa pb p => some ⟨0, false, 0, mkSR 0x0C (p3Bits pd) (p3Bits pa) (p3Bits pb) 0 p⟩
  | .por pd pa pb p => some ⟨0, false, 0, mkSR 0x0C (p3Bits pd) (p3Bits pa) (p3Bits pb) 1 p⟩
  | .pxor pd pa pb p => some ⟨0, false, 0, mkSR 0x0C (p3Bits pd) (p3Bits pa) (p3Bits pb) 2 p⟩
  | .pandn pd pa pb p => some ⟨0, false, 0, mkSR 0x0C (p3Bits pd) (p3Bits pa) (p3Bits pb) 3 p⟩
  | .kfromg kd a p => some ⟨0, false, 0, mkSR 0x0C (p3Bits kd) (srcBits a) 0 4 p⟩
  | .gfromk d ka p => some ⟨0, false, 0, mkSR 0x0C (dstBits d) (p3Bits ka) 0 5 p⟩
  | .pfromg pd a p => some ⟨0, false, 0, mkSR 0x0C (p3Bits pd) (srcBits a) 0 6 p⟩
  | .gfromp d pa p => some ⟨0, false, 0, mkSR 0x0C (dstBits d) (p3Bits pa) 0 7 p⟩
  | .sel d a b ps p => some ⟨0, false, 0, mkSR 0x0D (dstBits d) (srcBits a) (srcBits b) (0#2 ++ ps) p⟩
  | .seln d a b ps p => some ⟨0, false, 0, mkSR 0x0D (dstBits d) (srcBits a) (srcBits b) (1#2 ++ ps) p⟩
  | .bext d a b p => some ⟨0, false, 0, mkSR 0x0E (dstBits d) (srcBits a) (srcBits b) 0 p⟩
  | .bextu d a b p => some ⟨0, false, 0, mkSR 0x0E (dstBits d) (srcBits a) (srcBits b) 1 p⟩
  | .bins d a b p => some ⟨0, false, 0, mkSR 0x0E (0#1 ++ d) (srcBits a) (srcBits b) 2 p⟩
  | .clz d a p => some ⟨0, false, 0, mkSR 0x0E (dstBits d) (srcBits a) 0 3 p⟩
  | .ctz d a p => some ⟨0, false, 0, mkSR 0x0E (dstBits d) (srcBits a) 0 4 p⟩
  | .popc d a p => some ⟨0, false, 0, mkSR 0x0E (dstBits d) (srcBits a) 0 5 p⟩
  | .bswap d a p => some ⟨0, false, 0, mkSR 0x0E (dstBits d) (srcBits a) 0 6 p⟩
  | .brev d a p => some ⟨0, false, 0, mkSR 0x0E (dstBits d) (srcBits a) 0 7 p⟩
  | .adds d a b sh p => some ⟨0, false, 0, mkSR 0x0F (dstBits d) (srcBits a) (srcBits b) (0#1 ++ sh) p⟩
  | .setdev d a b p => some ⟨0, false, 0, mkSR 0x0F (dstBits d) (srcBits a) (srcBits b) 16 p⟩
  | .setcore d a b p => some ⟨0, false, 0, mkSR 0x0F (dstBits d) (srcBits a) (srcBits b) 17 p⟩
  | .ldSplSm d a disp sz p => some (encSM disp 0x10 (dstBits d) (srcBits a) sz p)
  | .stSplSm x a disp sz p => some (encSM disp 0x11 (srcBits x) (srcBits a) sz p)
  | .mfsr d spr x e p => some ⟨1, true, e, mkSS 0x12 d spr x p⟩
  | .mtsr v spr x e p => some ⟨1, true, e, mkSS 0x13 (srcBits v) spr x p⟩
  | .shwMs reg f a imm p => some (encSH imm (0#1 ++ reg) f (srcBits a) p)
  | .shwXs reg f a imm p => some (encSH imm (1#1 ++ reg) f (srcBits a) p)
  | .br p off => some ⟨0, false, 0, mkSB 0x18 0 p off⟩
  | .brn p off => some ⟨0, false, 0, mkSB 0x18 1 p off⟩
  | .call p off => some ⟨0, false, 0, mkSB 0x19 0 p off⟩
  | .jr a p => some ⟨0, false, 0, mkSR 0x1A 0 (srcBits a) 0 0 p⟩
  | .callr d a p => some ⟨0, false, 0, mkSR 0x1A (dstBits d) (srcBits a) 0 1 p⟩
  | .ret p => some ⟨0, false, 0, mkSR 0x1A 0 0 0 2 p⟩
  | .lclr n p => some ⟨0, false, 0, mkSR 0x1A 0 (7#3 ++ n) 0 3 p⟩
  | .loop lid a last => some ⟨0, false, 0, mkSL 0x1B lid (srcBits a) last⟩
  | .yield p => some ⟨0, false, 0, mkSR 0x1C 0 0 0 0 p⟩
  | .trap a p => some ⟨0, false, 0, mkSR 0x1C 0 (srcBits a) 0 1 p⟩
  | .brk p => some ⟨0, false, 0, mkSR 0x1C 0 0 0 2 p⟩
  | .halt p => some ⟨0, false, 0, mkSR 0x1C 0 0 0 3 p⟩
  | .uret p => some ⟨0, false, 0, mkSR 0x1C 0 0 0 4 p⟩
  | .sret p => some ⟨0, false, 0, mkSR 0x1C 0 0 0 5 p⟩
  | .rbsave a p => some ⟨0, false, 0, mkSR 0x1C 0 (srcBits a) 0 6 p⟩
  | .rbload a p => some ⟨0, false, 0, mkSR 0x1C 0 (srcBits a) 0 7 p⟩
  | .rbdrop p => some ⟨0, false, 0, mkSR 0x1C 0 0 0 8 p⟩
  | .tlbinv a p => some ⟨0, false, 0, mkSR 0x1D 0 (srcBits a) 0 0 p⟩
  | .tlbinvctx a p => some ⟨0, false, 0, mkSR 0x1D 0 (srcBits a) 0 1 p⟩
  | .tlbinvall p => some ⟨0, false, 0, mkSR 0x1D 0 0 0 2 p⟩
  | .tlbsync p => some ⟨0, false, 0, mkSR 0x1D 0 0 0 3 p⟩
  | .cbldBf16 t a imm p => some (encCF imm 0x20 0 t (srcBits a) p)
  | .cbldE4m3 t a imm p => some (encCF imm 0x20 1 t (srcBits a) p)
  | .scld a imm p => some (encCF imm 0x21 0 0 (srcBits a) p)
  | .mmset a imm p => some (encCF imm 0x22 0 0 (srcBits a) p)
  | .mmcov a imm p => some (encCF imm 0x22 1 0 (srcBits a) p)
  | .mmclamp a imm p => some (encCF imm 0x22 2 0 (srcBits a) p)
  | .vadd d a b t k rm => some ⟨2, true, xVR rm false, mkVR 0x01 (dstBits d) (vsrcBits a) (vsrcBits b) t k 0⟩
  | .vsub d a b t k rm => some ⟨2, true, xVR rm false, mkVR 0x01 (dstBits d) (vsrcBits a) (vsrcBits b) t k 1⟩
  | .vmin d a b t k rm => some ⟨2, true, xVR rm false, mkVR 0x01 (dstBits d) (vsrcBits a) (vsrcBits b) t k 2⟩
  | .vmax d a b t k rm => some ⟨2, true, xVR rm false, mkVR 0x01 (dstBits d) (vsrcBits a) (vsrcBits b) t k 3⟩
  | .vmul d a b t k rm => some ⟨2, true, xVR rm false, mkVR 0x02 (dstBits d) (vsrcBits a) (vsrcBits b) t k 0⟩
  | .vdiv d a b t k rm => some ⟨2, true, xVR rm false, mkVR 0x02 (dstBits d) (vsrcBits a) (vsrcBits b) t k 1⟩
  | .vabs d a t k rm => some ⟨2, true, xVR rm false, mkVR 0x02 (dstBits d) (vsrcBits a) 0 t k 2⟩
  | .vneg d a t k rm => some ⟨2, true, xVR rm false, mkVR 0x02 (dstBits d) (vsrcBits a) 0 t k 3⟩
  | .vsqrt d a t k rm => some ⟨2, true, xVR rm false, mkVR 0x03 (dstBits d) (vsrcBits a) 0 t k 0⟩
  | .vrcp d a t k rm => some ⟨2, true, xVR rm false, mkVR 0x03 (dstBits d) (vsrcBits a) 0 t k 1⟩
  | .vfrac d a t k _ => some ⟨2, true, 0, mkVR 0x03 (dstBits d) (vsrcBits a) 0 t k 2⟩
  | .vclass d a t k _ => some ⟨2, true, 0, mkVR 0x03 (dstBits d) (vsrcBits a) 0 t k 3⟩
  | .vfma d a b c t k rm => some ⟨2, true, xVF k rm false, mkVF 0x04 (dstBits d) (vsrcBits a) (vsrcBits b) (vsrcBits c) t⟩
  | .vfms d a b c t k rm => some ⟨2, true, xVF k rm false, mkVF 0x05 (dstBits d) (vsrcBits a) (vsrcBits b) (vsrcBits c) t⟩
  | .vfnma d a b c t k rm => some ⟨2, true, xVF k rm false, mkVF 0x06 (dstBits d) (vsrcBits a) (vsrcBits b) (vsrcBits c) t⟩
  | .vfnms d a b c t k rm => some ⟨2, true, xVF k rm false, mkVF 0x07 (dstBits d) (vsrcBits a) (vsrcBits b) (vsrcBits c) t⟩
  | .viadd d a b t k => some ⟨2, true, 0, mkVR 0x08 (dstBits d) (vsrcBits a) (vsrcBits b) t k 0⟩
  | .visub d a b t k => some ⟨2, true, 0, mkVR 0x08 (dstBits d) (vsrcBits a) (vsrcBits b) t k 1⟩
  | .viadds d a b t k => some ⟨2, true, 0, mkVR 0x08 (dstBits d) (vsrcBits a) (vsrcBits b) t k 2⟩
  | .visubs d a b t k => some ⟨2, true, 0, mkVR 0x08 (dstBits d) (vsrcBits a) (vsrcBits b) t k 3⟩
  | .vimul d a b t k sat => some ⟨2, true, xVR 0 sat, mkVR 0x09 (dstBits d) (vsrcBits a) (vsrcBits b) t k 0⟩
  | .vimulh d a b t k => some ⟨2, true, 0, mkVR 0x09 (dstBits d) (vsrcBits a) (vsrcBits b) t k 1⟩
  | .vimin d a b t k => some ⟨2, true, 0, mkVR 0x09 (dstBits d) (vsrcBits a) (vsrcBits b) t k 2⟩
  | .vimax d a b t k => some ⟨2, true, 0, mkVR 0x09 (dstBits d) (vsrcBits a) (vsrcBits b) t k 3⟩
  | .vand d a b k => some ⟨2, true, 0, mkVR 0x0A (dstBits d) (vsrcBits a) (vsrcBits b) 0 k 0⟩
  | .vor d a b k => some ⟨2, true, 0, mkVR 0x0A (dstBits d) (vsrcBits a) (vsrcBits b) 0 k 1⟩
  | .vxor d a b k => some ⟨2, true, 0, mkVR 0x0A (dstBits d) (vsrcBits a) (vsrcBits b) 0 k 2⟩
  | .vandn d a b k => some ⟨2, true, 0, mkVR 0x0A (dstBits d) (vsrcBits a) (vsrcBits b) 0 k 3⟩
  | .vsll d a b t k => some ⟨2, true, 0, mkVR 0x0b (dstBits d) (vsrcBits a) (vsrcBits b) t k 0⟩
  | .vsrl d a b t k => some ⟨2, true, 0, mkVR 0x0b (dstBits d) (vsrcBits a) (vsrcBits b) t k 1⟩
  | .vsra d a b t k => some ⟨2, true, 0, mkVR 0x0b (dstBits d) (vsrcBits a) (vsrcBits b) t k 2⟩
  | .vrol d a b t k => some ⟨2, true, 0, mkVR 0x0b (dstBits d) (vsrcBits a) (vsrcBits b) t k 3⟩
  | .vfcmpEq kd a b k => some ⟨2, true, 0, mkVR 0x0C (p3Bits kd) (vsrcBits a) (vsrcBits b) 0 k 0⟩
  | .vfcmpLt kd a b k => some ⟨2, true, 0, mkVR 0x0C (p3Bits kd) (vsrcBits a) (vsrcBits b) 0 k 1⟩
  | .vfcmpLe kd a b k => some ⟨2, true, 0, mkVR 0x0C (p3Bits kd) (vsrcBits a) (vsrcBits b) 0 k 2⟩
  | .vfcmpUn kd a b k => some ⟨2, true, 0, mkVR 0x0C (p3Bits kd) (vsrcBits a) (vsrcBits b) 0 k 3⟩
  | .vicmpEq kd a b t k => some ⟨2, true, 0, mkVR 0x0D (p3Bits kd) (vsrcBits a) (vsrcBits b) t k 0⟩
  | .vicmpLt kd a b t k => some ⟨2, true, 0, mkVR 0x0D (p3Bits kd) (vsrcBits a) (vsrcBits b) t k 1⟩
  | .vicmpLe kd a b t k => some ⟨2, true, 0, mkVR 0x0D (p3Bits kd) (vsrcBits a) (vsrcBits b) t k 2⟩
  | .vicmpLtu kd a b t k => some ⟨2, true, 0, mkVR 0x0D (p3Bits kd) (vsrcBits a) (vsrcBits b) t k 3⟩
  | .vcvtFf d a src t k part rm sat => some ⟨2, true, xVR rm sat, mkVR 0x0E (dstBits d) (vsrcBits a) (0#2 ++ src) t k part⟩
  | .vcvtFi d a src t k part rm sat => some ⟨2, true, xVR rm sat, mkVR 0x0F (dstBits d) (vsrcBits a) (0#2 ++ src) t k part⟩
  | .vperm d a b t k => some ⟨2, true, 0, mkVR 0x10 (dstBits d) (vsrcBits a) (vsrcBits b) t k 0⟩
  | .vziplo d a b t k => some ⟨2, true, 0, mkVR 0x10 (dstBits d) (vsrcBits a) (vsrcBits b) t k 1⟩
  | .vziphi d a b t k => some ⟨2, true, 0, mkVR 0x10 (dstBits d) (vsrcBits a) (vsrcBits b) t k 2⟩
  | .vunzip d a b t k => some ⟨2, true, 0, mkVR 0x10 (dstBits d) (vsrcBits a) (vsrcBits b) t k 3⟩
  | .vrot d a x t k => some ⟨2, true, 0, mkVR 0x11 (dstBits d) (vsrcBits a) (srcBits x) t k 0⟩
  | .vshdn d a x t k => some ⟨2, true, 0, mkVR 0x11 (dstBits d) (vsrcBits a) (srcBits x) t k 1⟩
  | .vshup d a x t k => some ⟨2, true, 0, mkVR 0x11 (dstBits d) (vsrcBits a) (srcBits x) t k 2⟩
  | .vrev d a t k => some ⟨2, true, 0, mkVR 0x11 (dstBits d) (vsrcBits a) 0 t k 3⟩
  | .vfredsum d a t k rm => some ⟨2, true, xVR rm false, mkVR 0x12 (dstBits d) (vsrcBits a) 0 t k 0⟩
  | .vfredmax d a t k rm => some ⟨2, true, xVR rm false, mkVR 0x12 (dstBits d) (vsrcBits a) 0 t k 1⟩
  | .viredsum d a t k sat => some ⟨2, true, xVR 0 sat, mkVR 0x12 (dstBits d) (vsrcBits a) 0 t k 2⟩
  | .viredmax d a t k => some ⟨2, true, 0, mkVR 0x12 (dstBits d) (vsrcBits a) 0 t k 3⟩
  | .vbcast d x t k => some ⟨2, true, 0, mkVR 0x13 (dstBits d) 0 (srcBits x) t k 0⟩
  | .vins d a x t k => some ⟨2, true, 0, mkVR 0x13 (dstBits d) (vsrcBits a) (srcBits x) t k 1⟩
  | .vext d a x t => some ⟨2, true, 0, mkVR 0x13 (dstBits d) (vsrcBits a) (srcBits x) t 0 2⟩
  | .vbcastl d a x t k => some ⟨2, true, 0, mkVR 0x13 (dstBits d) (vsrcBits a) (srcBits x) t k 3⟩
  | .vexp2 d a t k rm => some ⟨2, true, xVR rm false, mkVR 0x14 (dstBits d) (vsrcBits a) 0 t k 0⟩
  | .vlog2 d a t k rm => some ⟨2, true, xVR rm false, mkVR 0x14 (dstBits d) (vsrcBits a) 0 t k 1⟩
  | .vrsqrt d a t k rm => some ⟨2, true, xVR rm false, mkVR 0x14 (dstBits d) (vsrcBits a) 0 t k 2⟩
  | .vtanh d a t k rm => some ⟨2, true, xVR rm false, mkVR 0x14 (dstBits d) (vsrcBits a) 0 t k 3⟩
  | .vsinpi d a t k rm => some ⟨2, true, xVR rm false, mkVR 0x15 (dstBits d) (vsrcBits a) 0 t k 0⟩
  | .vcospi d a t k rm => some ⟨2, true, xVR rm false, mkVR 0x15 (dstBits d) (vsrcBits a) 0 t k 1⟩
  | .verf d a t k rm => some ⟨2, true, xVR rm false, mkVR 0x15 (dstBits d) (vsrcBits a) 0 t k 2⟩
  | .vsigm d a t k rm => some ⟨2, true, xVR rm false, mkVR 0x15 (dstBits d) (vsrcBits a) 0 t k 3⟩
  | .kand kd ka kb => some ⟨2, true, 0, mkVR 0x16 (p3Bits kd) (p3Bits ka) (p3Bits kb) 0 0 0⟩
  | .kor kd ka kb => some ⟨2, true, 0, mkVR 0x16 (p3Bits kd) (p3Bits ka) (p3Bits kb) 0 0 1⟩
  | .kxor kd ka kb => some ⟨2, true, 0, mkVR 0x16 (p3Bits kd) (p3Bits ka) (p3Bits kb) 0 0 2⟩
  | .kandn kd ka kb => some ⟨2, true, 0, mkVR 0x16 (p3Bits kd) (p3Bits ka) (p3Bits kb) 0 0 3⟩
  | .vsel d a b k => some ⟨2, true, xVF k 0 false, mkVF 0x17 (dstBits d) (vsrcBits a) (vsrcBits b) 0 0⟩
  | .vimad d a b c k sat => some ⟨2, true, xVF k 0 sat, mkVF 0x18 (dstBits d) (vsrcBits a) (vsrcBits b) (vsrcBits c) 3⟩
  | .mmake d a b k => some ⟨2, true, 0, mkVR 0x20 (mdBits d) (vsrcBits a) (vsrcBits b) 0 k 0⟩
  | .mgetm d a k => some ⟨2, true, 0, mkVR 0x20 (dstBits d) (momBits a) 0 0 k 1⟩
  | .mgetv d a k => some ⟨2, true, 0, mkVR 0x20 (dstBits d) (momBits a) 0 0 k 2⟩
  | .mmov d a k => some ⟨2, true, 0, mkVR 0x20 (mdBits d) (momBits a) 0 0 k 3⟩
  | .madd d a b c k => some ⟨2, true, xVF k 0 false, mkVF 0x21 (mdBits d) (momBits a) (momBits b) (vsrcBits c) 0⟩
  | .msub d a b c k => some ⟨2, true, xVF k 0 false, mkVF 0x22 (mdBits d) (momBits a) (momBits b) (vsrcBits c) 0⟩
  | .mmul d a b k => some ⟨2, true, 0, mkVR 0x23 (mdBits d) (momBits a) (momBits b) 0 k 0⟩
  | .mscale d a x k => some ⟨2, true, 0, mkVR 0x24 (mdBits d) (momBits a) (srcBits x) 0 k 0⟩
  | .mrelu d a k => some ⟨2, true, 0, mkVR 0x25 (mdBits d) (momBits a) 0 0 k 0⟩
  | .mexp d a k => some ⟨2, true, 0, mkVR 0x25 (mdBits d) (momBits a) 0 0 k 1⟩
  | .msigm d a k => some ⟨2, true, 0, mkVR 0x25 (mdBits d) (momBits a) 0 0 k 2⟩
  | .mgelu d a k => some ⟨2, true, 0, mkVR 0x25 (mdBits d) (momBits a) 0 0 k 3⟩
  | .mcmean d a k => some ⟨2, true, 0, mkVR 0x26 (dstBits d) (momBits a) 0 0 k 0⟩
  | .mchi d a x k => some ⟨2, true, 0, mkVR 0x26 (dstBits d) (momBits a) (srcBits x) 0 k 1⟩
  | .mclo d a x k => some ⟨2, true, 0, mkVR 0x26 (dstBits d) (momBits a) (srcBits x) 0 k 2⟩
  | .mcdraw d a k => some ⟨2, true, 0, mkVR 0x26 (dstBits d) (momBits a) 0 0 k 3⟩
  | .mma m sw acc gx asgn bsgn isat z p => some ⟨3, true, xBits false false false false z isat bsgn asgn, mkEM 0x01 0 m sw acc p gx⟩
  | .mmasa m sw acc gx asgn bsgn isat z p => some ⟨3, true, xBits false false false false z isat bsgn asgn, mkEM 0x02 0 m sw acc p gx⟩
  | .mmasb m sw acc gx asgn bsgn isat z p => some ⟨3, true, xBits false false false false z isat bsgn asgn, mkEM 0x02 1 m sw acc p gx⟩
  | .mmam m sw acc gx z p => some ⟨3, true, xBits false false false false z false false false, mkEM 0x03 0 m sw acc p gx⟩
  | .azero acc cnt p => some ⟨3, true, cnt, mkEM 0x04 0 0 false acc p 0⟩
  | .aget acc v row col p => some ⟨3, true, 0#3 ++ BitVec.ofBool col ++ row, mkEM 0x04 1 0 false acc p v⟩
  | .agetNw acc v row col p => some ⟨3, true, 0#3 ++ BitVec.ofBool col ++ row, mkEM 0x04 2 0 false acc p v⟩
  | .amget acc md row p => some ⟨3, true, 0#4 ++ row, mkEM 0x04 3 0 false acc p (0#1 ++ md)⟩
  | .amgetNw acc md row p => some ⟨3, true, 0#4 ++ row, mkEM 0x04 4 0 false acc p (0#1 ++ md)⟩
  | .aput acc v row col p => some ⟨3, true, 0#3 ++ BitVec.ofBool col ++ row, mkEM 0x04 5 0 false acc p v⟩
  | .drain m sw acc gx rm sat bias p => some ⟨3, true, 0#3 ++ BitVec.ofBool bias ++ BitVec.ofBool sat ++ rm, mkEM 0x05 0 m sw acc p gx⟩
  | .drainq m sw acc gx bias zp p => some ⟨3, true, xBits false false zp bias false false false false, mkEM 0x05 1 m sw acc p gx⟩
  | .arsum m sw acc gx sgn isat z p => some ⟨3, true, xBits false false false false z isat false sgn, mkEM 0x06 0 m sw acc p gx⟩
  | .acsum m sw acc gx sgn isat z p => some ⟨3, true, xBits false false false false z isat sgn false, mkEM 0x06 1 m sw acc p gx⟩
  | .mwait => some ⟨3, true, 0, mkEG 0x07 0 0 false 0 0 0 0⟩
  | .ldSpl d a wt cons p => some (encLd 0x10 d a (0#6 ++ BitVec.ofBool cons ++ BitVec.ofBool wt) p)
  | .stSpl x a p => some (encSt 0x11 x a 0 0 p)
  | .ldSpk d a n p => some (encLd 0x12 d a n p)
  | .stSpk x a tag p => some (encSt 0x13 x a (0#7 ++ BitVec.ofBool tag) 0 p)
  | .putSpp x a tier tag p => some (encSt 0x14 x a (0#5 ++ BitVec.ofBool tag ++ tier) 0 p)
  | .putfSpp x a f tier tag p => some (encSt 0x14 x a (f ++ BitVec.ofBool tag ++ tier) 1 p)
  | .raddSpp x a tier p => some ⟨3, true, 2, mkEL 0x14 (srcBits x) (srcBits a) (0#6 ++ tier) 1 p⟩
  | .rcopySpp x a tier tag p => some ⟨3, true, 3, mkEL 0x14 (0#1 ++ x) (srcBits a) (0#5 ++ BitVec.ofBool tag ++ tier) 0 p⟩
  | .ldHbm d a n p => some (encLd 0x15 d a n p)
  | .stHbm x a p => some (encSt 0x16 x a 0 0 p)
  | .amo x a n w scope aop p => some ⟨3, true, xEL false scope aop, mkEL 0x17 (srcBits x) (srcBits a) n (0#2 ++ BitVec.ofBool w) p⟩
  | .putPhm x a tier p => some (encSt 0x18 x a (0#6 ++ tier) 0 p)
  | .ldHst d a n p => some (encLd 0x19 d a n p)
  | .stHst x a p => some (encSt 0x1a x a 0 0 p)
  | .parm a b p => some ⟨3, true, 0, mkEG 0x1b 0 0 false (srcBits a) (srcBits b) 0 p⟩
  | .prel a p => some ⟨3, true, 0, mkEG 0x1b 1 0 false (srcBits a) 0 0 p⟩
  | .pfill a p => some ⟨3, true, 0, mkEG 0x1b 2 0 false (srcBits a) 0 0 p⟩
  | .pget d a p => some ⟨3, true, 0, mkEG 0x1b 3 0 false (srcBits a) (dstBits d) 0 p⟩
  | .fwait a b p => some ⟨3, true, 0, mkEG 0x1c 0 0 false (srcBits a) (srcBits b) 0 p⟩
  | .fwaitne a b p => some ⟨3, true, 0, mkEG 0x1c 1 0 false (srcBits a) (srcBits b) 0 p⟩
  | .binit a b p => some ⟨3, true, 0, mkEG 0x1d 0 0 false (srcBits a) (srcBits b) 0 p⟩
  | .barrive a p => some ⟨3, true, 0, mkEG 0x1d 1 0 false (srcBits a) 0 0 p⟩
  | .bwait a p => some ⟨3, true, 0, mkEG 0x1d 2 0 false (srcBits a) 0 0 p⟩
  | .binval a p => some ⟨3, true, 0, mkEG 0x1d 3 0 false (srcBits a) 0 0 p⟩
  | .qput a b n esz tier p => some ⟨3, true, 0#3 ++ tier ++ esz, mkEG 0x1e 0 0 false (srcBits a) (srcBits b) n p⟩
  | .qpop d n nw p => some ⟨3, true, 0#7 ++ BitVec.ofBool nw, mkEG 0x1e 1 0 false 0 (dstBits d) n p⟩
  | .qdone n p => some ⟨3, true, 0, mkEG 0x1e 2 0 false 0 0 n p⟩
  | .fence scope grp p => some ⟨3, true, grp, mkEG 0x1f 0 0 false 0 0 scope p⟩
  | .copy x sw a d n tier tag follow p => some ⟨3, true, 0#4 ++ BitVec.ofBool follow ++ BitVec.ofBool tag ++ tier, mkEG 0x20 0 x sw (0#1 ++ a) (dstBits d) n p⟩
  | .cchain d a n p => some ⟨3, true, 0, mkEG 0x21 0 0 false (srcBits a) (dstBits d) n p⟩
  | .cwait n b p => some ⟨3, true, 0, mkEG 0x21 1 0 false 0 (srcBits b) n p⟩
  | .coll a => some ⟨3, true, 0, mkEG 0x22 0 0 false (srcBits a) 0 0 0⟩
  | .rsend a => some ⟨3, true, 0, mkEG 0x23 0 0 false (srcBits a) 0 0 0⟩
  | .macroRun a idx p => some ⟨3, true, 0, mkEG 0x24 0 0 false (srcBits a) (idx.extractLsb' 4 6) (idx.extractLsb' 0 4) p⟩
  | .mcld a b p => some ⟨3, true, 0, mkEG 0x24 1 0 false (srcBits a) (srcBits b) 0 p⟩
  | .ntile p => some ⟨3, true, 0, mkEG 0x25 0 0 false 0 0 0 p⟩
  | .rngseed a b flush p => some ⟨3, true, 0#7 ++ BitVec.ofBool flush, mkEG 0x26 0 0 false (srcBits a) (srcBits b) 0 p⟩
  | .rngpop d p => some ⟨3, true, 0, mkEG 0x26 1 0 false 0 (dstBits d) 0 p⟩
  | .macroStep => none
  | .resultLanding => none
  | .loadDataArrival _ => none
  | .loadLanding => none
  | .fetchFill => none
  | .pageWalkComplete _ => none
  | .trapEntry _ => none
  | .rngAppend => none
  | .coreReset => none
  | .rsplitWrite _ => none
  | .lactWrite _ => none
  | .qcfgWrite _ _ => none
  | .qptrWrite _ _ => none
  | .pctlReady => none
  | .accxferWrite _ => none
  | .elogposWrite _ => none
  | .ctrloRead _ => none
  | .debugStop => none
  | .matrixEntryStart => none
  | .matrixEntryComplete => none
  | .copyRecord _ _ => none
  | .copyTransferComplete _ _ => none
  | .chainRecordRead _ _ => none
  | .writeArrival _ => none
  | .taggedWrite _ => none
  | .release _ => none
  | .raddPerform _ => none
  | .flagIncrement _ => none
  | .qputArrival _ => none
  | .spkStorePerform _ => none
  | .phmPutArrival _ => none
  | .hbmStorePerform _ => none
  | .hstStoreEmit _ => none
  | .atomicPerform _ => none
  | .atomicAnswer _ => none
  | .writeAnswer _ _ => none
  | .eccWriteback _ => none
  | .collBucketComplete _ => none
  | .routeSendAnswer _ _ => none
  | .routingEntryArrival _ => none
  | .sealArrival _ => none
  | .routeBatchComplete _ => none
  | .haltComplete => none
  | .instanceFault => none
  | .graphAdmit _ => none
  | .dispatchDecision _ => none
  | .gangRelease _ => none
  | .quantumBoundary => none
  | .forcedSave => none
  | .gemmaWrite _ => none
  | .intervalBoundary _ => none
  | .headSample _ _ => none
  | .asqbaseWrite _ _ => none
  | .acqbaseWrite _ _ => none
  | .aqdepthWrite _ _ => none
  | .sqtailWrite _ _ _ => none
  | .cqheadWrite _ _ _ => none
  | .submissionFetch _ _ => none
  | .completionPost _ _ => none
  | .queueSlotMap _ => none
  | .vfCreate _ => none
  | .vfBind _ => none
  | .vfUnbind _ => none
  | .qpCreate _ => none
  | .qpDelete _ => none
  | .imageLoad _ => none
  | .mapCmd _ => none
  | .unmap _ => none
  | .submit _ => none
  | .pause _ => none
  | .resume _ => none
  | .evict _ => none
  | .relocate _ => none
  | .ctrReq _ => none
  | .ctrRelease _ => none
  | .ctrEvents _ => none
  | .layout _ => none
  | .partReset _ => none
  | .schedSet _ => none
  | .bucketSet _ => none
  | .regionPublish _ => none
  | .regionWithdraw _ => none
  | .linkRotate _ => none
  | .journalRead _ => none
  | .regionSeal _ => none
  | .powerGateOn _ => none
  | .scrubReport _ => none
  | .layoutCommit => none
  | .mgmtWatchdogReset => none
  | .coldReset => none
  | .tokenRefill => none
  | .linkTraining _ => none
  | .rotateConfirm _ _ => none
  | .retire _ _ => none
  | .keyCounterExpiry _ _ => none
  | .flitReplay _ _ => none
  | .linkRetrain _ => none
  | .linkDown _ => none
  | .boundaryLost _ => none
  | .patrol _ => none
  | .spdmRequest _ _ _ => none
  | .lockInterfaceRequest _ => none
  | .startInterfaceRequest _ => none
  | .tdiError _ => none
  | .tlbRemovalTakesEffect _ => none
  | .flitAcknowledgement _ _ => none
  | .journalFlashMirror => none

/-- What a word stands for in the first place whose decoder takes it, of the places given. -/
def decodeFirst (w : U32) : List Enc → Option (Enc × Decoded)
  | [] => none
  | e :: es =>
    match decode true { e with word := w } with
    | .ok i => some ({ e with word := w }, i)
    | .error _ => decodeFirst w es

/-- The places tried for a table word, which names neither its slot nor its header byte: slots 0, 1, 2 and 3 of a
bundle without a header in turn, then slot 3 under the header bytes that choose KIND 1, 2 and 3 of R221. -/
def tablePlaces : List Enc :=
  [⟨0, false, 0, 0⟩, ⟨1, false, 0, 0⟩, ⟨2, false, 0, 0⟩, ⟨3, false, 0, 0⟩, ⟨3, true, 1, 0⟩, ⟨3, true, 2, 0⟩,
    ⟨3, true, 3, 0⟩]

/-- The instruction read from a table word (log 3). -/
noncomputable def decodeTableWord (nbits w : Nat) : Option Instr :=
  if nbits ≤ 32 then (decodeFirst (BitVec.ofNat 32 w) tablePlaces).map (fun r => r.2.instr) else none

end Sys2Proof
end

