-- ==== Sys2Proof/Config.lean ====
section
/-! DEFINITION. What is fixed for a device or left open by the spec: opaque constants that no proof can evaluate, and
the named sizes of R2, R16 and R399. -/
namespace Sys2Proof.Config

/-- The device's number of clusters (R2). -/
def clusters : Nat := 32
/-- The number of cores (R3). -/
def cores : Nat := 160
/-- The HBM capacity in bytes (R4). -/
def hbmBytes : Nat := 2 ^ 39

/-- The virtual address at which a partition's error log is mapped in every context (R431: the value of %elogbase is
not given; log 29). -/
def logVa : Nat := 0x7F0000000000
/-- The virtual address of a task's first bundle (R452 leaves the placing to Operculum; log 29). -/
def codeVa : Nat := 0x7E0000000000

/-- A value that the spec leaves open, fresh for each counter value (log 7). -/
opaque freeBits : Nat → Nat → Nat
/-- Which of n enabled independent events happens at this instant (R293; log 2). -/
opaque choice : Nat → Nat → Nat
/-- The rounding of an elementary function that the interval of the model does not decide (log 12): function,
operand, mode. -/
opaque undecided : Nat → Nat → Nat → Nat
/-- The HBM stack, 0..7, that holds a 64-byte line of the device address space (R2, R277; log 56). -/
opaque stackOf : Nat → Nat
/-- The virtual address of the alias through which system software edits a context's tables (R395 gives none; log 76). -/
def tableVa : Nat := 0x7D0000000000
/-- Keys, measurements, signatures and other values of Operculum whose algorithm stands outside the spec (log 15). -/
opaque secret : Nat → Nat → Nat
/-- Whether a signature verifies (R413, R417, R418; log 15). -/
opaque verifies : Nat → Nat → Bool

end Sys2Proof.Config
end

