-- ==== Sys2Proof/Machine/Random.lean ====
section
/-! DEFINITION. The random-bit generator (R273). -/
namespace Sys2Proof.Machine

/-- One appended word: the generator's next state and the word (R273). -/
def rngNext (s0 s1 : U64) : (U64 × U64) × U64 :=
  let x := s0 ^^^ (s0 <<< 23)
  let t := x ^^^ s1 ^^^ (x >>> 17) ^^^ (s1 >>> 26)
  ((s1, t), t + s1)

/-- n appended words: the generator's state after them, and the words, oldest first. -/
def rngWords : Nat → U64 → U64 → (U64 × U64) × List U64
  | 0, s0, s1 => ((s0, s1), [])
  | n + 1, s0, s1 =>
    let r := rngNext s0 s1
    let t := rngWords n r.1.1 r.1.2
    (t.1, r.2 :: t.2)

/-- The first seed word, and the one used where both would be zero (R273, R274). -/
def rngSeed0 : U64 := 0x9E3779B97F4A7C15

end Sys2Proof.Machine
end

