-- ==== Sys2Proof/Machine/Sparse.lean ====
section
/-! DEFINITION. Sparse data by key: a list of (key, value) pairs in one canonical form, keys strictly rising and no
entry equal to what an unlisted key reads as. The memories, the presence tags and the control store are held so. -/
namespace Sys2Proof.Machine

/-- What key k reads as; d is what an unlisted key reads as. -/
def spGet {α : Type} (d : α) : List (Nat × α) → Nat → α
  | [], _ => d
  | (j, v) :: t, k => if k = j then v else if k < j then d else spGet d t k

/-- The pairs with key k at value x: an entry equal to d is removed. -/
def spSet {α : Type} [DecidableEq α] (d : α) (k : Nat) (x : α) : List (Nat × α) → List (Nat × α)
  | [] => if x = d then [] else [(k, x)]
  | (j, v) :: t =>
    if k < j then if x = d then (j, v) :: t else (k, x) :: (j, v) :: t
    else if k = j then if x = d then t else (k, x) :: t
    else (j, v) :: spSet d k x t

/-- The pairs without the keys lo .. lo + n − 1. -/
def spClear {α : Type} (lo n : Nat) : List (Nat × α) → List (Nat × α)
  | [] => []
  | (j, v) :: t => if lo ≤ j ∧ j < lo + n then spClear lo n t else (j, v) :: spClear lo n t

/-- The canonical form, above a bound: every key at least lo, strictly rising, no value d. -/
def spWfFrom {α : Type} [DecidableEq α] (d : α) : Nat → List (Nat × α) → Bool
  | _, [] => true
  | lo, (j, v) :: t => decide (lo ≤ j) && decide (v ≠ d) && spWfFrom d (j + 1) t

/-- The canonical form. -/
def spWf {α : Type} [DecidableEq α] (d : α) (m : List (Nat × α)) : Bool := spWfFrom d 0 m

end Sys2Proof.Machine
end

