-- ==== Sys2Proof/Machine/State.lean ====
section
/-! DEFINITION. The state of the K16 as plain data, its state after reset, and the reasons a step can stop. -/
namespace Sys2Proof.Machine

/-! ### Results in flight (R24, R26, R50, R62) -/

/-- Where a result lands and with what value. `wr` marks the lanes written (R27, R156): a result suppressed by its
predicate writes none. -/
inductive Res where
  | g (d : Dst) (val : U64) (wr : Bool)
  | v (d : Dst) (val : Vec) (wr : U64)
  | m (d : U4) (val : Mom) (wr : U64)
  | p (d : U3) (val wr : Bool)
  | k (d : U3) (val wr : U64)
  | spr (n : U11) (x : Nat) (val wr : U64)
  | shp (xs : Bool) (reg : U2) (fld : U5) (val : U64) (wr : Bool)
  | tc (r : U2) (val : U64)
  deriving DecidableEq, Repr

/-- A table load on its way (R204): bundles still to issue, the table (16 is the scale table), TYPE and entries. -/
structure TabLoad where
  rem : Nat
  t : Nat
  typ : U16
  ents : Vector U16 16
  deriving DecidableEq, Repr

/-- How far a timed load's data is (R50, R53). -/
inductive Phase where
  | waiting
  | ready
  | failed (code : Byte) (info : U64)
  deriving DecidableEq, Repr

/-- What a timed load holds beside its result (R51): its own number, the 32-byte units of landing store taken, the address of
its own bundle, and the address that it loads from (R427), which a replay record does not keep. -/
structure Load where
  id : Nat
  units : Nat
  pc : Pc
  phase : Phase
  addr : Option U64
  deriving DecidableEq, Repr

/-- One result or landing entry in flight: `rem` more bundles issue before the one at which it lands. `noq` marks a
result whose queue or latch entry was cleared away (R35). -/
structure Infl where
  rem : Nat
  noq : Bool
  slot : U2
  stat : U16
  res : Res
  load : Option Load
  deriving DecidableEq, Repr

/-- A replay frame (R62, R144): its tag (true S), the captured entries, the queue and the latches. -/
structure Frame where
  tagS : Bool
  infl : List Infl
  q : Vector U64 16
  b : Vector Vec 3
  deriving DecidableEq, Repr

/-! ### Registers -/

/-- The register classes of R28. -/
structure Regs where
  g : Vector U64 32
  q : Vector U64 16
  v : Vector Vec 32
  b : Vector Vec 3
  m : Vector Mom 16
  p : Vector Bool 8
  k : Vector U64 8
  msL : Vector U128 4
  msS : Vector U128 4
  xsL : Vector U128 4
  xsS : Vector U128 4
  tc : Vector U64 4
  deriving DecidableEq, Repr

/-- The trap registers (R146, R147). -/
structure TrapRegs where
  scause : U64
  sepc : U64
  sfpc : U64
  sinfo : U64
  svec : U64
  sscratch : U64
  sprev : U64
  slact : U64
  tdeleg : U64
  ucause : U64
  uepc : U64
  ufpc : U64
  uinfo : U64
  uvec : U64
  uscratch : U64
  ulact : U64
  deriving DecidableEq, Repr

/-- The hardware loops (R54, R141). -/
structure LoopRegs where
  lcnt : Vector U64 8
  lbeg : Vector U64 8
  lend : Vector U64 8
  lact : U64
  deriving DecidableEq, Repr

/-- The macro sequencer (R269, R270, R370): its registers, the macro's bundle address, where the program goes on, whether the
last step was marked, the set of counters that its steps are charged to, and whether a trap has been taken from the macro
with no return to its bundle since. -/
structure MacroRegs where
  mpc : U64
  spc : U64
  mlc : U64
  mlinit : U64
  addr : U64
  next : Pc
  marked : Bool
  lset : Nat
  away : Bool
  deriving DecidableEq, Repr

/-- The special registers of R45 that report and control the slot's own work. -/
structure Sprs where
  bundle : U64
  stat : U64
  mmode : U64
  wstat : U64
  rfault : U64
  rfaddr : U64
  qcredit : U64
  tcptr : U64
  mfault : U64
  mecc : U64
  qcfg : Vector U64 16
  qptr : Vector U64 16
  aemu : U64
  aemuc : U64
  cmask : U64
  rngs0 : U64
  rngs1 : U64
  dstop : U64
  latch : Nat × U32
  lprof : Vector U64 145
  eccnt : Vector U64 16
  deriving DecidableEq, Repr

/-- The special registers of R361 and R395. -/
structure CtxRegs where
  ctxid : U64
  left : U32
  req : Bool
  pdisc : Vector U64 12
  accown : U64
  accdirty : Vector U64 32
  accbase : U64
  accxfer : U64
  accfail : U64
  ptroot : U64
  deriving DecidableEq, Repr

/-! ### The matrix queue (R184, R371) -/

/-- A codebook table (R75): its TYPE and its 16 entries. -/
structure Codebook where
  typ : U16
  ents : Vector U16 16
  deriving DecidableEq, Repr

/-- The tables a matrix entry or a formatted load reads, at one generation (R205). -/
structure Tables where
  gens : Vector Nat 17
  cb : Vector Codebook 16
  scale : Vector U16 16
  deriving DecidableEq, Repr

/-- What a matrix entry does: an instruction of 06, or an accumulator transfer (R382). -/
inductive MqOp where
  | ins (i : Instr)
  | xfer (v : U64) (mask : Vector U64 32)
  deriving DecidableEq, Repr

/-- A matrix-queue entry with what it captured at issue (R184, R205). `mark` is the number of the next message at its issue:
the writes of its slot below it come from before the entry (R186). -/
structure MqEntry where
  op : MqOp
  clamp : Bool
  gx : U64
  shape : U128
  w : U64
  vec : Vec
  base : U64
  tabs : Tables
  follow : List (Nat × Nat)
  mark : Nat
  started : Bool
  deriving DecidableEq, Repr

/-! ### One task slot -/

/-- What became of the slot instruction being executed. -/
inductive Issue where
  | issued
  | held
  | trapped (code : Byte) (info : U64)
  deriving DecidableEq, Repr

/-- The condition of a waiting instruction on memory (R229, R232). -/
inductive Await where
  | ge (x : U32)
  | ne (x : U32)
  | barrier
  deriving DecidableEq, Repr

/-- What a held waiting instruction watches (R228): the key of the first byte, the condition, and, once an evaluation
has held, the value seen and the outcome. -/
structure Watch where
  key : Nat
  cond : Await
  hit : Option (U32 × Nat)
  deriving DecidableEq, Repr

/-- What the queue and the in-flight entries were before a GROUP header cleared them (R35, R103). -/
structure Cleared where
  infl : List Infl
  q : Vector U64 16
  b : Vector Vec 3
  deriving DecidableEq, Repr

/-- The bundle in progress: the model's own (log 2). Which slot executes and its word, whether the bundle is a macro
step, the bundle's own address, what became of the instruction, the trap to take after the bundle, whether a control
transfer was taken, what a GROUP header cleared, whether the random word was used, the results issued by the bundle so
far, and the flags set since the last bundle issued (R48). -/
structure Iss where
  slot : U2
  word : U32
  isMacro : Bool
  bpc : Pc
  res : Issue
  after : Option (Byte × U64)
  taken : Bool
  cleared : Option Cleared
  usedW : Bool
  fresh : List Infl
  landed : U64
  deriving DecidableEq, Repr

/-- Whether a slot has a task and what it is doing (R310, R332, R342, R149, R364, R366, R430): `saving` from the freeze of a
suspension (forced, or behind a landed write of READY) until its work is settled, and `faulting` with the cause, its
information word and the faulting bundle. -/
inductive Run where
  | idle
  | running
  | gang
  | saving (forced : Bool)
  | halting
  | faulting (code : Byte) (info : U64) (at_ : Pc)
  deriving DecidableEq, Repr

/-- The instance bound to a slot (R310, R327, R360): its context, partition, job, job-relative core, graph, node and
instance numbers, the time its quantum began, its save budget and how often it was saved. -/
structure Bound where
  ctx : Nat
  part : Nat
  job : Nat
  jcore : Nat
  graph : Nat
  node : Nat
  inst : Nat
  vf : Nat
  since : Nat
  budget : U32
  saves : Nat
  deriving DecidableEq, Repr

/-- One hardware task slot of a core (R56). `ports` are the frozen cycles still due under PORTS (R52); `yielded` is the bundle of
a `yield` whose cause 0x31 is still pending (R143, R144). -/
structure Thread where
  slot1 : Bool
  regs : Regs
  sp : Sprs
  trap : TrapRegs
  loop : LoopRegs
  mac : MacroRegs
  cx : CtxRegs
  pc : Pc
  priv : Bool
  infl : List Infl
  f0 : Option Frame
  f1 : Option Frame
  orphans : List Load
  tabq : List TabLoad
  rnq : List U64
  mq : List MqEntry
  follows : List (Nat × Nat)
  nextId : Vector U64 16
  pend31 : Bool
  pend32 : Bool
  pend50 : Bool
  stopped : Bool
  loadId : Nat
  run : Run
  bound : Option Bound
  iss : Iss
  fetchFault : Option (Byte × U64)
  watch : Option Watch
  ports : Nat
  yielded : Option Pc
  deriving DecidableEq, Repr

/-- A core: its physical number and what its slots share (R16, R46, R56). -/
structure Core where
  phys : Nat
  cycle : U64
  rsplit : Bool
  turn1 : Bool
  tabs : Tables
  icache : List (Nat × U128)
  deriving DecidableEq, Repr

/-- A core with its two slots; the second is dormant unless RSPLIT is 1. -/
structure CoreRec where
  core : Core
  t0 : Thread
  t1 : Thread
  deriving DecidableEq, Repr

/-- A cell's presence state (R216). -/
structure Tag where
  full : Bool
  count : BitVec 11
  exp : BitVec 11
  deriving DecidableEq, Repr

def Tag.reset : Tag := ⟨false, 0, 1024⟩

/-- The memories of the device in canonical form (log 6): scratchpads (key PHYS × 2^20 + offset), HBM (device
address), host memory (I/O address), accumulator stores (key PHYS × 2^23 + granule × 4096 + byte), presence tags and
control stores (key PHYS × 1024 + number). -/
structure Mems where
  spl : List Host.Cell
  hbm : List Host.Cell
  host : List Host.Cell
  acc : List Host.Cell
  tags : List (Nat × Tag)
  cst : List (Nat × U128)
  deriving DecidableEq, Repr

/-- One copy transfer or chain: its identifier, the number its messages carry, who issued it, what it copies, and how far
it is. `rows` says that rows are being executed; for a chain `next` is the record to read next, `here` the record being
executed and `flags` its FLAGS byte; `mark` bounds the messages that the issuer sent before it (R255). -/
structure Transfer where
  id : Nat
  serial : Nat
  who : Bound
  phys : Nat
  slot1 : Bool
  shape : U128
  sa : U64
  da : U64
  tag : Bool
  tier : Nat
  follow : Bool
  chain : Bool
  next : U64
  here : U64
  flags : Byte
  rows : Bool
  row : Nat
  mark : Nat
  deriving DecidableEq, Repr

/-- A suspended context (R366..R375): its identity, where it runs again, how it was suspended, and everything of its
slot that the gemma holds. -/
structure SavedCtx where
  id : Nat
  bound : Bound
  phys : Nat
  slot1 : Bool
  seq : Nat
  forced : Bool
  written : Bool
  area : Nat
  image : Nat
  digest : Nat
  thread : Thread
  tabs : Tables
  cells : List Host.Cell
  tags : List (Nat × Tag)
  cst : List (Nat × U128)
  copies : List (Nat × Transfer)
  deriving DecidableEq, Repr

/-! ### Messages between parties (R276, R282) -/

/-- A party that issues accesses (R276): a slot of a core, a copy channel of a cluster, the collective engine of a die,
the routing engine of a cluster, or a party of another device. -/
inductive Party where
  | slot (phys : Nat) (slot1 : Bool)
  | channel (cl ch : Nat)
  | collective (die : Nat)
  | router (cl : Nat)
  | outside (dev party : Nat)
  deriving DecidableEq, Repr

/-- Where a write stands (R218, R225, R307, R404): not sent while 256 of its path are unanswered, waiting for tokens, on its
way, at the port that performs it, parked after a refusal, released and to be retried, with a device outside the model, or
performed with its answer on the way (code 0 acknowledges). -/
inductive Stage where
  | unsent
  | tokens
  | flying
  | atPort
  | parked
  | released
  | away
  | answered (code : Byte) (free : Nat)
  deriving DecidableEq, Repr

/-- A leaf translation (R393, R396): the context, the virtual base and size of the page, the table entry, and whether
the page lies in a shared region. -/
structure Pte where
  ctx : Nat
  va : Nat
  size : Nat
  word : U64
  shared : Bool
  deriving DecidableEq, Repr

/-- What a walk found (R394): a leaf, or the cause of its failure. -/
inductive PageRes where
  | leaf (p : Pte)
  | fail (code : Byte)
  deriving DecidableEq, Repr

/-- A walk in progress in a cluster's walker (R397): the context, its root, the 64 KiB-aligned address, the partition
whose extents bound it, and who waits for it (a fetch is marked). -/
structure Walk where
  cl : Nat
  ctx : Nat
  root : Nat
  va : Nat
  part : Nat
  who : List (Party × Bool)
  deriving DecidableEq, Repr

/-- A failed walk that the access waiting for it is still to see (R210, R397): who waits, whether it is a fetch, the
64 KiB-aligned address, and the cause. -/
structure WalkDone where
  who : Party
  fetch : Bool
  va : Nat
  code : Byte
  deriving DecidableEq, Repr

/-- A TLB removal that is still to take effect in a cluster (R152): the core or slot that issued it, and what it names:
everything, a context, or the page of a context that holds an address. -/
structure Removal where
  cl : Nat
  phys : Nat
  slot1 : Bool
  target : Option (Nat × Option Nat)
  deriving DecidableEq, Repr

/-- What a timed load asks for (R211..R213): the number of its landing entry, the space (1 SPK, 3 HBM, 4 HST), the
virtual or cluster address, the size code and destination form, the pages still to translate and those translated, the
privilege it issued at and the tables it decodes by. -/
structure LoadReq where
  id : Nat
  space : Nat
  addr : U64
  sz : U3
  wide : Bool
  t : U3
  u : Bool
  need : List Nat
  got : List (Nat × PageRes)
  priv : Bool
  tabs : Tables
  deriving DecidableEq, Repr

/-- An atomic (R237..R239): its operation, operands, scope, physical address and whether it returns; once performed,
the old value and whether the scope missed its partner. -/
structure AmoReq where
  aop : Nat
  word : Bool
  scope : Nat
  x : U64
  y : U64
  ret : Bool
  id : Nat
  host : Bool
  pa : Nat
  done : Bool
  old : U64
  mis : Bool
  deriving DecidableEq, Repr

/-- What a message is; `own` is a store of a slot to its own scratchpad that the port holds (R186, R255). -/
inductive MsgKind where
  | own
  | pod (k : PodKind)
  | spk
  | hbm
  | hst
  | load (r : LoadReq)
  | amo (r : AmoReq)
  deriving DecidableEq, Repr

/-- A message: a write, load or atomic under way, in issue order (R282). `path` is the tier 0..2, 3 for the cluster
network, 4 for memory. `dev` is the job-relative destination device and `core` the job-relative core index of a pod
write, or the physical core of an SPK access; `addr` is an offset, or a peer virtual address. `pieces` are the physical
bytes of a memory store. `rkind` and `raddr` are what an error response records (R226); `owner` is the copy, collective
or routing work the write belongs to. -/
structure Msg where
  id : Nat
  src : Party
  ctx : Nat
  job : Nat
  part : Nat
  srcDev : Nat
  kind : MsgKind
  path : Nat
  stage : Stage
  retry : Bool
  dev : Nat
  core : Nat
  slot1 : Bool
  addr : Nat
  tag : Bool
  region : Nat
  esz : Nat
  data : List Byte
  pieces : List (Bool × Nat × List Byte)
  rkind : Nat
  raddr : U64
  owner : Nat
  deriving DecidableEq, Repr

/-- What a refusal-list entry names (R218, R368). -/
inductive Refused where
  | cell (cell : Nat)
  | region (slot1 : Bool) (n : Nat)
  | context (id : Nat)
  deriving DecidableEq, Repr

/-- An entry of a core's refusal list (R218): the core, what refused, and the message. -/
structure RefEntry where
  phys : Nat
  what : Refused
  msg : Nat
  deriving DecidableEq, Repr

/-! ### Jobs (R297..R303, R414) -/

/-- A device table entry of a job: valid, reachable, and the fabric port that leads there. -/
structure DevEntry where
  valid : Bool
  reach : Bool
  port : Nat
  deriving DecidableEq, Repr

/-- A segment entry (R300). -/
structure Segment where
  valid : Bool
  dlo : Nat
  dhi : Nat
  clo : Nat
  chi : Nat
  olo : Nat
  ohi : Nat
  w : Bool
  a : Bool
  t : Bool
  deriving DecidableEq, Repr

/-- A job core map entry (R299) and the context it names. -/
structure MapEntry where
  idx : Nat
  phys : Nat
  slot1 : Bool
  ctx : Nat
  deriving DecidableEq, Repr

/-- A job on this device: its own index among the job's devices, its device table, segment table (its entries under their
numbers 0 to 63), core map and groups, and its gang state (R300, R342). -/
structure Job where
  id : Nat
  vf : Nat
  part : Nat
  self : Nat
  devs : List DevEntry
  segs : List (Nat × Segment)
  map : List MapEntry
  groups : List (List Nat)
  members : Nat
  released : Bool
  deriving DecidableEq, Repr

/-- A record of an error log (R431, R433). -/
structure LogRec where
  kind : Nat
  cause : Byte
  arr : Nat
  unit : Nat
  job : Nat
  src : Nat
  addr : U64
  time : Nat
  deriving DecidableEq, Repr

/-! ### Copy channels (R245, R275) -/

/-- A channel of a cluster's copy engine (R245, R275): where its last chain stopped, whether it is parked (R250), and
its transfers in order. -/
structure Channel where
  cl : Nat
  ch : Nat
  stop : U64
  parked : Bool
  q : List Transfer
  deriving DecidableEq, Repr

/-! ### Collectives (R257..R261) and routing batches (R262..R266) -/

/-- A collective at this member: who issued it, where its descriptor lies and what it holds, the key of its SIG word,
whether the members have found that they agree (R261), the buckets started, sent to the other members and done, the STATUS
that a peer's answer asks for (0 none), the STATUS reached, whether it was abandoned, and the writes held while its context
is suspended (R366): offset and value, an increment of DONE where the value is none. -/
structure Coll where
  serial : Nat
  who : Bound
  phys : Nat
  slot1 : Bool
  addr : Nat
  desc : List Byte
  sig : Nat
  agreed : Bool
  started : Nat
  sent : Nat
  done : Nat
  fail : Nat
  status : Nat
  gone : Bool
  held : List (Nat × Option Nat)
  deriving DecidableEq, Repr

/-- A choice of expert (R263, R265): none (0xFFFF), an invalid one, one whose map entry meets a failing word at an offset, or
a region of a core of a device. -/
inductive Expert where
  | nobody
  | invalid
  | failing (off : Nat)
  | region (dev core n : Nat)
  deriving DecidableEq, Repr

/-- A token send of a routing batch (R264, R265). -/
structure Send where
  tok : Nat
  dest : Expert
  alt : Expert
  redir : Bool
  data : List Byte
  deriving DecidableEq, Repr

/-- A routing batch (R262..R266): its record while its arrays are still to be read, with the number of the next message at
its issue, what is still to send, what is under way by message number, the counters, and the regions that accepted an
entry. -/
structure Batch where
  serial : Nat
  who : Bound
  phys : Nat
  slot1 : Bool
  unread : Option (List Byte)
  mark : Nat
  esz : Nat
  tier : Nat
  wantSeal : Bool
  cnt : Nat
  done : Nat
  todo : List Send
  out : List (Nat × Send)
  sent1 : Nat
  sent2 : Nat
  dropped : Nat
  err : Nat
  took : List (Nat × Nat × Nat)
  sealing : Bool
  deriving DecidableEq, Repr

/-! ### Partitions, graphs and scheduling (R312..R331, R399) -/

/-- The scheduling parameters of a partition (R316). -/
structure Sched where
  q : Nat
  refill : Nat
  cap : Nat
  charge : Vector Nat 8
  hreq : Vector Nat 8
  copychg : Nat
  rsmask : Nat
  deriving DecidableEq, Repr

/-- The states of a node (R318). -/
inductive NodeState where
  | pending
  | ready
  | running
  | done
  | faulted
  | cancelled
  deriving DecidableEq, Repr

/-- A node of a graph (R313, R317): its record and its ready-pool entry, the time its wait started (R320), and whether
an instance of it faulted. -/
structure GNode where
  bytes : List Byte
  st : NodeState
  predLeft : Nat
  undisp : Nat
  live : Nat
  wait : Nat
  bad : Bool
  deriving DecidableEq, Repr

/-- A graph submitted (R317, R318, R391): its own number, its ordinal in the image, who submitted it, its image, its place in
admission order, its nodes and successor array, its verdict (0 while it runs well, 2 FAULTED, 3 CANCELLED) and cause, the
claim counter of each persistent tile space (R331), and whether its virtual function was evicted: 1 while it is out of the
pool, 2 when it may come back (R411), and the head of its submission queue after its entry was consumed (R389). -/
structure Graph where
  serial : Nat
  ordinal : Nat
  handle : U64
  vf : Nat
  fn : Nat
  q : Nat
  cid : U16
  image : Nat
  ord : Nat
  admitted : Bool
  nodes : List GNode
  succ : List Nat
  verdict : Nat
  cause : Byte
  claims : List (Nat × Nat)
  hold : Nat
  head : Nat
  deriving DecidableEq, Repr

/-- An instance that has ended in this cycle (R318): its partition, graph and node, and the cause if it faulted. -/
structure NodeEnd where
  part : Nat
  graph : Nat
  node : Nat
  cause : Option Byte
  deriving DecidableEq, Repr

/-- A candidate for dispatch (R320): a node's next instance, or a suspended context. -/
inductive Cand where
  | fresh (graph node : Nat)
  | saved (ctx : Nat)
  deriving DecidableEq, Repr

/-- A partition (R399): its descriptor, its scheduling state, its error log (R431, R432), its key epoch (R415), its tenant
(R413), the runs of 64 KiB pages of its extents that are allocated (first page, count, owner), and whether a power cycle of it
is in progress (R402). -/
structure Part where
  num : Nat
  clusters : Nat
  nslot : Nat
  qslots : Nat
  lend : Bool
  extents : Nat
  sched : Sched
  pending : Option Sched
  bal : List (Nat × Nat)
  head : List (Nat × Nat)
  since : Nat
  graphs : List Graph
  reserve : Option (Nat × Cand)
  logWr : Nat
  logRd : Nat
  logLost : Nat
  logPa : Nat
  key : Option Nat
  tenant : Option (List Byte)
  used : List (Nat × Nat × Nat)
  stopped : Bool
  deriving DecidableEq, Repr

/-! ### The host's objects (R387..R391, R406, R407, R410..R414, R419) -/

/-- A completion entry to post (R389). -/
structure Completion where
  cid : U16
  head : Nat
  status : U16
  async : Bool
  result : U64
  deriving DecidableEq, Repr

/-- A queue pair of a function (R387..R390): its bases, depths and indices, the phase of the next pass, ERROR, what is
still to post, when it was mapped to a hardware slot and since when it waits for one (R384, R385). -/
structure QPair where
  fn : Nat
  q : Nat
  sqBase : Nat
  cqBase : Nat
  sqDepth : Nat
  cqDepth : Nat
  sqHead : Nat
  sqTail : Nat
  cqHead : Nat
  cqTail : Nat
  phase : Bool
  error : Bool
  posts : List Completion
  mapped : Option Nat
  wait : Option Nat
  deriving DecidableEq, Repr

/-- The admin registers of a function (R387). -/
structure FnRegs where
  fn : Nat
  asq : U64
  acq : U64
  depth : U32
  deriving DecidableEq, Repr

/-- A section of an object image (R122). -/
structure Section where
  typ : Nat
  owner : Nat
  target : Nat
  data : List Byte
  deriving DecidableEq, Repr

/-- A loaded object image: its number, the function that loaded it, where each task's code lies, and the virtual address at which
it begins (R452). -/
structure Image where
  id : Nat
  fn : Nat
  vf : Nat
  secs : List Section
  code : List (Nat × Nat × Nat)
  base : Nat
  deriving DecidableEq, Repr

/-- A policy blob that was accepted (R413). -/
structure Policy where
  pver : Nat
  tenant : List Byte
  flags : Nat
  saveBudget : U32
  segs : List (List Byte)
  regs : List (List Byte)
  devs : List (Nat × List Byte)
  digest : List Byte
  deriving DecidableEq, Repr

/-- A mapping of a VF (R411): kind, virtual address, length, and the device or I/O address it maps. -/
structure Mapping where
  id : Nat
  kind : Nat
  va : Nat
  len : Nat
  pa : Nat
  region : Nat
  deriving DecidableEq, Repr

/-- The states of a TDI (R419). -/
inductive Tdi where
  | unlocked
  | locked
  | run
  | error
  deriving DecidableEq, Repr

/-- A counter bank (R445, R421): its holder, the events selected, the counts, and whether it is frozen. -/
structure Bank where
  num : Nat
  holder : Option Nat
  sel : List Nat
  counts : List Nat
  frozen : Bool
  deriving DecidableEq, Repr

/-- A virtual function (R411, R413, R419, R421). `act` is a PAUSE or EVICT (true) still to complete: who asked for it. `counters`
are the banks saved when it was unbound (R422). -/
structure Vf where
  fn : Nat
  part : Nat
  policy : Option Policy
  tdi : Tdi
  events : U64
  paused : Bool
  evicted : Bool
  borrowed : Bool
  act : Option (Nat × Nat × U16 × Bool)
  maps : List Mapping
  counters : List Bank
  deriving DecidableEq, Repr

/-- A shared region (R406, R407): its name, version, length and declared digest, its publisher, the host address it is
filled from, where its bytes lie, how many of them the fill has read, whether it is sealed and withdrawn, and the contexts
granted it. -/
structure Region where
  id : Nat
  name : List Byte
  version : Nat
  len : Nat
  digest : List Byte
  fn : Nat
  host : Nat
  pa : Nat
  got : Nat
  sealed : Bool
  withdrawn : Bool
  grants : List Nat
  q : Nat
  cid : U16
  deriving DecidableEq, Repr

/-- What a handle names (R391, R412): a graph with the virtual function whose it is. -/
inductive Obj where
  | vf (fn : Nat)
  | image (id : Nat)
  | graph (serial vf : Nat)
  | mapping (id : Nat)
  | region (id : Nat)
  deriving DecidableEq, Repr

/-- The host side: registers, queue pairs, images, virtual functions, regions, the handles issued (value, function,
object), the messages sent to the host (MSI-X: function and vector, R386) and the answers to SPDM requests (R417:
function, block and measurement), the interface reports given (R419: function, and each MMIO range as BAR and size) and what the
host has read (R276, R387, R446): a function's BAR0 or host memory, the offset or address, and the bytes. -/
structure HostRec where
  regs : List FnRegs
  pairs : List QPair
  images : List Image
  vfs : List Vf
  regions : List Region
  handles : List (U64 × Nat × Obj)
  issued : Nat
  msix : List (Nat × Nat)
  spdm : List (Nat × Nat × Option (List Byte))
  reports : List (Nat × List (Nat × Nat))
  reads : List (Option Nat × Nat × List Byte)
  deriving DecidableEq, Repr

/-! ### Counters, buckets, links and management (R404, R405, R418, R420, R435..R451) -/

/-- A token bucket (R404, R405): port 0..23, 24 the host port, 25 the device bucket; 26 is the fill bucket of a publishing
function, which stands in place of the partition and has bytes in place of tokens (R407). -/
structure Bucket where
  port : Nat
  part : Nat
  rate : Nat
  depth : Nat
  share : Bool
  tok : Nat
  deriving DecidableEq, Repr

/-- One direction of a link (R420): its salt, the key number k of new flits, the keys the receiver holds in its two slots, the
flit counter, the keys of the flits not yet acknowledged, and whether a rotation is in progress. -/
structure LinkDir where
  salt : U32
  k : Nat
  slot0 : Option Nat
  slot1 : Option Nat
  count : Nat
  unacked : List Nat
  rotating : Bool
  deriving DecidableEq, Repr

/-- A fabric link (R435): trained, retraining since a time, or down. -/
inductive LinkState where
  | up
  | retraining (since : Nat)
  | down
  deriving DecidableEq, Repr

/-- A fabric port (R2, R420, R435). -/
structure Port where
  num : Nat
  st : LinkState
  out : LinkDir
  inw : LinkDir
  deriving DecidableEq, Repr

/-- A journal record (R447). -/
structure JRec where
  seq : Nat
  time : Nat
  kind : Nat
  fn : Nat
  opc : Nat
  cid : U16
  value : U64
  digest : List Byte
  deriving DecidableEq, Repr

/-- A layout commit (R449): its record and digest, who asked for it, the affected clusters, those that hold the digest, whether
PREPARED has reached flash (R450), whether it is being rolled back, and the head of its submission queue (R389). -/
structure Commit where
  bytes : List Byte
  digest : List Byte
  fn : Nat
  q : Nat
  cid : U16
  affected : Nat
  preps : Nat
  durable : Bool
  undo : Bool
  head : Nat
  deriving DecidableEq, Repr

/-- A power cycle of clusters (R402): since when they are gated, the partition, the extents to scrub, who asked for it,
and whether it belongs to a layout commit. -/
structure Gate where
  cls : Nat
  since : Nat
  part : Nat
  extents : Nat
  fn : Nat
  q : Nat
  cid : U16
  commit : Bool
  head : Nat
  deriving DecidableEq, Repr

/-- Extents passed to the scrubber (R402, R403, R439), and who waits for the report: nobody, for one that the patrol began. -/
structure Scrub where
  id : Nat
  extents : Nat
  fn : Nat
  q : Nat
  cid : U16
  head : Nat
  quiet : Bool
  deriving DecidableEq, Repr

/-- The configuration blob in module flash (R416): its version, each cluster's temperature limit in units of 0.5 °C, the repair
lists (excluded cells by core, excluded cores, and excluded HBM rows by an address in each), and its signature. -/
structure Blob where
  version : Nat
  limits : List Nat
  cells : List (Nat × Nat)
  cores : List Nat
  rows : List Nat
  sig : Nat
  deriving DecidableEq, Repr

/-- Management state: the device state (1 BRINGUP, 2 READY, 3 FAILED), the journal in SRAM and in flash, the device log, the
highest PVER of each tenant (R413), the HSS indices (R418), a layout in commit, power cycles and scrubs in progress, extents
withheld (R439), rows remapped at run time, the banks, buckets and ports, and the cycles in which the host port and the region
fill were busy in this interval, with the LOAD byte of the last (R405), the keys made so far with the scrub and the region key
among them (R415), the device's corrections by array (R433), the configuration blob in flash and the one that the last cold
reset loaded (R416), the extents that hold bytes under the scrub or the region key (R415), the cores that the repair lists
exclude (R438), and the identities attested over the ports, each with its port (R414). -/
structure Mgmt where
  state : Nat
  journal : List JRec
  flash : List JRec
  seq : Nat
  log : List LogRec
  pvers : List (List Byte × Nat)
  hssNext : Nat
  hssPersist : Nat
  commit : Option Commit
  gates : List Gate
  scrubs : List Scrub
  withheld : Nat
  remaps : List Nat
  power : Nat
  banks : List Bank
  buckets : List Bucket
  ports : List Port
  busy : Nat
  fill : Nat
  load : Nat
  keys : Nat
  scrubKey : Nat
  regionKey : Nat
  corrected : Vector Nat 16
  blob : Blob
  loaded : Blob
  touched : Nat
  excluded : List Nat
  attested : List (List Byte × Nat)
  deriving DecidableEq, Repr

/-- What the outside world does (log 1): a step of the table that only it takes, an access of the host to host memory or to a
function's BAR0 (R276, R387), a word of an array that is upset, so that it can be corrected or fails (R423; log 20), a request for
an interface report (R419), an identity attested over a port (R414), a flit that arrives under a KID (R420), and another
configuration blob put into module flash (R416). -/
inductive Input where
  | event (i : Instr)
  | hostWrite (a : Nat) (bs : List Byte)
  | hostRead (a n : Nat)
  | barRead (fn off n : Nat)
  | barWrite (fn off n : Nat) (v : U64)
  | upset (arr loc : Nat) (fails : Bool)
  | report (fn : Nat)
  | attest (port : Nat) (digest : List Byte)
  | flit (port kid : Nat)
  | flash (b : Blob)
  deriving DecidableEq, Repr

/-- The device beyond its cores: the cycles since cold reset, the failing and correctable words, the messages, the refusal
lists, the TLBs and walks, the bundles being fetched, the remembered requester of each line on which an atomic was
performed (R239), the queued write-backs, jobs, suspended contexts, engines, the channel that each copy engine served last
(R245), the instances that have ended in this cycle (R318), partitions, host and management. -/
structure Dev where
  now : Nat
  bad : List (Nat × Nat)
  weak : List (Nat × Nat)
  badTags : List Nat
  net : List Msg
  nextMsg : Nat
  refs : List RefEntry
  tlb : List (Nat × List Pte)
  ctlb : List (Nat × List Pte)
  walks : List Walk
  walked : List WalkDone
  removals : List Removal
  fetches : List (Nat × Party)
  lines : List (Nat × Party)
  writebacks : List Nat
  jobs : List Job
  ctxs : List SavedCtx
  chans : List Channel
  turns : List (Nat × Nat)
  colls : List Coll
  batches : List Batch
  ends : List NodeEnd
  serial : Nat
  parts : List Part
  host : HostRec
  mgmt : Mgmt
  deriving DecidableEq, Repr

/-- The state of the machine: the slot whose turn it is, its sibling slot, their core, the other cores in turn order,
the memories, the device, the events from outside still to come with their times, and the counter of free values. -/
structure State where
  me : Thread
  sib : Thread
  core : Core
  rest : List CoreRec
  mems : Mems
  dev : Dev
  inputs : List (Nat × Input)
  free : Nat
  deriving DecidableEq, Repr

/-! ### Reset (R28, R451; the values the spec gives none for: log 5) -/

def Regs.reset : Regs where
  g := Vector.replicate 32 0
  q := Vector.replicate 16 0
  v := Vector.replicate 32 0
  b := Vector.replicate 3 0
  m := Vector.replicate 16 0
  p := #v[true, false, false, false, false, false, false, false]
  k := #v[BitVec.allOnes 64, 0, 0, 0, 0, 0, 0, 0]
  msL := Vector.replicate 4 0
  msS := Vector.replicate 4 0
  xsL := Vector.replicate 4 0
  xsS := Vector.replicate 4 0
  tc := Vector.replicate 4 0x8000000000000000

def TrapRegs.reset : TrapRegs := ⟨0, 0, 0, 0, 0, 0, 0, 0, 0, 0, 0, 0, 0, 0, 0, 0⟩

def LoopRegs.reset : LoopRegs := ⟨Vector.replicate 8 0, Vector.replicate 8 0, Vector.replicate 8 0, 0⟩

def MacroRegs.reset : MacroRegs := ⟨0, 0, 0, 0, 0, 0, false, 8, false⟩

/-- The special registers at core reset, with the generator's state (R275). -/
def Sprs.reset (g0 g1 : U64) : Sprs where
  bundle := 0
  stat := 0
  mmode := 0
  wstat := 0
  rfault := 0
  rfaddr := 0
  qcredit := 0
  tcptr := 0
  mfault := 0
  mecc := 0
  qcfg := Vector.replicate 16 0
  qptr := Vector.replicate 16 0
  aemu := 0
  aemuc := 0
  cmask := 0xFFFF
  rngs0 := g0
  rngs1 := g1
  dstop := 0
  latch := (0, 0)
  lprof := Vector.replicate 145 0
  eccnt := Vector.replicate 16 0

def CtxRegs.reset : CtxRegs where
  ctxid := 0
  left := 0
  req := false
  pdisc := Vector.replicate 12 0
  accown := 0
  accdirty := Vector.replicate 32 0
  accbase := 0
  accxfer := 0
  accfail := 0
  ptroot := 0

def Iss.reset : Iss := ⟨0, 0, false, 0, .issued, none, false, none, false, [], 0⟩

/-- A slot at core reset with a random-bit queue of n words filled from seed word s1 (R28, R72, R273). -/
def Thread.reset (slot1 : Bool) (n : Nat) (s1 : U64) : Thread :=
  let r := rngWords n rngSeed0 s1
  { slot1 := slot1
    regs := Regs.reset
    sp := Sprs.reset r.1.1 r.1.2
    trap := TrapRegs.reset
    loop := LoopRegs.reset
    mac := MacroRegs.reset
    cx := CtxRegs.reset
    pc := 0
    priv := true
    infl := []
    f0 := none
    f1 := none
    orphans := []
    tabq := []
    rnq := r.2
    mq := []
    follows := []
    nextId := Vector.replicate 16 1
    pend31 := false
    pend32 := false
    pend50 := false
    stopped := false
    loadId := 0
    run := .idle
    bound := none
    iss := Iss.reset
    fetchFault := none
    watch := none
    ports := 0
    yielded := none }

def Tables.reset : Tables :=
  ⟨Vector.replicate 17 0, Vector.replicate 16 ⟨0, Vector.replicate 16 0⟩, Vector.replicate 16 0x3F80⟩

/-- A core at core reset (R28, R273). -/
def CoreRec.reset (phys : Nat) : CoreRec :=
  let s1 := BitVec.ofNat 64 (phys + 1)
  ⟨⟨phys, 0, false, false, Tables.reset, []⟩, Thread.reset false 64 s1, Thread.reset true 64 s1⟩

def Mems.reset : Mems := ⟨[], [], [], [], [], []⟩

def HostRec.reset : HostRec := ⟨[], [], [], [], [], [], 0, [], [], [], []⟩

/-- A direction of a link that is not trained. -/
def LinkDir.reset : LinkDir := ⟨0, 0, none, none, 0, [], false⟩

/-- The configuration blob that bring-up has loaded: nothing is excluded, and the version, limits and signature are open
(log 50). -/
def Blob.reset : Blob :=
  ⟨Config.secret 4 0 % (2 ^ 32 - 1) + 1, (List.range 32).map fun c => Config.secret 8 c % 256, [], [], [], Config.secret 7 0⟩

/-- Management after bring-up (R451): the record of KIND 8 is written, and no partition exists. -/
def Mgmt.reset : Mgmt where
  state := 2
  journal := [⟨1, 0, 8, 0, 0, 0, 0, []⟩]
  flash := []
  seq := 1
  log := []
  pvers := []
  hssNext := 0
  hssPersist := 0
  commit := none
  gates := []
  scrubs := []
  withheld := 0
  remaps := []
  power := 0
  banks := []
  buckets := []
  ports := (List.range 24).map fun n => ⟨n, .down, LinkDir.reset, LinkDir.reset⟩
  busy := 0
  fill := 0
  load := 0
  keys := 2
  scrubKey := 1
  regionKey := 2
  corrected := Vector.replicate 16 0
  blob := Blob.reset
  loaded := Blob.reset
  touched := 0
  excluded := []
  attested := []

def Dev.reset : Dev where
  now := 0
  bad := []
  weak := []
  badTags := []
  net := []
  nextMsg := 0
  refs := []
  tlb := []
  ctlb := []
  walks := []
  walked := []
  removals := []
  fetches := []
  lines := []
  writebacks := []
  jobs := []
  ctxs := []
  chans := []
  turns := []
  colls := []
  batches := []
  ends := []
  serial := 0
  parts := []
  host := HostRec.reset
  mgmt := Mgmt.reset

/-- The machine right after reset: every core under core reset and idle, no partition, the device READY (R28, R451). -/
def State.reset : State where
  me := (CoreRec.reset 0).t0
  sib := (CoreRec.reset 0).t1
  core := (CoreRec.reset 0).core
  rest := (List.range 159).map fun n => CoreRec.reset (n + 1)
  mems := Mems.reset
  dev := Dev.reset
  inputs := []
  free := 0

/-- Why a step could stop with a fault: for no reason. Every error of R142 is a trap, and every access to an absent
place is a trap, an error response or a named no-effect of the spec, so no meaning raises a fault. -/
inductive Fault where
  deriving DecidableEq, Repr

/-- Why a step could be refused. -/
inductive Refusal where
  /-- No meaning is modelled for the instruction; raised by an arm of exec alone. Safe: nothing follows from it. -/
  | notModelled (mnemonic : String)
  deriving DecidableEq, Repr

end Sys2Proof.Machine
end

