-- ==== Sys2Proof/Machine/Operands.lean ====
section
/-! DEFINITION. Every operand form of R32, R33 and R100: what a source reads, what an immediate is, and what a lane
mask governs. -/
namespace Sys2Proof

/-- The sign-extended immediate of R100: 11 bits, or 19 bits under a header. -/
def Imm.val : Imm → U64
  | .narrow i => i.signExtend 64
  | .wide x i => (x ++ i).signExtend 64

/-- The unsigned immediate of `ldis` (R128). -/
def Imm.uval : Imm → U64
  | .narrow i => i.zeroExtend 64
  | .wide x i => (x ++ i).zeroExtend 64

/-- The zero-extended 9-bit or 17-bit immediate of the SH and CF formats (R100). -/
def Imm9.val : Imm9 → U64
  | .narrow i => i.zeroExtend 64
  | .wide x i => (x ++ i).zeroExtend 64

/-- The displacement of an SM form (R100): 8 or 16 bits, sign-extended. -/
def Disp.val : Disp → U64
  | .narrow i => i.signExtend 64
  | .wide x i => (x ++ i).signExtend 64

end Sys2Proof

namespace Sys2Proof.Machine

/-- `g r`; g0 reads zero (R29). -/
def Regs.readG (r : Regs) (i : U5) : U64 := if i = 0 then 0 else r.g[i.toNat]

/-- `p i`; p0 reads one (R29). -/
def Regs.readP (r : Regs) (i : U3) : Bool := if i = 0 then true else r.p[i.toNat]

/-- `k i`; k0 reads all ones (R29). -/
def Regs.readK (r : Regs) (i : U3) : U64 := if i = 0 then BitVec.allOnes 64 else r.k[i.toNat]

/-- `g i` with a new value; a write to g0 leaves it unchanged (R29). -/
def Regs.writeG (r : Regs) (i : U5) (x : U64) : Regs := if i = 0 then r else { r with g := r.g.set i.toNat x i.isLt }

/-- `p i` with a new value; a write to p0 leaves it unchanged (R29). -/
def Regs.writeP (r : Regs) (i : U3) (x : Bool) : Regs := if i = 0 then r else { r with p := r.p.set i.toNat x i.isLt }

/-- `k i` with a new value; a write to k0 leaves it unchanged (R29). -/
def Regs.writeK (r : Regs) (i : U3) (x : U64) : Regs := if i = 0 then r else { r with k := r.k.set i.toNat x i.isLt }

/-- `v i` with a new value. -/
def Regs.writeV (r : Regs) (i : U5) (x : Vec) : Regs := { r with v := r.v.set i.toNat x i.isLt }

/-- `m i` with a new value. -/
def Regs.writeM (r : Regs) (i : U4) (x : Mom) : Regs := { r with m := r.m.set i.toNat x i.isLt }

/-- A six-bit scalar source (R32). -/
def Regs.src (r : Regs) : Src → U64
  | .g i => r.readG i
  | .q a => r.q[a.toNat]
  | .c k => k.zeroExtend 64 - 8

/-- A six-bit vector source (R32). -/
def Regs.vsrc (r : Regs) : VSrc → Vec
  | .v i => r.v[i.toNat]
  | .b0 => r.b[0]
  | .b1 => r.b[1]
  | .b2 => r.b[2]

/-- The scalar source of the slot at issue. -/
def State.src (s : State) (x : Src) : U64 := s.me.regs.src x
/-- The vector source of the slot at issue. -/
def State.vsrc (s : State) (x : VSrc) : Vec := s.me.regs.vsrc x
/-- The moment source of the slot at issue. -/
def State.msrc (s : State) (x : U4) : Mom := s.me.regs.m[x.toNat]
/-- The predicate of the slot at issue. -/
def State.pred (s : State) (p : U3) : Bool := s.me.regs.readP p
/-- The lane mask of the slot at issue. -/
def State.kmask (s : State) (k : U3) : U64 := s.me.regs.readK k

/-- The 2048 bits that n lanes' bits govern (R30): lane j's 32 bits are all equal to bit j of the mask. -/
def laneBits (k : U64) : Nat → Nat
  | 0 => 0
  | n + 1 => laneBits k n + if k.getLsbD n then 0xFFFFFFFF * 2 ^ (32 * n) else 0

/-- The lanes of a mask as a mask of bits (R30). -/
def laneMask (k : U64) : Vec := BitVec.ofNat 2048 (laneBits k 64)

/-- New lanes where the mask has a 1, old lanes elsewhere. -/
def mergeLanes (k : U64) (new old : Vec) : Vec := (new &&& laneMask k) ||| (old &&& ~~~ laneMask k)

/-- The lanes that govern 64-bit elements: bit 2i stands for lanes 2i and 2i+1 (R30). -/
def pairMask (k : U64) : U64 := (k &&& 0x5555555555555555) ||| ((k &&& 0x5555555555555555) <<< 1)

/-- The address of a bundle (R18). -/
def pcAddr (p : Pc) : U64 := p ++ 0#4

/-- The bundle at an address whose bits [3:0] are zero (R18). -/
def pcOf (a : U64) : Pc := a.extractLsb' 4 60

end Sys2Proof.Machine
end

