-- ==== Sys2Proof/Machine/Tx.lean ====
section
/-! DEFINITION. The memories' primitive operations, and the actions that the longer meanings are written as: changes
of the state whose every change of a memory is one of those primitives. -/
namespace Sys2Proof.Machine

/-- The byte memories. -/
inductive Space where
  | spl
  | hbm
  | host
  | acc
  deriving DecidableEq, Repr

/-- One byte of a memory (what is not listed reads as 0, log 6). -/
def Mems.byte (m : Mems) (sp : Space) (a : Nat) : Byte :=
  spGet 0 (match sp with | .spl => m.spl | .hbm => m.hbm | .host => m.host | .acc => m.acc) a

/-- The memory with one byte written. -/
def Mems.setByte (m : Mems) (sp : Space) (a : Nat) (b : Byte) : Mems :=
  match sp with
  | .spl => { m with spl := spSet 0 a b m.spl }
  | .hbm => { m with hbm := spSet 0 a b m.hbm }
  | .host => { m with host := spSet 0 a b m.host }
  | .acc => { m with acc := spSet 0 a b m.acc }

/-- The memory with n bytes from lo on at what nothing has written reads as. -/
def Mems.clear (m : Mems) (sp : Space) (lo n : Nat) : Mems :=
  match sp with
  | .spl => { m with spl := spClear lo n m.spl }
  | .hbm => { m with hbm := spClear lo n m.hbm }
  | .host => { m with host := spClear lo n m.host }
  | .acc => { m with acc := spClear lo n m.acc }

/-- A cell's presence state (R216). -/
def Mems.tag (m : Mems) (k : Nat) : Tag := spGet Tag.reset m.tags k
def Mems.setTag (m : Mems) (k : Nat) (t : Tag) : Mems := { m with tags := spSet Tag.reset k t m.tags }

/-- A control-store entry (R267). -/
def Mems.ctl (m : Mems) (k : Nat) : U128 := spGet 0 m.cst k
def Mems.setCtl (m : Mems) (k : Nat) (x : U128) : Mems := { m with cst := spSet 0 k x m.cst }

/-- Every memory is in canonical form. -/
def Mems.wf (m : Mems) : Bool :=
  spWf (0 : Byte) m.spl && spWf (0 : Byte) m.hbm && spWf (0 : Byte) m.host && spWf (0 : Byte) m.acc &&
    spWf Tag.reset m.tags && spWf (0 : U128) m.cst

/-- The memories that the primitive operations reach. -/
inductive MemReach (m : Mems) : Mems → Prop where
  | refl : MemReach m m
  | byte {n : Mems} (h : MemReach m n) (sp : Space) (a : Nat) (b : Byte) : MemReach m (n.setByte sp a b)
  | clear {n : Mems} (h : MemReach m n) (sp : Space) (lo k : Nat) : MemReach m (n.clear sp lo k)
  | tag {n : Mems} (h : MemReach m n) (k : Nat) (t : Tag) : MemReach m (n.setTag k t)
  | ctl {n : Mems} (h : MemReach m n) (k : Nat) (x : U128) : MemReach m (n.setCtl k x)

/-- A state reached from s0, with the evidence that its memories were reached by primitives. -/
structure Tx (s0 : State) where
  st : State
  ok : MemReach s0.mems st.mems

/-- An action on a state that begins at s0. -/
abbrev Act (s0 : State) (α : Type) := StateM (Tx s0) α

/-- The state an action leaves. -/
def runAct (f : (s0 : State) → Act s0 Unit) (s : State) : State := (StateT.run (f s) ⟨s, .refl⟩ : Unit × Tx s).2.st

namespace Act
variable {s0 : State}

/-- The state now. -/
def cur : Act s0 State := fun t => (t.st, t)

/-- A change that leaves the memories alone. -/
def upd (f : State → State) (h : ∀ s, (f s).mems = s.mems := by intro; rfl) : Act s0 Unit :=
  fun t => ((), ⟨f t.st, h t.st ▸ t.ok⟩)

/-- A change of the executing slot. -/
def me (f : Thread → Thread) : Act s0 Unit := upd fun s => { s with me := f s.me }

/-- A change of the device. -/
def dev (f : Dev → Dev) : Act s0 Unit := upd fun s => { s with dev := f s.dev }

/-- One byte written. -/
def byte (sp : Space) (a : Nat) (b : Byte) : Act s0 Unit :=
  fun t => ((), ⟨{ t.st with mems := t.st.mems.setByte sp a b }, t.ok.byte sp a b⟩)

/-- Bytes written in rising addresses. -/
def bytes (sp : Space) (a : Nat) : List Byte → Act s0 Unit
  | [] => pure ()
  | b :: bs => do byte sp a b; bytes sp (a + 1) bs

/-- A range put back to what nothing has written reads as. -/
def clear (sp : Space) (lo k : Nat) : Act s0 Unit :=
  fun t => ((), ⟨{ t.st with mems := t.st.mems.clear sp lo k }, t.ok.clear sp lo k⟩)

/-- A presence tag written. -/
def tag (k : Nat) (x : Tag) : Act s0 Unit :=
  fun t => ((), ⟨{ t.st with mems := t.st.mems.setTag k x }, t.ok.tag k x⟩)

/-- A control-store entry written. -/
def ctl (k : Nat) (x : U128) : Act s0 Unit :=
  fun t => ((), ⟨{ t.st with mems := t.st.mems.setCtl k x }, t.ok.ctl k x⟩)

end Act

end Sys2Proof.Machine
end

