-- ==== Sys2Proof/Machine/Bits.lean ====
section
/-! DEFINITION. Byte order (R7: little-endian everywhere) and where a slot's scratchpad lies. -/
namespace Sys2Proof.Machine

/-- The n low bytes of a number, least significant first. -/
def leBytes : Nat → Nat → List Byte
  | 0, _ => []
  | n + 1, x => BitVec.ofNat 8 x :: leBytes n (x / 256)

/-- The number of bytes, least significant first. -/
def leNat : List Byte → Nat
  | [] => 0
  | b :: t => b.toNat + 256 * leNat t

/-- n zero bytes. -/
def zeroBytes (n : Nat) : List Byte := List.replicate n 0

/-- n bytes from an address on. -/
def Mems.read (m : Mems) (sp : Space) (a : Nat) : Nat → List Byte
  | 0 => []
  | n + 1 => m.byte sp a :: m.read sp (a + 1) n

/-- The little-endian number of n bytes. -/
def Mems.nat (m : Mems) (sp : Space) (a n : Nat) : Nat := leNat (m.read sp a n)

/-- A number of n bytes at an offset of a byte list. -/
def bytesAt (bs : List Byte) (off n : Nat) : Nat := leNat ((bs.drop off).take n)

/-- Whether a physical core is an S-core (R3, R16). -/
def isS (phys : Nat) : Bool := phys % 5 == 4
/-- The cluster of a physical core (R3). -/
def clusterOf (phys : Nat) : Nat := phys / 5
/-- The key of a scratchpad byte of a physical core. -/
def splKey (phys off : Nat) : Nat := phys * 1048576 + off
/-- The key of a cell's tag. -/
def cellKey (phys cell : Nat) : Nat := phys * 1024 + cell
/-- The key of an accumulator byte. -/
def accKey (phys granule byte : Nat) : Nat := phys * 8388608 + granule * 4096 + byte

/-- The first cell of a slot's part of the scratchpad (R56). -/
def firstCell (c : Core) (slot1 : Bool) : Nat := if c.rsplit && slot1 then 384 else 0
/-- The cells of a slot's part of the scratchpad (R16, R56). -/
def cellCount (c : Core) : Nat := if isS c.phys then 256 else if c.rsplit then 384 else 768
/-- The bytes of the slot's scratchpad (R16, R56, R61). -/
def State.splSize (s : State) : Nat := cellCount s.core * 1024
/-- The key of byte `off` of the slot's scratchpad. -/
def State.splAt (s : State) (off : Nat) : Nat := splKey s.core.phys (firstCell s.core s.me.slot1 * 1024 + off)
/-- The first granule of a slot's part of the accumulator store (R56). -/
def firstGranule (c : Core) (slot1 : Bool) : Nat := if c.rsplit && slot1 then 1024 else 0
/-- The granules a slot names (R28, R56, R61). -/
def granuleCount (c : Core) : Nat := if c.rsplit then 1024 else 2048

/-- Bits [hi:lo] of a 64-bit value as a number. -/
def bitsOf {w : Nat} (x : BitVec w) (hi lo : Nat) : Nat := (x.extractLsb' lo (hi - lo + 1)).toNat

end Sys2Proof.Machine
end

