-- ==== Sys2Proof/Machine/Num.lean ====
section
/-! DEFINITION. Exact numbers, the floating-point formats and their one rounding (R63..R73), and the elementary
functions that R89, R90, R87 and R171 round once from their exact value. -/
namespace Sys2Proof.Machine

/-- A floating-point format (R65): exponent and mantissa widths and bias; E4M3 has no infinity. -/
structure Fmt where
  eb : Nat
  mb : Nat
  bias : Nat
  noInf : Bool
  deriving DecidableEq, Repr

def fp32 : Fmt := ⟨8, 23, 127, false⟩
def bf16 : Fmt := ⟨8, 7, 127, false⟩
def fp16 : Fmt := ⟨5, 10, 15, false⟩
def e4m3 : Fmt := ⟨4, 3, 7, true⟩
def e5m2 : Fmt := ⟨5, 2, 15, false⟩

/-- The format of a floating element type (R104). -/
def fmtOf (et : Nat) : Fmt :=
  match et with
  | 0 => fp32
  | 1 => bf16
  | 2 => fp16
  | 3 => e4m3
  | _ => e5m2

def Fmt.width (F : Fmt) : Nat := 1 + F.eb + F.mb
def Fmt.signBit (F : Fmt) : Nat := 2 ^ (F.eb + F.mb)
/-- The canonical NaN (R66). -/
def Fmt.nan (F : Fmt) : Nat :=
  if F.noInf then 2 ^ (F.eb + F.mb) - 1 else (2 ^ F.eb - 1) * 2 ^ F.mb + 2 ^ (F.mb - 1)
/-- The pattern of +∞ of a format that has one. -/
def Fmt.inf (F : Fmt) : Nat := (2 ^ F.eb - 1) * 2 ^ F.mb
/-- The pattern of the largest finite value. -/
def Fmt.maxFinite (F : Fmt) : Nat := if F.noInf then F.nan - 1 else F.inf - 1
/-- The exponent of the smallest normal. -/
def Fmt.emin (F : Fmt) : Int := 1 - (F.bias : Int)

/-- A dyadic number n × 2^e. -/
structure Dy where
  n : Int
  e : Int
  deriving DecidableEq, Repr

def Dy.add (a b : Dy) : Dy :=
  if a.e ≤ b.e then ⟨a.n + b.n * 2 ^ (b.e - a.e).toNat, a.e⟩ else ⟨a.n * 2 ^ (a.e - b.e).toNat + b.n, b.e⟩
def Dy.mul (a b : Dy) : Dy := ⟨a.n * b.n, a.e + b.e⟩
def Dy.neg (a : Dy) : Dy := ⟨-a.n, a.e⟩
def Dy.lt (a b : Dy) : Bool := (Dy.add a b.neg).n < 0
def Dy.le (a b : Dy) : Bool := (Dy.add a b.neg).n ≤ 0
/-- The floor of the number × 2^k. -/
def Dy.floorAt (a : Dy) (k : Nat) : Int :=
  if 0 ≤ a.e + k then a.n * 2 ^ (a.e + k).toNat else a.n / 2 ^ (-(a.e + k)).toNat

/-- A value of a floating-point format, or an exact result over such values. -/
inductive FV where
  | nan (signalling : Bool)
  | inf (neg : Bool)
  | zero (neg : Bool)
  | fin (x : Dy)
  deriving DecidableEq, Repr

def FV.isNan : FV → Bool
  | .nan _ => true
  | _ => false
def FV.isSnan : FV → Bool
  | .nan s => s
  | _ => false
def FV.isInf : FV → Bool
  | .inf _ => true
  | _ => false
def FV.isZero : FV → Bool
  | .zero _ => true
  | _ => false
/-- The sign; a NaN counts as positive. -/
def FV.isNeg : FV → Bool
  | .nan _ => false
  | .inf s => s
  | .zero s => s
  | .fin x => x.n < 0
def FV.neg : FV → FV
  | .nan s => .nan s
  | .inf s => .inf (!s)
  | .zero s => .zero (!s)
  | .fin x => .fin x.neg
/-- A non-negative or negative dyadic as an FV; an exact zero is +0. -/
def FV.ofDy (x : Dy) : FV := if x.n == 0 then .zero false else .fin x

/-- Decode(F, bits) of R65, R66. -/
def fdecode (F : Fmt) (bits : Nat) : FV :=
  let s := bits / F.signBit % 2 == 1
  let m := bits % 2 ^ F.mb
  let e := bits / 2 ^ F.mb % 2 ^ F.eb
  let sg : Int := if s then -1 else 1
  if e == 0 then if m == 0 then .zero s else .fin ⟨sg * m, F.emin - F.mb⟩
  else if F.noInf && bits % F.signBit == F.nan then .nan false
  else if !F.noInf && e == 2 ^ F.eb - 1 then
    if m == 0 then .inf s else .nan (8 < F.width && m < 2 ^ (F.mb - 1))
  else .fin ⟨sg * (m + 2 ^ F.mb : Nat), (e : Int) - F.bias - F.mb⟩

/-- A non-zero real: magnitude (m + δ) × 2^e with δ = 0, or 0 < δ < 1 when `stk`. -/
structure Ex where
  neg : Bool
  m : Nat
  e : Int
  stk : Bool
  deriving DecidableEq, Repr

def Dy.toEx (x : Dy) : Ex := ⟨x.n < 0, x.n.natAbs, x.e, false⟩

/-- `%stat` flags as a mask (R48). -/
def flIV : U16 := 0x0001
def flDZ : U16 := 0x0002
def flOF : U16 := 0x0004
def flUF : U16 := 0x0008
def flNX : U16 := 0x0010
def flSAT : U16 := 0x0800
def flVSAT : U16 := 0x1000
def flACCSAT : U16 := 0x2000
def flMCLAMP : U16 := 0x4000
def flSCOPEMIS : U16 := 0x8000

/-- An encoding and the flags its computation sets. -/
structure FR where
  bits : Nat
  fl : U16
  deriving DecidableEq, Repr

/-- The magnitude of x rounded to a multiple of 2^q by R70, in units of 2^q, and whether it is inexact. RSR takes hi
when the draw is below Frac16 (R73). -/
def roundAt (rm draw : Nat) (x : Ex) (q : Int) : Nat × Bool :=
  if x.e ≥ q then (x.m * 2 ^ (x.e - q).toNat, x.stk)
  else
    let sh := (q - x.e).toNat
    let lo := x.m / 2 ^ sh
    let r := x.m % 2 ^ sh
    let half := 2 ^ (sh - 1)
    if r == 0 && !x.stk then (lo, false)
    else
      let up : Bool :=
        match rm with
        | 0 => half < r || (r == half && (x.stk || lo % 2 == 1))
        | 1 => false
        | 2 => !x.neg
        | 3 => x.neg
        | _ =>
          let f := r * 65536
          if x.neg then !(draw < 65536 - (f / 2 ^ sh + if f % 2 ^ sh == 0 && !x.stk then 0 else 1))
          else draw < f / 2 ^ sh
      (if up then lo + 1 else lo, true)

/-- Round(x, F, rm, sat) of R70 for a non-zero x, with the flags of R68, and VSAT where R167 marks it. -/
def fround (F : Fmt) (rm : Nat) (sat : Bool) (draw : Nat) (x : Ex) : FR :=
  let E : Int := (Nat.log2 x.m : Int) + x.e
  let q : Int := (if F.emin ≤ E then E else F.emin) - F.mb
  let (mag0, nx) := roundAt rm draw x q
  let carry := mag0 == 2 ^ (F.mb + 1)
  let mag := if carry then 2 ^ F.mb else mag0
  let q' := if carry then q + 1 else q
  let sgn := if x.neg then F.signBit else 0
  let bexp := (q' + F.mb + F.bias).toNat
  let pat := if mag < 2 ^ F.mb then mag else bexp * 2 ^ F.mb + (mag - 2 ^ F.mb)
  if F.maxFinite < pat then
    let inward := rm == 1 || (rm == 3 && !x.neg) || (rm == 2 && x.neg)
    let fl := flOF ||| flNX
    if sat then ⟨sgn + F.maxFinite, fl ||| flVSAT⟩
    else if inward then ⟨sgn + F.maxFinite, fl⟩
    else if F.noInf then ⟨F.nan, fl⟩
    else ⟨sgn + F.inf, fl⟩
  else
    let tiny := E < F.emin && (roundAt rm draw x (E - F.mb)).1 < 2 ^ ((F.emin - (E - F.mb)).toNat)
    ⟨sgn + pat, (if nx then flNX else 0) ||| (if nx && tiny then flUF else 0)⟩

/-- Round of an exact result that may be special: the table of R167 for an infinite source. -/
def froundV (F : Fmt) (rm : Nat) (sat : Bool) (draw : Nat) (v : FV) : FR :=
  match v with
  | .nan _ => ⟨F.nan, 0⟩
  | .inf s =>
    if F.noInf then
      if sat then ⟨(if s then F.signBit else 0) + F.maxFinite, flVSAT ||| flOF ||| flNX⟩ else ⟨F.nan, flIV⟩
    else ⟨(if s then F.signBit else 0) + F.inf, 0⟩
  | .zero s => ⟨if s then F.signBit else 0, 0⟩
  | .fin x => fround F rm sat draw x.toEx

/-- The bits alone. -/
def rbits (F : Fmt) (rm : Nat) (v : FV) : Nat := (froundV F rm false 0 v).bits

/-- The exact sum (R67): `down` for rounding toward −∞, where an exact zero sum is −0. -/
def FV.add (down : Bool) (a b : FV) : FV :=
  match a, b with
  | .nan s, _ => .nan s
  | _, .nan s => .nan s
  | .inf s, .inf t => if s == t then .inf s else .nan false
  | .inf s, _ => .inf s
  | _, .inf s => .inf s
  | .zero s, .zero t => if s == t then .zero s else .zero down
  | .zero _, .fin y => .fin y
  | .fin x, .zero _ => .fin x
  | .fin x, .fin y => if (x.add y).n == 0 then .zero down else .fin (x.add y)

/-- The exact product. -/
def FV.mul (a b : FV) : FV :=
  match a, b with
  | .nan s, _ => .nan s
  | _, .nan s => .nan s
  | .inf _, .zero _ => .nan false
  | .zero _, .inf _ => .nan false
  | .inf s, y => .inf (s != y.isNeg)
  | x, .inf s => .inf (x.isNeg != s)
  | .zero s, y => .zero (s != y.isNeg)
  | x, .zero s => .zero (x.isNeg != s)
  | .fin x, .fin y => .fin (x.mul y)

/-- a < b of two numbers that are not NaN; −0 equals +0. -/
def FV.lt (a b : FV) : Bool :=
  match a, b with
  | .nan _, _ => false
  | _, .nan _ => false
  | .inf s, .inf t => s && !t
  | .inf s, _ => s
  | _, .inf t => !t
  | .zero _, .zero _ => false
  | .zero _, .fin y => 0 < y.n
  | .fin x, .zero _ => x.n < 0
  | .fin x, .fin y => x.lt y

/-- a = b as numbers. -/
def FV.eqv (a b : FV) : Bool := !a.isNan && !b.isNan && !a.lt b && !b.lt a

/-- The integer square root, bit by bit from 2^k downward. -/
def isqrtFrom (n : Nat) : Nat → Nat → Nat
  | 0, r => if (r + 1) * (r + 1) ≤ n then r + 1 else r
  | k + 1, r => isqrtFrom n k (if (r + 2 ^ (k + 1)) * (r + 2 ^ (k + 1)) ≤ n then r + 2 ^ (k + 1) else r)

/-- The integer square root. -/
def isqrt (n : Nat) : Nat := isqrtFrom n (Nat.log2 n / 2 + 1) 0

/-- The exact quotient of two non-zero dyadics, to more bits than any format needs. -/
def Dy.quot (a b : Dy) : Ex :=
  let num := a.n.natAbs * 2 ^ 256
  let den := b.n.natAbs
  ⟨(a.n < 0) != (b.n < 0), num / den, a.e - b.e - 256, num % den != 0⟩

/-- The exact square root of a positive dyadic. -/
def Dy.root (a : Dy) : Ex :=
  let odd := a.e % 2 == 1
  let n := a.n.natAbs * (if odd then 2 else 1) * 2 ^ 256
  let e := (if odd then a.e - 1 else a.e) - 256
  let r := isqrt n
  ⟨false, r, e / 2, r * r != n⟩

/-- The exact reciprocal square root of a positive dyadic. -/
def Dy.rroot (a : Dy) : Ex :=
  let odd := a.e % 2 == 1
  let n := a.n.natAbs * (if odd then 2 else 1)
  let e := if odd then a.e - 1 else a.e
  let k := 2 * (256 + Nat.log2 n)
  let r := isqrt (2 ^ k / n)
  ⟨false, r, -(e / 2) - (k / 2 : Nat), r * r * n != 2 ^ k⟩

/-! Fixed-point values scaled by 2^640. Each function below is within 2^40 units of its exact value. -/

def fxOne : Nat := 2 ^ 640
def fxLn2 : Nat := 0xb17217f7d1cf79abc9e3b39803f2f6af40f343267298b62d8a0d175b8baafa2be7b876206debac98559552fb4afa1b10ed2eae35c138214427573b291169b8253e96ca16224ae8c51acbda11317c387e
def fxPi : Nat := 0x3243f6a8885a308d313198a2e03707344a4093822299f31d0082efa98ec4e6c89452821e638d01377be5466cf34e90c6cc0ac29b7c97c50dd3f84d5b5b54709179216d5d98979fb1bd1310ba698dfb5ac

/-- Σ term, with the next term term × r / k: the series of e^r. -/
def expSeries (r : Nat) : Nat → Nat → Nat → Nat → Nat
  | 0, _, _, acc => acc
  | f + 1, k, t, acc =>
    let t' := t * r / fxOne / k
    expSeries r f (k + 1) t' (acc + t')

/-- e^r for 0 ≤ r < 1. -/
def fxExp (r : Nat) : Nat := expSeries r 150 1 fxOne fxOne

/-- e^x as (v, k): v × 2^k, with v scaled and in about [1, 2). -/
def expParts (x : Dy) : Nat × Int :=
  let X := x.floorAt 640
  let k := X / (fxLn2 : Int)
  (fxExp (X - k * fxLn2).toNat, k)

/-- A scaled value times 2^k. -/
def shiftFx (v : Nat) (k : Int) : Nat := if 0 ≤ k then v * 2 ^ k.toNat else v / 2 ^ (-k).toNat

/-- Σ y^(2i+1)/(2i+1). -/
def atanhSeries (y2 : Nat) : Nat → Nat → Nat → Nat → Nat
  | 0, _, _, acc => acc
  | f + 1, k, t, acc => atanhSeries y2 f (k + 2) (t * y2 / fxOne) (acc + t / k)

/-- ln m for a scaled m in [1, 2). -/
def fxLn (m : Nat) : Nat :=
  let y := (m - fxOne) * fxOne / (m + fxOne)
  2 * atanhSeries (y * y / fxOne) 220 1 y 0

/-- The alternating series of sine (from k = 2) and cosine (from k = 1). -/
def trigSeries (x2 : Nat) : Nat → Nat → Int → Int → Int
  | 0, _, _, acc => acc
  | f + 1, k, t, acc =>
    let t' := -(t * x2 / fxOne / (k * (k + 1) : Nat))
    trigSeries x2 f (k + 2) t' (acc + t')

/-- sin x for a scaled 0 ≤ x ≤ π/2. -/
def fxSin (x : Nat) : Nat := (trigSeries (x * x / fxOne) 90 2 x x).toNat
/-- cos x for a scaled 0 ≤ x ≤ π/2. -/
def fxCos (x : Nat) : Nat := (trigSeries (x * x / fxOne) 90 1 fxOne fxOne).toNat

/-- Σ of the terms t × c / (2i+3): the positive series of the error function and of Φ. -/
def gaussSeries (c : Nat) : Nat → Nat → Nat → Nat → Nat
  | 0, _, _, acc => acc
  | f + 1, k, t, acc =>
    let t' := t * c / fxOne / k
    gaussSeries c f (k + 2) t' (acc + t')

def fxSqrtPi : Nat := isqrt (fxPi * fxOne)

/-- erf x for a dyadic 0 < x ≤ 13. -/
def fxErf (x : Dy) : Nat :=
  let X := (x.floorAt 640).toNat
  let s := gaussSeries (2 * (x.mul x).floorAt 640).toNat 800 3 X X
  let (v, k) := expParts (x.mul x).neg
  shiftFx (s * v / fxOne * 2 * fxOne / fxSqrtPi) k

/-- Φ(x) − 1/2 for a dyadic 0 ≤ x ≤ 5. -/
def fxPhi (x : Dy) : Nat :=
  let X := (x.floorAt 640).toNat
  let s := gaussSeries ((x.mul x).floorAt 640).toNat 300 3 X X
  let (v, k) := expParts ((x.mul x).mul ⟨-1, -1⟩)
  shiftFx (s * v / isqrt (2 * fxPi * fxOne)) k

/-- A function value known to lie within 2^40 units of v × 2^(k−640), rounded once; open where that does not decide
the rounding (log 12). -/
def froundFx (F : Fmt) (rm draw : Nat) (neg : Bool) (v : Nat) (k : Int) (tag arg : Nat) : FR :=
  let a := fround F rm false draw ⟨neg, v - 2 ^ 40, k - 640, true⟩
  let b := fround F rm false draw ⟨neg, v + 2 ^ 40, k - 640, true⟩
  if 2 ^ 40 < v && a == b then a else ⟨Config.undecided tag arg rm % 2 ^ F.width, flNX⟩

/-- A positive value too small for any format, and one just below 1 or too large. -/
def exTiny (neg : Bool) : Ex := ⟨neg, 1, -1000, true⟩
def exHuge (neg : Bool) : Ex := ⟨neg, 1, 1000, true⟩
def exBelowOne (neg : Bool) : Ex := ⟨neg, 2 ^ 240 - 1, -240, true⟩

/-- 2^x (R171). -/
def fExp2 (F : Fmt) (rm draw : Nat) (x : Dy) : FR :=
  let k := x.floorAt 0
  let fr := (x.floorAt 640) - k * fxOne
  if 2000 < k then fround F rm false draw (exHuge false)
  else if k < -2000 then fround F rm false draw (exTiny false)
  else if (x.add ⟨-k, 0⟩).n == 0 then fround F rm false draw ⟨false, 1, k, false⟩
  else froundFx F rm draw false (fxExp (fr.toNat * fxLn2 / fxOne)) k 1 x.n.natAbs

/-- log₂ x of a positive dyadic (R171). -/
def fLog2 (F : Fmt) (rm draw : Nat) (x : Dy) : FR :=
  let n := x.n.natAbs
  let l := Nat.log2 n
  let E : Int := (l : Int) + x.e
  if n == 2 ^ l then froundV F rm false draw (.ofDy ⟨E, 0⟩)
  else
    let m := n * 2 ^ 640 / 2 ^ l
    let v : Int := E * fxOne + (fxLn m * fxOne / fxLn2 : Nat)
    froundFx F rm draw (v < 0) v.natAbs 0 2 n

/-- tanh x (R171). -/
def fTanh (F : Fmt) (rm draw : Nat) (x : Dy) : FR :=
  let neg := x.n < 0
  let a : Dy := ⟨x.n.natAbs, x.e⟩
  if Dy.lt ⟨200, 0⟩ a then fround F rm false draw (exBelowOne neg)
  else
    let (v, k) := expParts (a.mul ⟨-1, 1⟩)
    let t := shiftFx v k
    froundFx F rm draw neg ((fxOne - t) * fxOne / (fxOne + t)) 0 3 x.n.natAbs

/-- 1 / (1 + e^−x) for x ≠ 0 (R171). -/
def fSigm (F : Fmt) (rm draw : Nat) (x : Dy) : FR :=
  let a : Dy := ⟨x.n.natAbs, x.e⟩
  if Dy.lt ⟨400, 0⟩ a then fround F rm false draw (if x.n < 0 then exTiny false else exBelowOne false)
  else
    let (v, k) := expParts a.neg
    if x.n < 0 then froundFx F rm draw false (v * fxOne / (fxOne + shiftFx v k)) k 4 x.n.natAbs
    else froundFx F rm draw false (fxOne * fxOne / (fxOne + shiftFx v k)) 0 4 x.n.natAbs

/-- erf x for x ≠ 0 (R171). -/
def fErf (F : Fmt) (rm draw : Nat) (x : Dy) : FR :=
  let neg := x.n < 0
  let a : Dy := ⟨x.n.natAbs, x.e⟩
  if Dy.lt ⟨13, 0⟩ a then fround F rm false draw (exBelowOne neg)
  else froundFx F rm draw neg (fxErf a) 0 5 x.n.natAbs

/-- sin(πx) for x ≠ 0 (R171). -/
def fSinPi (F : Fmt) (rm draw : Nat) (x : Dy) : FR :=
  let neg := x.n < 0
  let a : Dy := ⟨x.n.natAbs, x.e⟩
  let k := a.floorAt 0
  let f := a.add ⟨-k, 0⟩
  let sgn := neg != (k % 2 == 1)
  if f.n == 0 then ⟨if neg then F.signBit else 0, 0⟩
  else if (f.add ⟨-1, -1⟩).n == 0 then fround F rm false draw ⟨sgn, 1, 0, false⟩
  else
    let g := if Dy.lt f ⟨1, -1⟩ then f else (⟨1, 0⟩ : Dy).add f.neg
    froundFx F rm draw sgn (fxSin ((g.floorAt 640).toNat * fxPi / fxOne)) 0 6 x.n.natAbs

/-- cos(πx) (R171). -/
def fCosPi (F : Fmt) (rm draw : Nat) (x : Dy) : FR :=
  let a : Dy := ⟨x.n.natAbs, x.e⟩
  let k := a.floorAt 0
  let f := a.add ⟨-k, 0⟩
  let odd := k % 2 == 1
  if f.n == 0 then fround F rm false draw ⟨odd, 1, 0, false⟩
  else if (f.add ⟨-1, -1⟩).n == 0 then ⟨0, 0⟩
  else
    let low := Dy.lt f ⟨1, -1⟩
    let g := if low then f else (⟨1, 0⟩ : Dy).add f.neg
    froundFx F rm draw (odd != !low) (fxCos ((g.floorAt 640).toNat * fxPi / fxOne)) 0 7 x.n.natAbs

/-- e^x to FP32 by one rounding (R86, R89). -/
def fExp32 (rm : Nat) (x : Dy) : Nat :=
  if x.n == 0 then 0x3F800000
  else if Dy.lt ⟨1000, 0⟩ x then (fround fp32 rm false 0 (exHuge false)).bits
  else if Dy.lt x ⟨-1000, 0⟩ then (fround fp32 rm false 0 (exTiny false)).bits
  else (froundFx fp32 rm 0 false (expParts x).1 (expParts x).2 8 x.n.natAbs).bits

/-- RoundUp((e^v − 1) × e^y) for v > 0 (R89). With y = −v the value is 1 − e^−v, which from v = 20 on lies between 1 and the
value of the format below it. -/
def fExpVar (v y : Dy) : Nat :=
  if (v.add y).n == 0 && Dy.le ⟨20, 0⟩ v then 0x3F800000
  else if Dy.lt ⟨1000, 0⟩ (v.add y) then (fround fp32 2 false 0 (exHuge false)).bits
  else if Dy.lt (v.add y) ⟨-1000, 0⟩ then (fround fp32 2 false 0 (exTiny false)).bits
  else if Dy.lt ⟨700, 0⟩ v then
    -- e^v − 1 and e^v agree in the leading 900 bits
    (froundFx fp32 2 0 false (expParts (v.add y)).1 (expParts (v.add y)).2 9 v.n.natAbs).bits
  else if Dy.lt y ⟨-1000, 0⟩ then (fround fp32 2 false 0 (exTiny false)).bits
  else
    let (a, ka) := expParts v
    let (b, kb) := expParts y
    let w := shiftFx a ka - fxOne
    -- the relative error is that of w: keep 640 bits below its leading bit
    let s := Nat.log2 w
    let p := w * b / 2 ^ s
    (if p == 0 then ⟨Config.undecided 9 v.n.natAbs 2 % 2 ^ 32, 0⟩
      else
        let lo := fround fp32 2 false 0 ⟨false, (w - 2 ^ 40) * (b - 2 ^ 40) / 2 ^ 700, kb - 1280 + 700, true⟩
        let hi := fround fp32 2 false 0 ⟨false, (w + 2 ^ 40) * (b + 2 ^ 40) / 2 ^ 700, kb - 1280 + 700, true⟩
        if lo == hi && 2 ^ 41 < w then lo else ⟨Config.undecided 9 v.n.natAbs 2 % 2 ^ 32, 0⟩ : FR).bits

/-- RoundRNE((1 + πv/8)^(−1/2)) for v ≥ 0 (R90). -/
def fProbit (v : Dy) : Nat :=
  if v.n == 0 then 0x3F800000
  else
    -- 1 + πv/8 scaled, kept to 640 bits above its integer part
    let w := fxOne + (if 0 ≤ v.e then v.n.natAbs * 2 ^ v.e.toNat * fxPi / 8 else v.n.natAbs * fxPi / 8 / 2 ^ (-v.e).toNat)
    let r := isqrt (2 ^ 1920 / w)
    (froundFx fp32 0 0 false r 0 10 v.n.natAbs).bits

/-- The largest FP32 pattern b, below 2^(k+1) + lo, whose value has Φ − 1/2 at most the target. -/
def icdfSearch (target : Nat) : Nat → Nat → Nat
  | 0, lo =>
    match fdecode fp32 (lo + 1) with
    | .fin x => if fxPhi x ≤ target then lo + 1 else lo
    | _ => lo
  | k + 1, lo =>
    match fdecode fp32 (lo + 2 ^ (k + 1)) with
    | .fin x => icdfSearch target k (if Dy.lt x ⟨5, 0⟩ && fxPhi x ≤ target then lo + 2 ^ (k + 1) else lo)
    | _ => icdfSearch target k lo

/-- InvCdf(r) of R87 for a 16-bit r, as an FP32 pattern. -/
def invCdf (r : Nat) : Nat :=
  let neg := r < 32768
  let r' := if neg then 65535 - r else r
  let target := (2 * r' + 1 - 65536) * fxOne / 131072
  let lo := icdfSearch target 30 0
  let mid : Dy :=
    match fdecode fp32 lo, fdecode fp32 (lo + 1) with
    | .fin x, .fin y => (x.add y).mul ⟨1, -1⟩
    | _, .fin y => y.mul ⟨1, -1⟩
    | _, _ => ⟨0, 0⟩
  (if neg then 0x80000000 else 0) + (if fxPhi mid < target then lo + 1 else lo)

/-- StochBits(W, e) of R73. -/
def stochBits (W : U64) (e : Nat) : Nat :=
  let z := W ^^^ (BitVec.ofNat 64 e * 0x9E3779B97F4A7C15#64)
  let z := (z ^^^ (z >>> 30)) * 0xBF58476D1CE4E5B9#64
  let z := (z ^^^ (z >>> 27)) * 0x94D049BB133111EB#64
  let z := z ^^^ (z >>> 31)
  z.toNat % 65536

/-! Integers (R63, R64). -/

/-- x clamped to lo..hi. -/
def clampInt (lo hi x : Int) : Int := if x < lo then lo else if hi < x then hi else x
def sat32 (x : Int) : Int := clampInt (-2147483648) 2147483647 x
def sat64 (x : Int) : Int := clampInt (-9223372036854775808) 9223372036854775807 x

/-- Whether an integer ET is signed: all but UINT8. -/
def etSigned (et : Nat) : Bool := et != 8
/-- The range of an integer ET. -/
def etMin (et : Nat) : Int := if etSigned et then -(2 ^ (etWidth et - 1) : Nat) else 0
def etMax (et : Nat) : Int := if etSigned et then (2 ^ (etWidth et - 1) : Nat) - 1 else 255
/-- The value of an integer element. -/
def intVal (et bits : Nat) : Int :=
  if etSigned et && 2 ^ (etWidth et - 1) ≤ bits then (bits : Int) - (2 ^ etWidth et : Nat) else bits
/-- Wrap(x, w). -/
def wrapTo (w : Nat) (x : Int) : Nat := (x % (2 ^ w : Nat)).toNat

/-- Rounding of a floating value to an integer by rm (R71): the exact integer chosen, and whether it is inexact. -/
def roundInt (rm draw : Nat) (x : Dy) : Int × Bool :=
  let r := roundAt rm draw x.toEx 0
  (if x.n < 0 then -(r.1 : Int) else r.1, r.2)

end Sys2Proof.Machine
end

