-- ==== Sys2Proof/Machine/Ops.lean ====
section
/-! DEFINITION. The shared operations of a slot: results put in flight (R24, R27), their landing (R26, R34), a trap
taken (R142..R145), the returns (R150), a control transfer taken (R35, R135) and the hardware loops (R54, R137). -/
namespace Sys2Proof.Machine

/-- What an issuing instruction may not do (R106 step 4, R22): it traps with a cause and an information word, or is
held under WAIT or TAGS. -/
inductive Stop where
  | trap (code : Byte) (info : U64)
  | hold
  deriving DecidableEq, Repr

/-! ### Results put in flight -/

/-- The slot with one more result of the bundle in progress. -/
def Thread.push (t : Thread) (e : Infl) : Thread := { t with iss := { t.iss with fresh := t.iss.fresh ++ [e] } }

/-- A result that lands lat bundles on, with the flags it sets then (R24, R48). -/
def Thread.issue (t : Thread) (lat : Nat) (r : Res) (stat : U16) : Thread :=
  t.push { rem := lat, noq := false, slot := t.iss.slot, stat := stat, res := r, load := none }

/-- As Thread.issue, for the slot whose turn it is. -/
def State.issue (s : State) (lat : Nat) (r : Res) (stat : U16) : State := { s with me := s.me.issue lat r stat }

/-- The next state of a scalar-class result (R27): under a false predicate nothing is written and no flag is set. -/
def State.issueG (s : State) (lat : Nat) (d : Dst) (p : U3) (val : U64) (stat : U16) : State :=
  s.issue lat (.g d val (s.pred p)) (if s.pred p then stat else 0)

/-! ### Landing -/

/-- The queue with one more entry (R34). -/
def Regs.enterQ (r : Regs) (x : U64) : Regs :=
  { r with q := Vector.ofFn fun i : Fin 16 => if h : i.val = 0 then x else r.q[i.val - 1] }

/-- The latches with one more entry (R34). -/
def Regs.enterB (r : Regs) (x : Vec) : Regs :=
  { r with b := Vector.ofFn fun i : Fin 3 => if h : i.val = 0 then x else r.b[i.val - 1] }

/-- The value of a scalar-class result at its landing (R27). -/
def Regs.landValG (r : Regs) (d : Dst) (val : U64) (wr : Bool) : U64 :=
  if wr then val else match d with | .reg i => r.readG i | .tr => 0

/-- The value of a vector-class result at its landing (R27, R156): lanes not written keep what the register holds. -/
def Regs.landValV (r : Regs) (d : Dst) (val : Vec) (wr : U64) : Vec :=
  mergeLanes wr val (match d with | .reg i => r.v[i.toNat] | .tr => 0)

/-- A field of n bits at bit lo of a register, replaced. -/
def setField {w : Nat} (x : BitVec w) (lo n : Nat) (v : Nat) : BitVec w :=
  let m : BitVec w := BitVec.ofNat w ((2 ^ n - 1) * 2 ^ lo)
  (x &&& ~~~ m) ||| (BitVec.ofNat w (v % 2 ^ n * 2 ^ lo))

/-- The lowest bit and the width of a matrix shape field (R179). -/
def msField (f : U5) : Nat × Nat :=
  match f.toNat with
  | 0 => (0, 10) | 1 => (10, 10) | 2 => (20, 10) | 3 => (30, 10) | 4 => (40, 6) | 5 => (46, 7) | 6 => (53, 13)
  | 7 => (66, 12) | 8 => (78, 12) | 9 => (90, 3) | 10 => (93, 3) | 11 => (96, 4) | 12 => (100, 4) | 13 => (104, 2)
  | 14 => (106, 2) | 15 => (108, 3) | 16 => (111, 3) | 17 => (114, 3) | _ => (0, 0)

/-- The lowest bit and the width of a copy shape field (R243). -/
def xsField (f : U5) : Nat × Nat :=
  match f.toNat with
  | 0 => (0, 16) | 1 => (16, 12) | 2 => (28, 12) | 3 => (40, 20) | 4 => (60, 20) | 5 => (80, 20) | 6 => (100, 20)
  | 7 => (120, 3) | 8 => (123, 3) | _ => (0, 0)

/-- The registers after a result lands (R26, R34): special registers and shape fields apart. -/
def Regs.land (r : Regs) (noq : Bool) : Res → Regs
  | .g d val wr =>
    let x := r.landValG d val wr
    let r1 := match d with | .reg i => r.writeG i x | .tr => r
    if noq then r1 else r1.enterQ x
  | .v d val wr =>
    let x := r.landValV d val wr
    let r1 := match d with | .reg i => r.writeV i x | .tr => r
    if noq then r1 else r1.enterB x
  | .m d val wr =>
    let old := r.m[d.toNat]
    r.writeM d (mergeLanes wr (val.extractLsb' 2048 2048) (old.extractLsb' 2048 2048) ++
      mergeLanes wr (val.extractLsb' 0 2048) (old.extractLsb' 0 2048))
  | .p d val wr => if wr then r.writeP d val else r
  | .k d val wr => r.writeK d ((val &&& wr) ||| (r.readK d &&& ~~~ wr))
  | .tc i val => { r with tc := r.tc.set i.toNat (val &&& 0x8000FFFFFFFFFFFF) i.isLt }
  | .shp xs i f val wr =>
    if !wr then r
    else if xs then
      { r with xsS := r.xsS.set i.toNat (setField r.xsS[i.toNat] (xsField f).1 (xsField f).2 val.toNat) i.isLt }
    else { r with msS := r.msS.set i.toNat (setField r.msS[i.toNat] (msField f).1 (msField f).2 val.toNat) i.isLt }
  | .spr _ _ _ _ => r

/-! ### Traps (R142..R145) -/

/-- Where a cause goes (R142). -/
inductive Route where
  | s
  | u
  | d (bit : Nat)
  deriving DecidableEq, Repr

/-- The route column of R142. -/
def routeOf (code : Byte) : Route :=
  match code.toNat with
  | 0x10 => .d 0 | 0x13 => .d 1 | 0x14 => .d 2 | 0x20 => .d 3 | 0x21 => .d 4 | 0x22 => .d 5 | 0x41 => .d 6
  | 0x31 => .u | 0x32 => .u | _ => .s

/-- Whether a cause is delivered at supervisor level (R142, R144). -/
def Thread.trapsToS (t : Thread) (code : Byte) : Bool :=
  let u := match routeOf code with | .s => false | .u => true | .d i => t.trap.tdeleg.getLsbD i
  !u || t.trap.uvec == 0 || t.f0.isSome

/-- What a replay frame captures (R38): the slot as it stands, a GROUP clearing of a bundle that did not issue undone
(R103). -/
def Thread.capture (t : Thread) (tagS : Bool) : Frame :=
  match t.iss.cleared with
  | some c => ⟨tagS, c.infl, c.q, c.b⟩
  | none => ⟨tagS, t.infl, t.regs.q, t.regs.b⟩

/-- The queue and the latches cleared to zero (R35). -/
def Regs.clearQ (r : Regs) : Regs := { r with q := Vector.replicate 16 0, b := Vector.replicate 3 0 }

/-- The in-flight entries when the queue is cleared: none of them enters it any more (R35). -/
def noQueue (es : List Infl) : List Infl := es.map fun e => { e with noq := true }

/-- The cause word of R147. -/
def causeWord (ev : TrapEvent) : U64 :=
  0#52 ++ ev.slot ++ BitVec.ofBool ev.land ++ BitVec.ofBool ev.async ++ ev.code

/-- A slot's trap registers after entry (R144). -/
def TrapRegs.enter (r : TrapRegs) (toS : Bool) (ev : TrapEvent) (priv : Bool) (lact : U64) : TrapRegs :=
  if toS then
    { r with scause := causeWord ev, sepc := pcAddr ev.resume, sfpc := pcAddr ev.faulting, sinfo := ev.info,
             sprev := 0#63 ++ BitVec.ofBool priv, slact := lact }
  else
    { r with ucause := causeWord ev, uepc := pcAddr ev.resume, ufpc := pcAddr ev.faulting, uinfo := ev.info,
             ulact := lact }

/-- A pre-emption request withdrawn (R330): nothing of it stays posted or pending. -/
def Thread.withdraw (t : Thread) : Thread :=
  { t with cx := { t.cx with left := 0, req := false }, pend31 := false, yielded := none }

/-- A trap is taken (R144): a frame captures what is in flight, the cause registers are written, and the slot starts
its handler with a clear queue and clear latches, a macro's sequencer waiting for the return (R270). With no frame free the
trap is double (R145): the slot stops and its task ends as faulted, a request for its core withdrawn (R330). -/
def Thread.takeTrap (t : Thread) (ev : TrapEvent) : Thread :=
  let toS := t.trapsToS ev.code
  let fr := t.capture toS
  let iss := { t.iss with res := .trapped ev.code ev.info, after := none, cleared := none, fresh := [], taken := false }
  let in0 := t.f0.isNone
  if in0 || (t.f0.any (fun f => !f.tagS) && t.f1.isNone && toS) then
    { t with
      f0 := if in0 then some fr else t.f0
      f1 := if in0 then t.f1 else some fr
      trap := t.trap.enter toS ev t.priv t.loop.lact
      priv := toS || t.priv
      pc := pcOf (if toS then t.trap.svec else t.trap.uvec)
      loop := { t.loop with lact := 0 }
      infl := []
      regs := t.regs.clearQ
      mac := { t.mac with away := t.mac.away || t.mac.mpc.getLsbD 63 }
      fetchFault := none
      watch := none
      iss := iss }
  else { t.withdraw with run := .faulting ev.code ev.info ev.faulting, watch := none, iss := iss }

/-- A trap raised by the slot instruction being executed (R20, R143). -/
def Thread.trapAtIssue (t : Thread) (code : Byte) (info : U64) : Thread :=
  t.takeTrap { code := code, slot := t.iss.slot, land := false, async := false, resume := t.iss.bpc,
               faulting := t.iss.bpc, info := info }

/-- As Thread.trapAtIssue, for the slot whose turn it is. -/
def State.trap (s : State) (code : Byte) (info : U64) : State := { s with me := s.me.trapAtIssue code info }

/-- A trap whose information word is the slot word: causes 0x01, 0x02 and 0x03 (R142). -/
def State.trapWord (s : State) (code : Byte) : State := s.trap code (s.me.iss.word.zeroExtend 64)

/-- The bundle does not issue in this cycle (R22). -/
def State.hold (s : State) : State := { s with me := { s.me with iss := { s.me.iss with res := .held } } }

/-- What an instruction's own checks decide, and else its effect (R106 step 4). -/
def State.settle {α : Type} (s : State) (c : Except Stop α) (f : α → State) : State :=
  match c with
  | .ok x => f x
  | .error (.trap code info) => s.trap code info
  | .error .hold => s.hold

/-- An effect at supervisor level, cause 0x03 at user level whatever the predicate (R106 step 3, R123). -/
def State.supervisor (s : State) (f : State) : State := if s.me.priv then f else s.trapWord 0x03

/-! ### Control transfer (R35, R135) -/

/-- The next bundle issues at the target, with a cleared queue (R35). -/
def Thread.transfer (t : Thread) (target : Pc) : Thread :=
  { t with pc := target, regs := t.regs.clearQ, infl := noQueue t.infl,
           iss := { t.iss with taken := true, fresh := noQueue t.iss.fresh } }

/-- As Thread.transfer, for the slot whose turn it is. -/
def State.transfer (s : State) (target : Pc) : State := { s with me := s.me.transfer target }

/-! ### Returns (R150) -/

/-- The top frame. -/
def Thread.top (t : Thread) : Option Frame := match t.f1 with | some f => some f | none => t.f0

/-- The slot without its top frame. -/
def Thread.freeTop (t : Thread) : Thread :=
  match t.f1 with
  | some _ => { t with f1 := none }
  | none => { t with f0 := none }

/-- A return to a level (R150, R38): the handler's queue and latches are cleared, and a frame of the matching tag gives back
its queue, its latches and its entries. Each entry waits out one bundle more because the returning bundle itself still counts.
A return to the macro's bundle resumes its sequencer, and one to any other address ends the macro (R270). DESIGN CHOICE (log
97): the saved value becomes %lact unchecked. -/
def Thread.returnTo (t : Thread) (toS : Bool) (target : Pc) (lact : U64) (priv : Bool) : Thread :=
  let t1 := t.transfer target
  let t2 := { t1 with loop := { t1.loop with lact := lact }, priv := priv,
                      mac := if pcAddr target == t1.mac.addr then { t1.mac with away := false }
                             else { t1.mac with mpc := t1.mac.mpc &&& 0x7FFFFFFFFFFFFFFF, away := false } }
  match t2.top with
  | some f =>
    if f.tagS == toS then
      { t2.freeTop with
        regs := { t2.regs with q := f.q, b := f.b }
        infl := f.infl.map (fun e => { e with rem := e.rem + 1 }) ++ t2.infl }
    else t2
  | none => t2

/-! ### Hardware loops (R54, R136, R137, R141) -/

/-- The identifiers of the active loops, innermost first (R141). -/
def loopOrder (lact : U64) : List Nat :=
  (List.range ((List.range 8).countP fun n => lact.getLsbD n)).map fun i => (lact.extractLsb' (8 + 3 * i) 3).toNat

/-- `%lact` for a list of active loops, innermost first. -/
def lactOf (o : List Nat) : U64 :=
  BitVec.ofNat 64 (o.foldl (fun a n => a ||| 2 ^ n) 0 + (o.zipIdx.foldl (fun a p => a + p.1 * 2 ^ (8 + 3 * p.2)) 0))

/-- The back edge at the end of the bundle at x (R137): the innermost active loop that ends there and still counts
takes it; one that has run out becomes inactive. -/
def loopBack (x : U64) : List Nat → LoopRegs → LoopRegs × Option U64
  | [], l => (l, none)
  | n :: ns, l =>
    if h : n < 8 then
      if l.lend[n] ≠ x then loopBack x ns l
      else if 1 < l.lcnt[n].toNat then ({ l with lcnt := l.lcnt.set n (l.lcnt[n] - 1) }, some l.lbeg[n])
      else loopBack x ns { l with lcnt := l.lcnt.set n 0, lact := lactOf ((loopOrder l.lact).filter (· != n)) }
    else loopBack x ns l

end Sys2Proof.Machine
end

