-- ==== Sys2Proof/Machine/Flags.lean ====
section
/-! DEFINITION. The sticky flags of %stat (R48) and the comparisons that set flags or predicates: the saturations of
R125 and the conditions of R129. The flag masks themselves stand beside the arithmetic in Num. -/
namespace Sys2Proof.Machine

/-- The SAT flag when the exact result differs from the delivered one (R125). -/
def satFlag (exact delivered : Int) : U16 := if exact = delivered then 0 else flSAT

/-- A saturating 64-bit result with its flag (R125). -/
def satRes64 (x : Int) : U64 × U16 := (BitVec.ofInt 64 (sat64 x), satFlag x (sat64 x))
/-- A saturating 32-bit result, sign-extended, with its flag (R125). -/
def satRes32 (x : Int) : U64 × U16 := (BitVec.ofInt 64 (sat32 x), satFlag x (sat32 x))
/-- A saturating unsigned 64-bit result with its flag (R125). -/
def satResU (x : Int) : U64 × U16 :=
  let y := clampInt 0 18446744073709551615 x
  (BitVec.ofInt 64 y, satFlag x y)

/-- The conditions of R129. -/
def condHolds (cond : U3) (a b : U64) : Bool :=
  match cond.toNat with
  | 0 => a == b
  | 1 => a != b
  | 2 => a.slt b
  | 3 => !(a.slt b)
  | 4 => a.ult b
  | 5 => !(a.ult b)
  | 6 => a &&& b != 0
  | _ => a &&& b == 0

/-- The flags that no instruction sets and no write stores are reserved (R48). -/
def statMask : U64 := 0xF81F

/-- Flags set (R48): a write of %stat that lands before the next bundle issues does not lose them. -/
def Thread.setStat (t : Thread) (f : U16) : Thread :=
  { t with sp := { t.sp with stat := t.sp.stat ||| f.zeroExtend 64 }
           iss := { t.iss with landed := t.iss.landed ||| f.zeroExtend 64 } }

end Sys2Proof.Machine
end

