-- ==== Sys2Proof/Machine/Scalar.lean ====
section
/-! DEFINITION. The scalar instructions of 04: arithmetic and logic (R124, R125), immediates (R126..R128), compares and
predicates (R129, R130), select (R131), bit fields (R132), addresses (R133), the shape shadow writes (R180, R243) and
the writes of %mmode (R173). -/
namespace Sys2Proof.Machine

/-- What exec answers. -/
abbrev Out := Host.Outcome State Fault Refusal

/-- The low word. -/
def lo32 (x : U64) : U32 := x.extractLsb' 0 32
/-- A 32-bit result delivered (R124). -/
def sx32 (x : U32) : U64 := x.signExtend 64

/-- A two-source scalar result (R124). -/
def State.alu (s : State) (lat : Nat) (d : Dst) (a b : Src) (p : U3) (f : U64 → U64 → U64) : State :=
  s.issueG lat d p (f (s.src a) (s.src b)) 0

/-- A two-source saturating result, with its flag (R125). -/
def State.aluSat (s : State) (lat : Nat) (d : Dst) (a b : Src) (p : U3) (f : U64 → U64 → U64 × U16) : State :=
  s.issueG lat d p (f (s.src a) (s.src b)).1 (f (s.src a) (s.src b)).2

/-- Signed division truncated toward zero, with the results of R125 for a zero divisor and for the overflow. -/
def sdiv64 (a b : U64) : U64 := if b = 0 then BitVec.allOnes 64 else a.sdiv b
def udiv64 (a b : U64) : U64 := if b = 0 then BitVec.allOnes 64 else a.udiv b
def srem64 (a b : U64) : U64 := if b = 0 then a else a.srem b
def urem64 (a b : U64) : U64 := if b = 0 then a else a.umod b

/-- ADD (R124). -/
def execAdd (d : Dst) (a b : Src) (p : U3) (s : State) : Out :=
  .next (s.alu 1 d a b p fun a b => a + b)

/-- SUB (R124). -/
def execSub (d : Dst) (a b : Src) (p : U3) (s : State) : Out :=
  .next (s.alu 1 d a b p fun a b => a - b)

/-- AND (R124). -/
def execAnd (d : Dst) (a b : Src) (p : U3) (s : State) : Out :=
  .next (s.alu 1 d a b p fun a b => a &&& b)

/-- OR (R124). -/
def execOr (d : Dst) (a b : Src) (p : U3) (s : State) : Out :=
  .next (s.alu 1 d a b p fun a b => a ||| b)

/-- XOR (R124). -/
def execXor (d : Dst) (a b : Src) (p : U3) (s : State) : Out :=
  .next (s.alu 1 d a b p fun a b => a ^^^ b)

/-- ANDN (R124). -/
def execAndn (d : Dst) (a b : Src) (p : U3) (s : State) : Out :=
  .next (s.alu 1 d a b p fun a b => a &&& ~~~ b)

/-- SLL (R124). -/
def execSll (d : Dst) (a b : Src) (p : U3) (s : State) : Out :=
  .next (s.alu 1 d a b p fun a b => a <<< (b.extractLsb' 0 6))

/-- SRL (R124). -/
def execSrl (d : Dst) (a b : Src) (p : U3) (s : State) : Out :=
  .next (s.alu 1 d a b p fun a b => a >>> (b.extractLsb' 0 6))

/-- SRA (R124). -/
def execSra (d : Dst) (a b : Src) (p : U3) (s : State) : Out :=
  .next (s.alu 1 d a b p fun a b => a.sshiftRight (b.extractLsb' 0 6).toNat)

/-- ROR (R124). -/
def execRor (d : Dst) (a b : Src) (p : U3) (s : State) : Out :=
  .next (s.alu 1 d a b p fun a b => a.rotateRight (b.extractLsb' 0 6).toNat)

/-- MIN (R124). -/
def execMin (d : Dst) (a b : Src) (p : U3) (s : State) : Out :=
  .next (s.alu 1 d a b p fun a b => if a.slt b then a else b)

/-- MAX (R124). -/
def execMax (d : Dst) (a b : Src) (p : U3) (s : State) : Out :=
  .next (s.alu 1 d a b p fun a b => if a.slt b then b else a)

/-- MINU (R124). -/
def execMinu (d : Dst) (a b : Src) (p : U3) (s : State) : Out :=
  .next (s.alu 1 d a b p fun a b => if a.ult b then a else b)

/-- MAXU (R124). -/
def execMaxu (d : Dst) (a b : Src) (p : U3) (s : State) : Out :=
  .next (s.alu 1 d a b p fun a b => if a.ult b then b else a)

/-- SLT (R124). -/
def execSlt (d : Dst) (a b : Src) (p : U3) (s : State) : Out :=
  .next (s.alu 1 d a b p fun a b => if a.slt b then 1 else 0)

/-- SLTU (R124). -/
def execSltu (d : Dst) (a b : Src) (p : U3) (s : State) : Out :=
  .next (s.alu 1 d a b p fun a b => if a.ult b then 1 else 0)

/-- ADDW (R124). -/
def execAddw (d : Dst) (a b : Src) (p : U3) (s : State) : Out :=
  .next (s.alu 1 d a b p fun a b => sx32 (lo32 a + lo32 b))

/-- SUBW (R124). -/
def execSubw (d : Dst) (a b : Src) (p : U3) (s : State) : Out :=
  .next (s.alu 1 d a b p fun a b => sx32 (lo32 a - lo32 b))

/-- SLLW (R124). -/
def execSllw (d : Dst) (a b : Src) (p : U3) (s : State) : Out :=
  .next (s.alu 1 d a b p fun a b => sx32 (lo32 a <<< (b.extractLsb' 0 5)))

/-- SRLW (R124). -/
def execSrlw (d : Dst) (a b : Src) (p : U3) (s : State) : Out :=
  .next (s.alu 1 d a b p fun a b => sx32 (lo32 a >>> (b.extractLsb' 0 5)))

/-- SRAW (R124). -/
def execSraw (d : Dst) (a b : Src) (p : U3) (s : State) : Out :=
  .next (s.alu 1 d a b p fun a b => sx32 ((lo32 a).sshiftRight (b.extractLsb' 0 5).toNat))

/-- MUL (R124). -/
def execMul (d : Dst) (a b : Src) (p : U3) (s : State) : Out :=
  .next (s.alu 3 d a b p fun a b => a * b)

/-- MULH (R124). -/
def execMulh (d : Dst) (a b : Src) (p : U3) (s : State) : Out :=
  .next (s.alu 3 d a b p fun a b => BitVec.ofInt 64 (a.toInt * b.toInt / 2 ^ 64))

/-- MULHU (R124). -/
def execMulhu (d : Dst) (a b : Src) (p : U3) (s : State) : Out :=
  .next (s.alu 3 d a b p fun a b => BitVec.ofNat 64 (a.toNat * b.toNat / 2 ^ 64))

/-- MULHSU (R124). -/
def execMulhsu (d : Dst) (a b : Src) (p : U3) (s : State) : Out :=
  .next (s.alu 3 d a b p fun a b => BitVec.ofInt 64 (a.toInt * (b.toNat : Int) / 2 ^ 64))

/-- MULW (R124). -/
def execMulw (d : Dst) (a b : Src) (p : U3) (s : State) : Out :=
  .next (s.alu 3 d a b p fun a b => sx32 (lo32 a * lo32 b))

/-- DIV (R124). -/
def execDiv (d : Dst) (a b : Src) (p : U3) (s : State) : Out :=
  .next (s.alu 24 d a b p fun a b => sdiv64 a b)

/-- DIVU (R124). -/
def execDivu (d : Dst) (a b : Src) (p : U3) (s : State) : Out :=
  .next (s.alu 24 d a b p fun a b => udiv64 a b)

/-- REM (R124). -/
def execRem (d : Dst) (a b : Src) (p : U3) (s : State) : Out :=
  .next (s.alu 24 d a b p fun a b => srem64 a b)

/-- REMU (R124). -/
def execRemu (d : Dst) (a b : Src) (p : U3) (s : State) : Out :=
  .next (s.alu 24 d a b p fun a b => urem64 a b)

/-- ADDSAT (R124, R125). -/
def execAddsat (d : Dst) (a b : Src) (p : U3) (s : State) : Out :=
  .next (s.aluSat 1 d a b p fun a b => satRes64 (a.toInt + b.toInt))

/-- SUBSAT (R124, R125). -/
def execSubsat (d : Dst) (a b : Src) (p : U3) (s : State) : Out :=
  .next (s.aluSat 1 d a b p fun a b => satRes64 (a.toInt - b.toInt))

/-- ADDSATW (R124, R125). -/
def execAddsatw (d : Dst) (a b : Src) (p : U3) (s : State) : Out :=
  .next (s.aluSat 1 d a b p fun a b => satRes32 ((lo32 a).toInt + (lo32 b).toInt))

/-- SUBSATW (R124, R125). -/
def execSubsatw (d : Dst) (a b : Src) (p : U3) (s : State) : Out :=
  .next (s.aluSat 1 d a b p fun a b => satRes32 ((lo32 a).toInt - (lo32 b).toInt))

/-- ADDSATU (R124, R125). -/
def execAddsatu (d : Dst) (a b : Src) (p : U3) (s : State) : Out :=
  .next (s.aluSat 1 d a b p fun a b => satResU ((a.toNat : Int) + b.toNat))

/-- SUBSATU (R124, R125). -/
def execSubsatu (d : Dst) (a b : Src) (p : U3) (s : State) : Out :=
  .next (s.aluSat 1 d a b p fun a b => satResU ((a.toNat : Int) - b.toNat))

/-- MULSATW (R124, R125). -/
def execMulsatw (d : Dst) (a b : Src) (p : U3) (s : State) : Out :=
  .next (s.aluSat 3 d a b p fun a b => satRes32 ((lo32 a).toInt * (lo32 b).toInt))

/-- A result of a source and an immediate (R126, R127). -/
def State.aluImm (s : State) (d : Dst) (a : Src) (p : U3) (f : U64 → U64) : State := s.issueG 1 d p (f (s.src a)) 0

/-- ADDI (R126). -/
def execAddi (d : Dst) (a : Src) (imm : Imm) (p : U3) (s : State) : Out :=
  .next (s.aluImm d a p fun x => x + imm.val)

/-- ANDI (R126). -/
def execAndi (d : Dst) (a : Src) (imm : Imm) (p : U3) (s : State) : Out :=
  .next (s.aluImm d a p fun x => x &&& imm.val)

/-- ORI (R126). -/
def execOri (d : Dst) (a : Src) (imm : Imm) (p : U3) (s : State) : Out :=
  .next (s.aluImm d a p fun x => x ||| imm.val)

/-- XORI (R126). -/
def execXori (d : Dst) (a : Src) (imm : Imm) (p : U3) (s : State) : Out :=
  .next (s.aluImm d a p fun x => x ^^^ imm.val)

/-- SLLI (R127). -/
def execSlli (d : Dst) (a : Src) (sh : U6) (p : U3) (s : State) : Out :=
  .next (s.aluImm d a p fun x => x <<< sh)

/-- SRLI (R127). -/
def execSrli (d : Dst) (a : Src) (sh : U6) (p : U3) (s : State) : Out :=
  .next (s.aluImm d a p fun x => x >>> sh)

/-- SRAI (R127). -/
def execSrai (d : Dst) (a : Src) (sh : U6) (p : U3) (s : State) : Out :=
  .next (s.aluImm d a p fun x => x.sshiftRight sh.toNat)

/-- RORI (R127). -/
def execRori (d : Dst) (a : Src) (sh : U6) (p : U3) (s : State) : Out :=
  .next (s.aluImm d a p fun x => x.rotateRight sh.toNat)

/-- SLLIW (R127). -/
def execSlliw (d : Dst) (a : Src) (sh : U5) (p : U3) (s : State) : Out :=
  .next (s.aluImm d a p fun x => sx32 (lo32 x <<< sh))

/-- SRLIW (R127). -/
def execSrliw (d : Dst) (a : Src) (sh : U5) (p : U3) (s : State) : Out :=
  .next (s.aluImm d a p fun x => sx32 (lo32 x >>> sh))

/-- SRAIW (R127). -/
def execSraiw (d : Dst) (a : Src) (sh : U5) (p : U3) (s : State) : Out :=
  .next (s.aluImm d a p fun x => sx32 ((lo32 x).sshiftRight sh.toNat))

/-- RORIW (R127). -/
def execRoriw (d : Dst) (a : Src) (sh : U5) (p : U3) (s : State) : Out :=
  .next (s.aluImm d a p fun x => sx32 ((lo32 x).rotateRight sh.toNat))

/-- LDI (R128). -/
def execLdi (d : Dst) (imm : Imm) (p : U3) (s : State) : Out := .next (s.issueG 1 d p imm.val 0)

/-- LDIS (R128). -/
def execLdis (d : Dst) (a : Src) (imm : Imm) (p : U3) (s : State) : Out :=
  .next (s.aluImm d a p fun x => (x <<< 16) ||| (imm.uval &&& 0xFFFF))

/-- A predicate result (R27, R129, R130). -/
def State.issueP (s : State) (pd p : U3) (val : Bool) : State := s.issue 1 (.p pd val (s.pred p)) 0

/-- CMP (R129): set, and with, or into the predicate as it stands at issue. -/
def execCmp (pd cond : U3) (cmb : U2) (a b : Src) (p : U3) (s : State) : Out :=
  let c := condHolds cond (s.src a) (s.src b)
  .next (s.issueP pd p (if cmb = 0 then c else if cmb = 1 then s.pred pd && c else s.pred pd || c))

/-- CMPI (R129). -/
def execCmpi (pd cond : U3) (a : Src) (imm : Imm) (p : U3) (s : State) : Out :=
  .next (s.issueP pd p (condHolds cond (s.src a) imm.val))

/-- PAND (R130). -/
def execPand (pd pa pb p : U3) (s : State) : Out := .next (s.issueP pd p (s.pred pa && s.pred pb))
/-- POR (R130). -/
def execPor (pd pa pb p : U3) (s : State) : Out := .next (s.issueP pd p (s.pred pa || s.pred pb))
/-- PXOR (R130). -/
def execPxor (pd pa pb p : U3) (s : State) : Out := .next (s.issueP pd p (s.pred pa ^^ s.pred pb))
/-- PANDN (R130). -/
def execPandn (pd pa pb p : U3) (s : State) : Out := .next (s.issueP pd p (s.pred pa && !s.pred pb))
/-- KFROMG (R130). -/
def execKfromg (kd : U3) (a : Src) (p : U3) (s : State) : Out :=
  .next (s.issue 1 (.k kd (s.src a) (if s.pred p then BitVec.allOnes 64 else 0)) 0)
/-- GFROMK (R130). -/
def execGfromk (d : Dst) (ka p : U3) (s : State) : Out := .next (s.issueG 1 d p (s.kmask ka) 0)
/-- PFROMG (R130). -/
def execPfromg (pd : U3) (a : Src) (p : U3) (s : State) : Out := .next (s.issueP pd p (s.src a != 0))
/-- GFROMP (R130). -/
def execGfromp (d : Dst) (pa p : U3) (s : State) : Out := .next (s.issueG 1 d p (if s.pred pa then 1 else 0) 0)
/-- SEL (R131). -/
def execSel (d : Dst) (a b : Src) (ps p : U3) (s : State) : Out :=
  .next (s.issueG 1 d p (if s.pred ps then s.src a else s.src b) 0)
/-- SELN (R131). -/
def execSeln (d : Dst) (a b : Src) (ps p : U3) (s : State) : Out :=
  .next (s.issueG 1 d p (if s.pred ps then s.src b else s.src a) 0)

/-- POS of a field descriptor (R132). -/
def fieldPos (b : U64) : Nat := (b.extractLsb' 0 6).toNat
/-- The effective length of a field descriptor (R132). -/
def fieldLen (b : U64) : Nat := Nat.min ((b.extractLsb' 8 6).toNat + 1) (64 - fieldPos b)

/-- BEXT (R132). -/
def execBext (d : Dst) (a b : Src) (p : U3) (s : State) : Out :=
  .next (s.alu 1 d a b p fun a b => (a.extractLsb' (fieldPos b) (fieldLen b)).signExtend 64)
/-- BEXTU (R132). -/
def execBextu (d : Dst) (a b : Src) (p : U3) (s : State) : Out :=
  .next (s.alu 1 d a b p fun a b => (a.extractLsb' (fieldPos b) (fieldLen b)).zeroExtend 64)
/-- BINS (R132): the named register's value at issue is the one inserted into. -/
def execBins (d : U5) (a b : Src) (p : U3) (s : State) : Out :=
  .next (s.alu 1 (.reg d) a b p fun a b => setField (s.me.regs.readG d) (fieldPos b) (fieldLen b) a.toNat)

/-- The number of zeros above the highest one among the low n bits. -/
def leadingZeros (x : U64) : Nat → Nat
  | 0 => 0
  | n + 1 => if x.getLsbD n then 0 else 1 + leadingZeros x n
/-- The number of ones among the low n bits. -/
def onesCount (x : U64) : Nat → Nat
  | 0 => 0
  | n + 1 => onesCount x n + if x.getLsbD n then 1 else 0
/-- The bytes in reverse order. -/
def byteSwap (x : U64) : U64 :=
  x.extractLsb' 0 8 ++ x.extractLsb' 8 8 ++ x.extractLsb' 16 8 ++ x.extractLsb' 24 8 ++ x.extractLsb' 32 8 ++
    x.extractLsb' 40 8 ++ x.extractLsb' 48 8 ++ x.extractLsb' 56 8

/-- CLZ (R132). -/
def execClz (d : Dst) (a : Src) (p : U3) (s : State) : Out :=
  .next (s.aluImm d a p fun x => BitVec.ofNat 64 (leadingZeros x 64))
/-- CTZ (R132). -/
def execCtz (d : Dst) (a : Src) (p : U3) (s : State) : Out :=
  .next (s.aluImm d a p fun x => BitVec.ofNat 64 (leadingZeros x.reverse 64))
/-- POPC (R132). -/
def execPopc (d : Dst) (a : Src) (p : U3) (s : State) : Out :=
  .next (s.aluImm d a p fun x => BitVec.ofNat 64 (onesCount x 64))
/-- BSWAP (R132). -/
def execBswap (d : Dst) (a : Src) (p : U3) (s : State) : Out := .next (s.aluImm d a p byteSwap)
/-- BREV (R132). -/
def execBrev (d : Dst) (a : Src) (p : U3) (s : State) : Out := .next (s.aluImm d a p BitVec.reverse)

/-- ADDS (R133). -/
def execAdds (d : Dst) (a b : Src) (sh : U4) (p : U3) (s : State) : Out :=
  .next (s.alu 1 d a b p fun a b => a + (b <<< sh))
/-- SETDEV (R133). -/
def execSetdev (d : Dst) (a b : Src) (p : U3) (s : State) : Out :=
  .next (s.alu 1 d a b p fun a b => setField a 54 10 b.toNat)
/-- SETCORE (R133). -/
def execSetcore (d : Dst) (a b : Src) (p : U3) (s : State) : Out :=
  .next (s.alu 1 d a b p fun a b => setField a 46 8 b.toNat)

/-- SHW_MS (R180): lands in the shadow with L = 1 (R39). -/
def execShwMs (reg : U2) (fld : U5) (a : Src) (imm : Imm9) (p : U3) (s : State) : Out :=
  .next (s.issue 1 (.shp false reg fld (s.src a + imm.val) (s.pred p)) 0)
/-- SHW_XS (R243): as SHW_MS, for the copy shapes. -/
def execShwXs (reg : U2) (fld : U5) (a : Src) (imm : Imm9) (p : U3) (s : State) : Out :=
  .next (s.issue 1 (.shp true reg fld (s.src a + imm.val) (s.pred p)) 0)

/-- A write of the fields of %mmode that the mask names, landing with L = 1 (R173). -/
def State.modeWrite (s : State) (p : U3) (val mask : U64) : State :=
  s.issue 1 (.spr 0x010 0 val (if s.pred p then mask else 0)) 0
/-- MMSET (R173). -/
def execMmset (a : Src) (imm : Imm9) (p : U3) (s : State) : Out := .next (s.modeWrite p (s.src a + imm.val) 7)
/-- MMCOV (R173). -/
def execMmcov (a : Src) (imm : Imm9) (p : U3) (s : State) : Out := .next (s.modeWrite p (s.src a + imm.val) 3)
/-- MMCLAMP (R173). -/
def execMmclamp (a : Src) (imm : Imm9) (p : U3) (s : State) : Out :=
  .next (s.modeWrite p ((s.src a + imm.val) <<< 2) 4)

end Sys2Proof.Machine
end

