-- ==== Sys2Proof/Machine/Control.lean ====
section
/-! DEFINITION. Control transfer (R135), hardware loops (R136, R139) and the system instructions that need no engine
(R148..R150). All stand in slot 0 and act after the other slots of their bundle. -/
namespace Sys2Proof.Machine

/-- A slot-0 effect under its predicate (R106). -/
def State.when (s : State) (c : Bool) (f : State) : State := if c then f else s

/-- The target of the SB format (R100). -/
def State.target (s : State) (off : BitVec 19) : Pc := s.me.iss.bpc + off.signExtend 60

/-- The address after the bundle, as call and callr link it (R135). -/
def State.link (s : State) : U64 := pcAddr (s.me.iss.bpc + 1)

/-- An indirect transfer (R18, R135): cause 0x10 when the target's bits [3:0] are not zero. -/
def State.jump (s : State) (target : U64) (f : State → State) : State :=
  if target.extractLsb' 0 4 ≠ 0 then s.trap 0x10 target else (f s).transfer (pcOf target)

/-- BR (R135). -/
def execBr (p : U3) (off : BitVec 19) (s : State) : Out := .next (s.when (s.pred p) (s.transfer (s.target off)))
/-- BRN (R135). -/
def execBrn (p : U3) (off : BitVec 19) (s : State) : Out := .next (s.when (!s.pred p) (s.transfer (s.target off)))
/-- CALL (R135). -/
def execCall (p : U3) (off : BitVec 19) (s : State) : Out :=
  let t := s.issueG 1 (.reg 31) p s.link 0
  .next (if s.pred p then t.transfer (s.target off) else t)
/-- JR (R135). -/
def execJr (a : Src) (p : U3) (s : State) : Out := .next (s.when (s.pred p) (s.jump (s.src a) id))
/-- CALLR (R135). -/
def execCallr (d : Dst) (a : Src) (p : U3) (s : State) : Out :=
  .next (if s.pred p then s.jump (s.src a) (fun t => t.issueG 1 d p t.link 0) else s.issueG 1 d p s.link 0)
/-- RET (R135). -/
def execRet (p : U3) (s : State) : Out := .next (s.when (s.pred p) (s.jump (s.me.regs.readG 31) id))

/-- The loop registers changed. -/
def State.setLoop (s : State) (l : LoopRegs) : State := { s with me := { s.me with loop := l } }

/-- LCLR (R139): of an inactive loop it has no effect. -/
def execLclr (n p : U3) (s : State) : Out :=
  let l := s.me.loop
  .next (s.when (s.pred p && l.lact.getLsbD n.toNat)
    (s.setLoop { l with lcnt := l.lcnt.set n.toNat 0 n.isLt,
                        lact := lactOf ((loopOrder l.lact).filter (· != n.toNat)) }))

/-- LOOP (R136): a count of zero skips the body as a taken branch. Its predicate is p0: the SL format has none. -/
def execLoop (lid : U3) (a : Src) (last : BitVec 17) (s : State) : Out :=
  let l := s.me.loop
  let endPc := s.me.iss.bpc + last.zeroExtend 60
  .next (if s.src a = 0 then s.transfer (endPc + 1)
    else s.setLoop
      { lcnt := l.lcnt.set lid.toNat (s.src a) lid.isLt
        lbeg := l.lbeg.set lid.toNat (pcAddr (s.me.iss.bpc + 1)) lid.isLt
        lend := l.lend.set lid.toNat (pcAddr endPc) lid.isLt
        lact := lactOf (lid.toNat :: (loopOrder l.lact).filter (· != lid.toNat)) })

/-- A cause to take after the bundle (R143). -/
def State.afterTrap (s : State) (code : Byte) (info : U64) : State :=
  { s with me := { s.me with iss := { s.me.iss with after := some (code, info) } } }

/-- The full save budget of the bound context (R362). -/
def Thread.budget (t : Thread) : U64 := match t.bound with | some b => b.budget.zeroExtend 64 | none => 0

/-- YIELD (R148): cause 0x31 after this bundle when a pre-emption request is posted and PRIV is 0. -/
def execYield (p : U3) (s : State) : Out :=
  .next (s.when (s.pred p && s.me.cx.req && !s.me.priv) (s.afterTrap 0x31 s.me.budget))
/-- TRAP (R148). -/
def execTrap (a : Src) (p : U3) (s : State) : Out := .next (s.when (s.pred p) (s.afterTrap 0x04 (s.src a)))
/-- BRK (R148). -/
def execBrk (p : U3) (s : State) : Out := .next (s.when (s.pred p) (s.afterTrap 0x50 0))
/-- HALT (R149, R330): the last bundle of its task; a pre-emption request is withdrawn, and the wait that follows ends in
HALT_COMPLETE. -/
def execHalt (p : U3) (s : State) : Out := .next (s.when (s.pred p) { s with me := { s.me.withdraw with run := .halting } })

/-- URET (R150). -/
def execUret (p : U3) (s : State) : Out :=
  .next (s.when (s.pred p)
    (if s.me.priv || s.me.top.all (fun f => f.tagS) then s.trapWord 0x01
     else { s with me := s.me.returnTo false (pcOf s.me.trap.uepc) s.me.trap.ulact s.me.priv }))
/-- SRET (R150). -/
def execSret (p : U3) (s : State) : Out :=
  .next (s.supervisor (s.when (s.pred p)
    (if s.me.top.any (fun f => !f.tagS) then s.trapWord 0x01
     else { s with me := s.me.returnTo true (pcOf s.me.trap.sepc) s.me.trap.slact (s.me.trap.sprev.getLsbD 0) })))

/-- The loads among discarded entries whose data is still to arrive: they hold their tag and store until then (R151). -/
def orphansOf (es : List Infl) : List Load :=
  es.filterMap fun e => e.load.filter fun l => decide (l.phase = .waiting)

/-- RBDROP (R151). -/
def execRbdrop (p : U3) (s : State) : Out :=
  .next (s.when (s.pred p) (match s.me.top with
    | none => if s.me.priv then s else s.trapWord 0x01
    | some f =>
      if !s.me.priv && f.tagS then s.trapWord 0x01
      else { s with me := { s.me.freeTop with orphans := s.me.orphans ++ orphansOf f.infl } }))

end Sys2Proof.Machine
end

