-- ==== Sys2Proof/Machine/Elem.lean ====
section
/-! DEFINITION. Operations on one element: the floating and integer functions of chapter 05, the conversions of R71,
R78, R79 and R167, the moment helpers of R82..R92 and the group sums of R93..R97. -/
namespace Sys2Proof.Machine

/-! Elements of vectors (R30). -/

/-- Element i of width w. -/
def velem (x : Vec) (w i : Nat) : Nat := (x.extractLsb' (w * i) w).toNat

/-- The number whose element i, of width w, is f i, for i below n. -/
def packNat (w : Nat) (f : Nat → Nat) : Nat → Nat → Nat
  | 0, _ => 0
  | n + 1, i => f i % 2 ^ w + 2 ^ w * packNat w f n (i + 1)

/-- The vector whose elements of width w are f 0, f 1, … -/
def vbuild (w : Nat) (f : Nat → Nat) : Vec := BitVec.ofNat 2048 (packNat w f (2048 / w) 0)

/-- The flags of all elements together. -/
def orFlags (f : Nat → U16) : Nat → U16
  | 0 => 0
  | n + 1 => orFlags f n ||| f n

/-! Floating point (R158, R159). -/

/-- The invalid flag of an operation over the inputs: a signalling NaN, or a NaN made from none (R66). -/
def ivOf (ins : List FV) (res : FV) : U16 :=
  if ins.any FV.isSnan || (res.isNan && !ins.any FV.isNan) then flIV else 0

/-- Round an exact result and add the invalid flag. -/
def finish (F : Fmt) (rm draw : Nat) (ins : List FV) (res : FV) : FR :=
  let r := froundV F rm false draw res
  ⟨r.bits, r.fl ||| ivOf ins res⟩

def fadd (F : Fmt) (rm draw a b : Nat) : FR :=
  let x := fdecode F a
  let y := fdecode F b
  finish F rm draw [x, y] (x.add (rm == 3) y)

def fsub (F : Fmt) (rm draw a b : Nat) : FR :=
  let x := fdecode F a
  let y := fdecode F b
  finish F rm draw [x, y] (x.add (rm == 3) y.neg)

def fmul (F : Fmt) (rm draw a b : Nat) : FR :=
  let x := fdecode F a
  let y := fdecode F b
  finish F rm draw [x, y] (x.mul y)

/-- a / b with DZ for a finite non-zero dividend and a zero divisor (R68). -/
def fdivV (F : Fmt) (rm draw : Nat) (x y : FV) : FR :=
  let s := x.isNeg != y.isNeg
  match x, y with
  | .nan _, _ | _, .nan _ => finish F rm draw [x, y] (.nan false)
  | .inf _, .inf _ | .zero _, .zero _ => ⟨F.nan, flIV⟩
  | .inf _, _ => froundV F rm false draw (.inf s)
  | _, .inf _ => froundV F rm false draw (.zero s)
  | .zero _, _ => froundV F rm false draw (.zero s)
  | .fin _, .zero _ =>
    let r := froundV F rm false draw (.inf s)
    ⟨r.bits, flDZ⟩
  | .fin p, .fin q => fround F rm false draw (p.quot q)

def fdiv (F : Fmt) (rm draw a b : Nat) : FR := fdivV F rm draw (fdecode F a) (fdecode F b)

/-- The pattern of 1.0. -/
def Fmt.one (F : Fmt) : Nat := F.bias * 2 ^ F.mb

/-- vrcp: 1 / a. -/
def frcp (F : Fmt) (rm draw a : Nat) : FR := fdivV F rm draw (.fin ⟨1, 0⟩) (fdecode F a)

def fsqrtV (F : Fmt) (rm draw : Nat) (x : FV) : FR :=
  match x with
  | .nan _ => finish F rm draw [x] (.nan false)
  | .zero s => froundV F rm false draw (.zero s)
  | .inf s => if s then ⟨F.nan, flIV⟩ else froundV F rm false draw x
  | .fin y => if y.n < 0 then ⟨F.nan, flIV⟩ else fround F rm false draw y.root

def fsqrt (F : Fmt) (rm draw a : Nat) : FR := fsqrtV F rm draw (fdecode F a)

/-- −0 is below +0 (R158). -/
def fltTotal (x y : FV) : Bool :=
  match x, y with
  | .zero s, .zero t => s && !t
  | _, _ => x.lt y

/-- Minimum or maximum (R158): either NaN gives NaN. -/
def fminmax (F : Fmt) (mx : Bool) (a b : Nat) : FR :=
  let x := fdecode F a
  let y := fdecode F b
  if x.isNan || y.isNan then ⟨F.nan, ivOf [x, y] (.nan false)⟩
  else if (if mx then fltTotal x y else fltTotal y x) then ⟨b, 0⟩ else ⟨a, 0⟩

/-- An element that takes part in a floating reduction (R66, R170; log 88): a NaN is the canonical one, and a signalling one
sets IV. -/
def fquiet (F : Fmt) (a : Nat) : FR :=
  let x := fdecode F a
  if x.isNan then ⟨F.nan, ivOf [x] (.nan false)⟩ else ⟨a, 0⟩

def fabsneg (F : Fmt) (ng : Bool) (a : Nat) : FR :=
  let x := fdecode F a
  if x.isNan then ⟨F.nan, ivOf [x] (.nan false)⟩
  else ⟨if ng then (if a < F.signBit then a + F.signBit else a - F.signBit) else a % F.signBit, 0⟩

/-- a − trunc(a), exact, with the sign of a. -/
def ffrac (F : Fmt) (a : Nat) : FR :=
  let x := fdecode F a
  match x with
  | .nan _ => ⟨F.nan, ivOf [x] (.nan false)⟩
  | .inf _ => ⟨F.nan, flIV⟩
  | .zero s => froundV F 0 false 0 (.zero s)
  | .fin y =>
    let t : Int := if y.n < 0 then -(y.neg.floorAt 0) else y.floorAt 0
    let r := y.add ⟨-t, 0⟩
    if r.n == 0 then froundV F 0 false 0 (.zero (y.n < 0)) else fround F 0 false 0 r.toEx

/-- The class bit (R158). -/
def fclass (F : Fmt) (a : Nat) : Nat :=
  let e := a / 2 ^ F.mb % 2 ^ F.eb
  match fdecode F a with
  | .nan s => if s then 2 ^ 8 else 2 ^ 9
  | .inf s => if s then 2 ^ 0 else 2 ^ 7
  | .zero s => if s then 2 ^ 3 else 2 ^ 4
  | .fin x => if e == 0 then (if x.n < 0 then 2 ^ 2 else 2 ^ 5) else if x.n < 0 then 2 ^ 1 else 2 ^ 6

/-- ±(a × b) ± c, rounded once (R159). -/
def ffma (F : Fmt) (rm draw : Nat) (np nc : Bool) (a b c : Nat) : FR :=
  let x := fdecode F a
  let y := fdecode F b
  let z := fdecode F c
  let p := x.mul y
  let badProduct := p.isNan && !x.isNan && !y.isNan
  let s := (if np then p.neg else p).add (rm == 3) (if nc then z.neg else z)
  let r := finish F rm draw [x, y, z] s
  ⟨r.bits, r.fl ||| (if badProduct then flIV else 0)⟩

/-- A compare outcome and its flags (R162): 0 eq, 1 lt, 2 le, 3 un. -/
def fcmp (kind a b : Nat) : Bool × U16 :=
  let x := fdecode fp32 a
  let y := fdecode fp32 b
  let anyNan := x.isNan || y.isNan
  let iv := if x.isSnan || y.isSnan || (anyNan && (kind == 1 || kind == 2)) then flIV else 0
  (match kind with
    | 0 => x.eqv y
    | 1 => x.lt y
    | 2 => !anyNan && !(y.lt x)
    | _ => anyNan, iv)

/-- The elementary functions by name (R171). -/
inductive Trans where
  | exp2 | log2 | rsqrt | tanh | sinpi | cospi | erf | sigm
  deriving DecidableEq, Repr

def ftrans (t : Trans) (F : Fmt) (rm draw a : Nat) : FR :=
  let x := fdecode F a
  let nanIV : FR := ⟨F.nan, flIV⟩
  let val (v : FV) : FR := froundV F rm false draw v
  let dz (v : FV) : FR := ⟨(val v).bits, flDZ⟩
  let one (s : Bool) : FR := val (.fin ⟨if s then -1 else 1, 0⟩)
  match t, x with
  | _, .nan s => ⟨F.nan, if s then flIV else 0⟩
  | .exp2, .inf s => if s then val (.zero false) else val (.inf false)
  | .exp2, .zero _ => one false
  | .exp2, .fin y => fExp2 F rm draw y
  | .log2, .zero _ => dz (.inf true)
  | .log2, .inf s => if s then nanIV else val (.inf false)
  | .log2, .fin y => if y.n < 0 then nanIV else fLog2 F rm draw y
  | .rsqrt, .zero s => dz (.inf s)
  | .rsqrt, .inf s => if s then nanIV else val (.zero false)
  | .rsqrt, .fin y => if y.n < 0 then nanIV else fround F rm false draw y.rroot
  | .tanh, .inf s => one s
  | .tanh, .zero s => val (.zero s)
  | .tanh, .fin y => fTanh F rm draw y
  | .sinpi, .inf _ => nanIV
  | .sinpi, .zero s => val (.zero s)
  | .sinpi, .fin y => fSinPi F rm draw y
  | .cospi, .inf _ => nanIV
  | .cospi, .zero _ => one false
  | .cospi, .fin y => fCosPi F rm draw y
  | .erf, .inf s => one s
  | .erf, .zero s => val (.zero s)
  | .erf, .fin y => fErf F rm draw y
  | .sigm, .inf s => if s then val (.zero false) else one false
  | .sigm, .zero _ => val (.fin ⟨1, -1⟩)
  | .sigm, .fin y => fSigm F rm draw y

/-! Conversions (R71, R167). -/

/-- A real value to an integer type: rounded by rm, then saturated (R71). -/
def realToInt (et rm draw : Nat) (v : FV) : FR :=
  let w := etWidth et
  match v with
  | .nan _ => ⟨0, flIV⟩
  | .inf s => ⟨wrapTo w (if s then etMin et else etMax et), flVSAT⟩
  | .zero _ => ⟨0, 0⟩
  | .fin x =>
    let r := roundInt rm draw x
    let c := clampInt (etMin et) (etMax et) r.1
    ⟨wrapTo w c, if c != r.1 then flVSAT else if r.2 then flNX else 0⟩

/-- Convert between element types (R167); the types are not both integer. DESIGN CHOICE (log 82): an integer whose conversion
overflows the destination format sets OF with NX, and VSAT under SAT, as any rounding to the format does. -/
def fconvert (src dst rm : Nat) (sat : Bool) (draw bits : Nat) : FR :=
  if src ≤ 4 then
    let v := fdecode (fmtOf src) bits
    let iv := if v.isSnan then flIV else 0
    let r := if dst ≤ 4 then froundV (fmtOf dst) rm sat draw v else realToInt dst rm draw v
    ⟨r.bits, r.fl ||| iv⟩
  else froundV (fmtOf dst) rm sat draw (.ofDy ⟨intVal src bits, 0⟩)

/-- An exact value delivered to an element type by a load or store conversion: RNE with saturation (R78, R79). -/
def deliver (et : Nat) (v : FV) : Nat :=
  if et ≤ 4 then (froundV (fmtOf et) 0 (et == 3 || et == 4) 0 v).bits else (realToInt et 0 0 v).bits

/-- The exact value of an element of any type. -/
def elemValue (et bits : Nat) : FV := if et ≤ 4 then fdecode (fmtOf et) bits else .ofDy ⟨intVal et bits, 0⟩

/-! The moment helpers (R82..R92) on FP32 patterns. -/

def fv (b : Nat) : FV := fdecode fp32 b
def rne (v : FV) : Nat := rbits fp32 0 v
def rup (v : FV) : Nat := rbits fp32 2 v
def rdn (v : FV) : Nat := rbits fp32 3 v
def fvadd (a b : FV) : FV := a.add false b
def fvsub (a b : FV) : FV := a.add false b.neg
/-- RoundRNE(√v) and SqrtUp(v) (R83). -/
def sqrtNe (v : Nat) : Nat := (fsqrt fp32 0 0 v).bits
def sqrtUp (v : Nat) : Nat := (fsqrt fp32 2 0 v).bits
/-- A variance as it is written: a zero is +0 (R82). -/
def posZero (v : Nat) : Nat := if v == 0x80000000 then 0 else v
/-- max(v, +0). -/
def maxZero (v : Nat) : Nat := if (fv v).isNan then fp32.nan else if (fv v).isNeg then 0 else v
/-- v < 0. -/
def negative (v : Nat) : Bool := (fv v).lt (.zero false)
/-- NaN or infinite. -/
def special (v : Nat) : Bool := (fv v).isNan || (fv v).isInf

/-- e^(−x) rounded to nearest, for an FP32 x ≥ 0 that may be infinite. -/
def expNeg (x : Nat) : Nat :=
  match fv x with
  | .fin y => fExp32 0 y.neg
  | .zero _ => 0x3F800000
  | _ => 0

/-- Phi of R86. -/
def phi (x : Nat) : Nat :=
  let v := fv x
  if !(v.lt (.fin ⟨9, 0⟩)) then 0x3F800000
  else if !((FV.fin ⟨-9, 0⟩).lt v) then 0
  else
    let mul (a b : Nat) : Nat := (fmul fp32 0 0 a b).bits
    let add (a b : Nat) : Nat := (fadd fp32 0 0 a b).bits
    let y := mul (x % 0x80000000) 0x3F3504F3
    let t := (fdiv fp32 0 0 0x3F800000 (add 0x3F800000 (mul 0x3EA7BA05 y))).bits
    let p := mul t (add 0x3E827906 (mul t (add 0xBE91A98E (mul t (add 0x3FB5F0E3 (mul t
      (add 0xBFBA00E3 (mul t 0x3F87DC22))))))))
    let c := mul p (expNeg (mul y y))
    let h := mul 0x3F000000 c
    if v.isNeg && !v.isZero then h else (fsub fp32 0 0 0x3F800000 h).bits

/-- PhiDensity of R86. -/
def phiDensity (x : Nat) : Nat :=
  let mul (a b : Nat) : Nat := (fmul fp32 0 0 a b).bits
  mul (expNeg (mul (mul x x) 0x3F000000)) 0x3ECC422A

/-- A moment pair. -/
structure Pair where
  mu : Nat
  v : Nat
  deriving DecidableEq, Repr

/-- MomentAdd and MomentSub (R84): cov 0 INDEP, 1 CORR, 2 ANTI, 3 REF. -/
def momentAddSub (sub : Bool) (cov rho : Nat) (a b : Pair) : Pair :=
  let mu := rne (if sub then fvsub (fv a.mu) (fv b.mu) else fvadd (fv a.mu) (fv b.mu))
  let base := fvadd (fv a.v) (fv b.v)
  let two : FV := .fin ⟨1, 1⟩
  let v :=
    match cov with
    | 0 => rup base
    | 1 => rup (fvadd base (two.mul ((fv (sqrtUp a.v)).mul (fv (sqrtUp b.v)))))
    | 2 =>
      let t := rne ((fv (sqrtNe a.v)).mul (fv (sqrtNe b.v)))
      rup (fvsub base (two.mul (fv t)))
    | _ =>
      let t := rne (((fv (sqrtNe a.v)).mul (fv (sqrtNe b.v))).mul (fv rho))
      rup (fvadd base (two.mul (fv t)))
  ⟨mu, posZero v⟩

/-- MomentMul (R85). -/
def momentMul (a b : Pair) : Pair :=
  let ma := fv a.mu
  let mb := fv b.mu
  let va := fv a.v
  let vb := fv b.v
  ⟨rne (ma.mul mb), posZero (rup (fvadd (fvadd ((ma.mul ma).mul vb) ((mb.mul mb).mul va)) (va.mul vb)))⟩

/-- MomentScale (R85). -/
def momentScale (c : Nat) (a : Pair) : Pair :=
  let k := fv c
  ⟨rne (k.mul (fv a.mu)), posZero (rup ((k.mul k).mul (fv a.v)))⟩

/-- MomentRelu (R88). -/
def momentRelu (a : Pair) : Pair :=
  let mu := fv a.mu
  if (fv a.v).isZero then ⟨maxZero a.mu, 0⟩
  else
    let sg := sqrtNe a.v
    let al := (fdivV fp32 0 0 mu (fv sg)).bits
    let P := fv (phi al)
    let d := fv (phiDensity al)
    let m := rne (fvadd (mu.mul P) ((fv sg).mul d))
    let q := rup (fvadd ((fvadd (mu.mul mu) (fv a.v)).mul P) ((mu.mul (fv sg)).mul d))
    ⟨m, maxZero (rup (fvsub (fv q) ((fv m).mul (fv m))))⟩

/-- The dyadic of a finite FP32 value. -/
def dyOf (v : FV) : Dy :=
  match v with
  | .fin x => x
  | _ => ⟨0, 0⟩

/-- MomentExp (R89). -/
def momentExp (a : Pair) : Pair :=
  let mu := dyOf (fv a.mu)
  let v := dyOf (fv a.v)
  ⟨fExp32 0 (mu.add (v.mul ⟨1, -1⟩)), if v.n == 0 then 0 else fExpVar v ((mu.mul ⟨1, 1⟩).add v)⟩

/-- MomentSigmoid (R90). -/
def momentSigmoid (a : Pair) : Pair :=
  let c := fProbit (dyOf (fv a.v))
  let x := (dyOf (fv a.mu)).mul (dyOf (fv c))
  let m := if x.n == 0 then 0x3F000000 else (fSigm fp32 0 0 x).bits
  let one : FV := .fin ⟨1, 0⟩
  let v := rup (((fv m).mul (fvsub one (fv m))).mul (fvsub one (fv c)))
  ⟨m, maxZero v⟩

/-- MomentGelu (R91). -/
def momentGelu (a : Pair) : Pair :=
  let mu := fv a.mu
  let v := fv a.v
  let s := (fround fp32 0 false 0 ((dyOf v).add ⟨1, 0⟩).rroot).bits
  let sv := fv s
  let al := rne (mu.mul sv)
  let P := fv (phi al)
  let d := fv (phiDensity al)
  let m := rne (fvadd (mu.mul P) ((v.mul sv).mul d))
  let g := rne (fvadd P ((mu.mul ((sv.mul sv).mul sv)).mul d))
  ⟨m, posZero (rup (((fv g).mul (fv g)).mul v))⟩

/-- The collapse helpers (R92). -/
def collapseUpper (a : Pair) (k : Nat) : Nat :=
  rup ((fv a.mu).add false (fv (rup ((fv k).mul (fv (sqrtUp a.v))))))
def collapseLower (a : Pair) (k : Nat) : Nat :=
  rdn ((fv a.mu).add true (fv (rup ((fv k).mul (fv (sqrtUp a.v))))).neg)
def collapseSample (a : Pair) (W : U64) (j : Nat) : Nat :=
  rne (fvadd (fv a.mu) ((fv (sqrtNe a.v)).mul (fv (invCdf (stochBits W j)))))

/-! Group sums of the matrix engine (R93, R94). -/

/-- The exact sum of the products of a group. -/
def groupSum (ps : List FV) : FV :=
  if ps.any FV.isNan then .nan false
  else
    let up := ps.any (fun p => p.isInf && !p.isNeg)
    let dn := ps.any (fun p => p.isInf && p.isNeg)
    if up && dn then .nan false
    else if up then .inf false
    else if dn then .inf true
    else
      let s := ps.foldl (fun acc p => acc.add (dyOf p)) ⟨0, 0⟩
      if s.n == 0 then .zero (ps.all (fun p => p.isZero && p.isNeg)) else .fin s

/-- C + s rounded once, to nearest or upward (R93, R97). -/
def accumulate (rm c : Nat) (s : FV) : Nat := rbits fp32 rm ((fv c).add false s)

end Sys2Proof.Machine
end

