-- ==== Sys2Proof/Machine/Vector.lean ====
section
/-! DEFINITION. The vector instructions of 05: floating point (R158, R159), integer and logical (R160, R161), compares
and masks (R162..R165), conversions (R166, R167), moves (R168, R169), reductions (R170) and the elementary functions
(R171). -/
namespace Sys2Proof.Machine

/-- Elements of width w, the first lowest. -/
def packBits (w : Nat) : List Nat → Nat
  | [] => 0
  | x :: t => x % 2 ^ w + 2 ^ w * packBits w t

/-- Whether element e of width w is enabled by a mask (R30, R153). -/
def enabled (k : U64) (w e : Nat) : Bool := k.getLsbD (e * w / 32)

/-- The lanes that a mask lets an instruction of element width w write (R30, R153). -/
def writeMask (k : U64) (w : Nat) : U64 := if w = 64 then pairMask k else k

/-- The flags of all elements. -/
def anyFlags (rs : List FR) : U16 := rs.foldl (fun a r => a ||| r.fl) 0

/-- A vector-class result formed element by element (R153, R156). -/
def State.vec (s : State) (lat : Nat) (d : Dst) (k : U64) (w : Nat) (f : Nat → FR) : State :=
  let rs := (List.range (2048 / w)).map fun e => if enabled k w e then f e else ⟨0, 0⟩
  s.issue lat (.v d (BitVec.ofNat 2048 (packBits w (rs.map (·.bits)))) (writeMask k w)) (anyFlags rs)

/-- The word of the random-bit queue that a bundle draws from, if it needs one (R72): the bundle is held while the
queue is empty. -/
def State.withW (s : State) (need : Bool) (f : U64 → State → State) : State :=
  if need then
    match s.me.rnq with
    | [] => s.hold
    | w :: _ => f w { s with me := { s.me with iss := { s.me.iss with usedW := true } } }
  else f 0 s

/-- A floating form of one format: RM = 4 draws (R155). -/
def State.fvec (s : State) (lat : Nat) (d : Dst) (t k rm : U3) (f : Fmt → Nat → Nat → Nat → FR) : State :=
  s.withW (rm = 4) fun w s =>
    s.vec lat d (s.kmask k) (etWidth t.toNat) fun e => f (fmtOf t.toNat) rm.toNat (stochBits w e) e

/-- Element e of a vector source, of type t. -/
def State.el (s : State) (a : VSrc) (w e : Nat) : Nat := velem (s.vsrc a) w e

/-- VADD (R158). -/
def execVadd (d : Dst) (a b : VSrc) (t k rm : U3) (s : State) : Out :=
  .next (s.fvec 4 d t k rm fun F rm w e => fadd F rm w (s.el a F.width e) (s.el b F.width e))

/-- VSUB (R158). -/
def execVsub (d : Dst) (a b : VSrc) (t k rm : U3) (s : State) : Out :=
  .next (s.fvec 4 d t k rm fun F rm w e => fsub F rm w (s.el a F.width e) (s.el b F.width e))

/-- VMUL (R158). -/
def execVmul (d : Dst) (a b : VSrc) (t k rm : U3) (s : State) : Out :=
  .next (s.fvec 4 d t k rm fun F rm w e => fmul F rm w (s.el a F.width e) (s.el b F.width e))

/-- VDIV (R158). -/
def execVdiv (d : Dst) (a b : VSrc) (t k rm : U3) (s : State) : Out :=
  .next (s.fvec 12 d t k rm fun F rm w e => fdiv F rm w (s.el a F.width e) (s.el b F.width e))

/-- VMIN (R158). -/
def execVmin (d : Dst) (a b : VSrc) (t k rm : U3) (s : State) : Out :=
  .next (s.fvec 4 d t k rm fun F _ _ e => fminmax F false (s.el a F.width e) (s.el b F.width e))

/-- VMAX (R158). -/
def execVmax (d : Dst) (a b : VSrc) (t k rm : U3) (s : State) : Out :=
  .next (s.fvec 4 d t k rm fun F _ _ e => fminmax F true (s.el a F.width e) (s.el b F.width e))

/-- VABS (R158). -/
def execVabs (d : Dst) (a : VSrc) (t k rm : U3) (s : State) : Out :=
  .next (s.fvec 2 d t k rm fun F _ _ e => fabsneg F false (s.el a F.width e))

/-- VNEG (R158). -/
def execVneg (d : Dst) (a : VSrc) (t k rm : U3) (s : State) : Out :=
  .next (s.fvec 2 d t k rm fun F _ _ e => fabsneg F true (s.el a F.width e))

/-- VFRAC (R158), with an RM that is 0 (R155). -/
def execVfrac (d : Dst) (a : VSrc) (t k rm : U3) (s : State) : Out :=
  .next (s.fvec 4 d t k rm fun F _ _ e => ffrac F (s.el a F.width e))

/-- VCLASS (R158), with an RM that is 0 (R155). -/
def execVclass (d : Dst) (a : VSrc) (t k rm : U3) (s : State) : Out :=
  .next (s.fvec 2 d t k rm fun F _ _ e => ⟨fclass F (s.el a F.width e), 0⟩)

/-- VSQRT (R158). -/
def execVsqrt (d : Dst) (a : VSrc) (t k rm : U3) (s : State) : Out :=
  .next (s.fvec 12 d t k rm fun F rm w e => fsqrt F rm w (s.el a F.width e))

/-- VRCP (R158). -/
def execVrcp (d : Dst) (a : VSrc) (t k rm : U3) (s : State) : Out :=
  .next (s.fvec 8 d t k rm fun F rm w e => frcp F rm w (s.el a F.width e))

/-- VEXP2 (R171). -/
def execVexp2 (d : Dst) (a : VSrc) (t k rm : U3) (s : State) : Out :=
  .next (s.fvec 8 d t k rm fun F rm w e => ftrans .exp2 F rm w (s.el a F.width e))

/-- VLOG2 (R171). -/
def execVlog2 (d : Dst) (a : VSrc) (t k rm : U3) (s : State) : Out :=
  .next (s.fvec 8 d t k rm fun F rm w e => ftrans .log2 F rm w (s.el a F.width e))

/-- VRSQRT (R171). -/
def execVrsqrt (d : Dst) (a : VSrc) (t k rm : U3) (s : State) : Out :=
  .next (s.fvec 8 d t k rm fun F rm w e => ftrans .rsqrt F rm w (s.el a F.width e))

/-- VTANH (R171). -/
def execVtanh (d : Dst) (a : VSrc) (t k rm : U3) (s : State) : Out :=
  .next (s.fvec 8 d t k rm fun F rm w e => ftrans .tanh F rm w (s.el a F.width e))

/-- VSINPI (R171). -/
def execVsinpi (d : Dst) (a : VSrc) (t k rm : U3) (s : State) : Out :=
  .next (s.fvec 8 d t k rm fun F rm w e => ftrans .sinpi F rm w (s.el a F.width e))

/-- VCOSPI (R171). -/
def execVcospi (d : Dst) (a : VSrc) (t k rm : U3) (s : State) : Out :=
  .next (s.fvec 8 d t k rm fun F rm w e => ftrans .cospi F rm w (s.el a F.width e))

/-- VERF (R171). -/
def execVerf (d : Dst) (a : VSrc) (t k rm : U3) (s : State) : Out :=
  .next (s.fvec 8 d t k rm fun F rm w e => ftrans .erf F rm w (s.el a F.width e))

/-- VSIGM (R171). -/
def execVsigm (d : Dst) (a : VSrc) (t k rm : U3) (s : State) : Out :=
  .next (s.fvec 8 d t k rm fun F rm w e => ftrans .sigm F rm w (s.el a F.width e))

/-- A fused form (R159): the type field has two bits. -/
def State.fma (s : State) (d : Dst) (a b c : VSrc) (t : U2) (k rm : U3) (np nc : Bool) : State :=
  s.fvec 4 d (t.zeroExtend 3) k rm fun F rm w e =>
    ffma F rm w np nc (s.el a F.width e) (s.el b F.width e) (s.el c F.width e)

/-- VFMA (R159). -/
def execVfma (d : Dst) (a b c : VSrc) (t : U2) (k rm : U3) (s : State) : Out :=
  .next (s.fma d a b c t k rm false false)

/-- VFMS (R159). -/
def execVfms (d : Dst) (a b c : VSrc) (t : U2) (k rm : U3) (s : State) : Out :=
  .next (s.fma d a b c t k rm false true)

/-- VFNMA (R159). -/
def execVfnma (d : Dst) (a b c : VSrc) (t : U2) (k rm : U3) (s : State) : Out :=
  .next (s.fma d a b c t k rm true false)

/-- VFNMS (R159). -/
def execVfnms (d : Dst) (a b c : VSrc) (t : U2) (k rm : U3) (s : State) : Out :=
  .next (s.fma d a b c t k rm true true)

/-- An integer form of two sources (R160): the exact result, and whether it is clamped to the type's range. -/
def State.ivec (s : State) (lat : Nat) (d : Dst) (a b : VSrc) (t k : U3) (clamp : Bool) (f : Int → Int → Int) : State :=
  let et := intEt t
  let w := etWidth et
  s.vec lat d (s.kmask k) w fun e =>
    let x := f (intVal et (s.el a w e)) (intVal et (s.el b w e))
    let c := if clamp then clampInt (etMin et) (etMax et) x else x
    ⟨wrapTo w c, if clamp && c != x then flVSAT else 0⟩

/-- VIADD (R160). -/
def execViadd (d : Dst) (a b : VSrc) (t k : U3) (s : State) : Out :=
  .next (s.ivec 2 d a b t k false fun x y => x + y)

/-- VISUB (R160). -/
def execVisub (d : Dst) (a b : VSrc) (t k : U3) (s : State) : Out :=
  .next (s.ivec 2 d a b t k false fun x y => x - y)

/-- VIADDS (R160). -/
def execViadds (d : Dst) (a b : VSrc) (t k : U3) (s : State) : Out :=
  .next (s.ivec 2 d a b t k true fun x y => x + y)

/-- VISUBS (R160). -/
def execVisubs (d : Dst) (a b : VSrc) (t k : U3) (s : State) : Out :=
  .next (s.ivec 2 d a b t k true fun x y => x - y)

/-- VIMIN (R160). -/
def execVimin (d : Dst) (a b : VSrc) (t k : U3) (s : State) : Out :=
  .next (s.ivec 2 d a b t k false fun x y => if x ≤ y then x else y)

/-- VIMAX (R160). -/
def execVimax (d : Dst) (a b : VSrc) (t k : U3) (s : State) : Out :=
  .next (s.ivec 2 d a b t k false fun x y => if x ≤ y then y else x)

/-- VIMUL (R160). -/
def execVimul (d : Dst) (a b : VSrc) (t k : U3) (sat : Bool) (s : State) : Out :=
  .next (s.ivec 4 d a b t k sat fun x y => x * y)

/-- VIMULH (R160): the high half of the exact product. -/
def execVimulh (d : Dst) (a b : VSrc) (t k : U3) (s : State) : Out :=
  .next (s.ivec 4 d a b t k false fun x y => x * y / (2 ^ etWidth (intEt t) : Nat))

/-- A logical form on whole lanes (R161). -/
def State.lvec (s : State) (d : Dst) (k : U3) (x : Vec) : State := s.issue 2 (.v d x (s.kmask k)) 0

/-- VAND (R161). -/
def execVand (d : Dst) (a b : VSrc) (k : U3) (s : State) : Out := .next (s.lvec d k (s.vsrc a &&& s.vsrc b))

/-- VOR (R161). -/
def execVor (d : Dst) (a b : VSrc) (k : U3) (s : State) : Out := .next (s.lvec d k (s.vsrc a ||| s.vsrc b))

/-- VXOR (R161). -/
def execVxor (d : Dst) (a b : VSrc) (k : U3) (s : State) : Out := .next (s.lvec d k (s.vsrc a ^^^ s.vsrc b))

/-- VANDN (R161). -/
def execVandn (d : Dst) (a b : VSrc) (k : U3) (s : State) : Out := .next (s.lvec d k (s.vsrc a &&& ~~~ s.vsrc b))

/-- A shift by the low log2 w bits of the matching element (R161): pattern, width, amount. -/
def State.svec (s : State) (d : Dst) (a b : VSrc) (t k : U3) (f : Nat → Nat → Nat → Nat) : State :=
  let w := etWidth (intEt t)
  s.vec 2 d (s.kmask k) w fun e => ⟨f (s.el a w e) w (s.el b w e % w), 0⟩

/-- VSLL (R161). -/
def execVsll (d : Dst) (a b : VSrc) (t k : U3) (s : State) : Out :=
  .next (s.svec d a b t k fun x _ n => x * 2 ^ n)
/-- VSRL (R161). -/
def execVsrl (d : Dst) (a b : VSrc) (t k : U3) (s : State) : Out :=
  .next (s.svec d a b t k fun x _ n => x / 2 ^ n)
/-- VSRA (R161): with UINT8 no sign is copied in. -/
def execVsra (d : Dst) (a b : VSrc) (t k : U3) (s : State) : Out :=
  .next (s.svec d a b t k fun x w n => wrapTo w (intVal (intEt t) x / (2 ^ n : Nat)))
/-- VROL (R161). -/
def execVrol (d : Dst) (a b : VSrc) (t k : U3) (s : State) : Out :=
  .next (s.svec d a b t k fun x w n => x * 2 ^ n + x / 2 ^ (w - n))

/-- A compare (R162): the outcome of element e of width w, for each lane that K enables, 0 for the others. -/
def State.compare (s : State) (kd k : U3) (w : Nat) (f : Nat → Bool × U16) : State :=
  let rs := (List.range (2048 / w)).map fun e => if enabled (s.kmask k) w e then f e else (false, 0)
  let bits := rs.map fun r => if r.1 then 2 ^ (w / 32) - 1 else 0
  s.issue 2 (.k kd (BitVec.ofNat 64 (packBits (w / 32) bits)) (BitVec.allOnes 64))
    (rs.foldl (fun a r => a ||| r.2) 0)

/-- VFCMP_EQ (R162). -/
def execVfcmpEq (kd : U3) (a b : VSrc) (k : U3) (s : State) : Out :=
  .next (s.compare kd k 32 fun e => fcmp 0 (s.el a 32 e) (s.el b 32 e))

/-- VFCMP_LT (R162). -/
def execVfcmpLt (kd : U3) (a b : VSrc) (k : U3) (s : State) : Out :=
  .next (s.compare kd k 32 fun e => fcmp 1 (s.el a 32 e) (s.el b 32 e))

/-- VFCMP_LE (R162). -/
def execVfcmpLe (kd : U3) (a b : VSrc) (k : U3) (s : State) : Out :=
  .next (s.compare kd k 32 fun e => fcmp 2 (s.el a 32 e) (s.el b 32 e))

/-- VFCMP_UN (R162). -/
def execVfcmpUn (kd : U3) (a b : VSrc) (k : U3) (s : State) : Out :=
  .next (s.compare kd k 32 fun e => fcmp 3 (s.el a 32 e) (s.el b 32 e))

/-- An integer compare (R162): T = 1 is INT64, T = 5 is INT32. -/
def State.icompare (s : State) (kd : U3) (a b : VSrc) (t k : U3) (f : Nat → Nat → Nat → Bool) : State :=
  let et := intEt t
  let w := etWidth et
  s.compare kd k w fun e => (f et (s.el a w e) (s.el b w e), 0)

/-- VICMP_EQ (R162). -/
def execVicmpEq (kd : U3) (a b : VSrc) (t k : U3) (s : State) : Out :=
  .next (s.icompare kd a b t k fun _ x y => x == y)

/-- VICMP_LT (R162). -/
def execVicmpLt (kd : U3) (a b : VSrc) (t k : U3) (s : State) : Out :=
  .next (s.icompare kd a b t k fun et x y => decide (intVal et x < intVal et y))

/-- VICMP_LE (R162). -/
def execVicmpLe (kd : U3) (a b : VSrc) (t k : U3) (s : State) : Out :=
  .next (s.icompare kd a b t k fun et x y => decide (intVal et x ≤ intVal et y))

/-- VICMP_LTU (R162). -/
def execVicmpLtu (kd : U3) (a b : VSrc) (t k : U3) (s : State) : Out :=
  .next (s.icompare kd a b t k fun _ x y => decide (x < y))

/-- KAND (R163). -/
def execKand (kd ka kb : U3) (s : State) : Out :=
  .next (s.issue 2 (.k kd (s.kmask ka &&& s.kmask kb) (BitVec.allOnes 64)) 0)

/-- KOR (R163). -/
def execKor (kd ka kb : U3) (s : State) : Out :=
  .next (s.issue 2 (.k kd (s.kmask ka ||| s.kmask kb) (BitVec.allOnes 64)) 0)

/-- KXOR (R163). -/
def execKxor (kd ka kb : U3) (s : State) : Out :=
  .next (s.issue 2 (.k kd (s.kmask ka ^^^ s.kmask kb) (BitVec.allOnes 64)) 0)

/-- KANDN (R163). -/
def execKandn (kd ka kb : U3) (s : State) : Out :=
  .next (s.issue 2 (.k kd (s.kmask ka &&& ~~~ s.kmask kb) (BitVec.allOnes 64)) 0)

/-- VSEL (R164): every lane is written. -/
def execVsel (d : Dst) (a b : VSrc) (k : U3) (s : State) : Out :=
  .next (s.issue 2 (.v d (mergeLanes (s.kmask k) (s.vsrc a) (s.vsrc b)) (BitVec.allOnes 64)) 0)

/-- VIMAD (R165). -/
def execVimad (d : Dst) (a b c : VSrc) (k : U3) (sat : Bool) (s : State) : Out :=
  .next (s.vec 4 d (s.kmask k) 32 fun e =>
    let x := intVal 5 (s.el a 32 e) * intVal 5 (s.el b 32 e) + intVal 5 (s.el c 32 e)
    let y := if sat then sat32 x else x
    ⟨wrapTo 32 y, if sat && y != x then flVSAT else 0⟩)

/-- A conversion (R166, R167): widening reads part p of the source, narrowing writes part p of the destination. -/
def State.convert (s : State) (d : Dst) (a : VSrc) (src dst : Nat) (k : U3) (part : U2) (rm : U3) (sat : Bool) : State :=
  let ws := etWidth src
  let wd := etWidth dst
  let n := 2048 / Nat.max ws wd
  let p := part.toNat
  let km := s.kmask k
  s.withW (rm = 4) fun w s =>
    if ws ≤ wd then
      s.vec 4 d km wd fun e => fconvert src dst rm.toNat sat (stochBits w e) (s.el a ws (p * n + e))
    else
      let lanes := n * wd / 32
      s.vec 4 d (km &&& BitVec.ofNat 64 ((2 ^ lanes - 1) * 2 ^ (p * lanes))) wd fun e =>
        fconvert src dst rm.toNat sat (stochBits w e) (s.el a ws (e - p * n))

/-- VCVT_FF (R166). -/
def execVcvtFf (d : Dst) (a : VSrc) (src : U4) (t k : U3) (part : U2) (rm : U3) (sat : Bool) (s : State) : Out :=
  .next (s.convert d a src.toNat t.toNat k part rm sat)
/-- VCVT_FI (R166). -/
def execVcvtFi (d : Dst) (a : VSrc) (src : U4) (t k : U3) (part : U2) (rm : U3) (sat : Bool) (s : State) : Out :=
  .next (s.convert d a src.toNat (cvtFiDst src t) k part rm sat)

/-- The width of the bit-moving forms (R154). -/
def moveWidth (t : U3) : Nat :=
  if t = 0 || t = 5 then 32 else if t = 1 || t = 2 || t = 6 then 16 else 8

/-- A bit-moving form (R168): width, element count and index of the result element. -/
def State.mvec (s : State) (lat : Nat) (d : Dst) (t k : U3) (f : Nat → Nat → Nat → Nat) : State :=
  let w := moveWidth t
  s.vec lat d (s.kmask k) w fun i => ⟨f w (2048 / w) i, 0⟩

/-- VPERM (R168). -/
def execVperm (d : Dst) (a b : VSrc) (t k : U3) (s : State) : Out :=
  .next (s.mvec 3 d t k fun w n i => s.el a w (s.el b w i % n))
/-- VZIPLO (R168). -/
def execVziplo (d : Dst) (a b : VSrc) (t k : U3) (s : State) : Out :=
  .next (s.mvec 3 d t k fun w _ i => s.el (if i % 2 = 0 then a else b) w (i / 2))
/-- VZIPHI (R168). -/
def execVziphi (d : Dst) (a b : VSrc) (t k : U3) (s : State) : Out :=
  .next (s.mvec 3 d t k fun w n i => s.el (if i % 2 = 0 then a else b) w (n / 2 + i / 2))
/-- VUNZIP (R168). -/
def execVunzip (d : Dst) (a b : VSrc) (t k : U3) (s : State) : Out :=
  .next (s.mvec 3 d t k fun w n i => if i < n / 2 then s.el a w (2 * i) else s.el b w (2 * (i - n / 2)))
/-- VROT (R168). -/
def execVrot (d : Dst) (a : VSrc) (x : Src) (t k : U3) (s : State) : Out :=
  .next (s.mvec 3 d t k fun w n i => s.el a w ((i + (s.src x).toNat) % n))
/-- VSHDN (R168). -/
def execVshdn (d : Dst) (a : VSrc) (x : Src) (t k : U3) (s : State) : Out :=
  .next (s.mvec 3 d t k fun w n i => if i + (s.src x).toNat < n then s.el a w (i + (s.src x).toNat) else 0)
/-- VSHUP (R168). -/
def execVshup (d : Dst) (a : VSrc) (x : Src) (t k : U3) (s : State) : Out :=
  .next (s.mvec 3 d t k fun w _ i => if (s.src x).toNat ≤ i then s.el a w (i - (s.src x).toNat) else 0)
/-- VREV (R168). -/
def execVrev (d : Dst) (a : VSrc) (t k : U3) (s : State) : Out :=
  .next (s.mvec 3 d t k fun w n i => s.el a w (n - 1 - i))

/-- VBCAST (R169). -/
def execVbcast (d : Dst) (x : Src) (t k : U3) (s : State) : Out :=
  .next (s.mvec 2 d t k fun _ _ _ => (s.src x).toNat)
/-- VINS (R169). -/
def execVins (d : Dst) (a : VSrc) (x : Src) (t k : U3) (s : State) : Out :=
  .next (s.mvec 2 d t k fun w n i =>
    if i = ((s.src x).extractLsb' 32 8).toNat % n then (s.src x).toNat else s.el a w i)
/-- VEXT (R169): a scalar-class result, sign-extended for T = 5, 6 and 7. -/
def execVext (d : Dst) (a : VSrc) (x : Src) (t : U3) (s : State) : Out :=
  let w := moveWidth t
  let y := s.el a w (((s.src x).extractLsb' 0 8).toNat % (2048 / w))
  .next (s.issue 2 (.g d (if 5 ≤ t.toNat then (BitVec.ofNat w y).signExtend 64 else BitVec.ofNat 64 y) true) 0)
/-- VBCASTL (R169). -/
def execVbcastl (d : Dst) (a : VSrc) (x : Src) (t k : U3) (s : State) : Out :=
  .next (s.mvec 2 d t k fun w n _ => s.el a w (((s.src x).extractLsb' 0 8).toNat % n))

/-- One level of the reduction tree (R170): an absent element gives way to the other. -/
def treeLevel (node : Nat → Nat → FR) : List (Option FR) → List (Option FR)
  | x :: y :: t =>
    (match x, y with
      | some a, some b => some ⟨(node a.bits b.bits).bits, a.fl ||| b.fl ||| (node a.bits b.bits).fl⟩
      | some a, none => some a
      | none, o => o) :: treeLevel node t
  | l => l

/-- The reduction tree (R170), of at most n levels. -/
def treeReduce (node : Nat → Nat → FR) : Nat → List (Option FR) → Option FR
  | 0, l => l.head?.join
  | n + 1, l => treeReduce node n (treeLevel node l)

/-- A floating reduction (R170): element 0 is the result, every other element is 0. -/
def State.fred (s : State) (d : Dst) (a : VSrc) (t k : U3) (empty : Fmt → Nat) (node : Fmt → Nat → Nat → FR) : State :=
  let F := fmtOf t.toNat
  let w := F.width
  let es := (List.range (2048 / w)).map fun e => if enabled (s.kmask k) w e then some (fquiet F (s.el a w e)) else none
  let r := (treeReduce (node F) 7 es).getD ⟨empty F, 0⟩
  s.issue 6 (.v d (BitVec.ofNat 2048 r.bits) (BitVec.allOnes 64)) r.fl

/-- VFREDSUM (R170). -/
def execVfredsum (d : Dst) (a : VSrc) (t k rm : U3) (s : State) : Out :=
  .next (s.fred d a t k (fun _ => 0) fun F x y => fadd F rm.toNat 0 x y)
/-- VFREDMAX (R170). -/
def execVfredmax (d : Dst) (a : VSrc) (t k _rm : U3) (s : State) : Out :=
  .next (s.fred d a t k (fun F => F.inf + F.signBit) fun F x y => fminmax F true x y)

/-- The values of the enabled elements of an integer source. -/
def State.ienabled (s : State) (a : VSrc) (t k : U3) : List Int :=
  let et := intEt t
  let w := etWidth et
  ((List.range (2048 / w)).filter fun e => enabled (s.kmask k) w e).map fun e => intVal et (s.el a w e)

/-- VIREDSUM (R170). -/
def execViredsum (d : Dst) (a : VSrc) (t k : U3) (sat : Bool) (s : State) : Out :=
  let et := intEt t
  let x := (s.ienabled a t k).foldl (· + ·) 0
  let y := if sat then clampInt (etMin et) (etMax et) x else x
  .next (s.issue 6 (.v d (BitVec.ofNat 2048 (wrapTo (etWidth et) y)) (BitVec.allOnes 64))
    (if sat && y != x then flVSAT else 0))
/-- VIREDMAX (R170). -/
def execViredmax (d : Dst) (a : VSrc) (t k : U3) (s : State) : Out :=
  let et := intEt t
  let x := (s.ienabled a t k).foldl (fun m v => if m < v then v else m) (etMin et)
  .next (s.issue 6 (.v d (BitVec.ofNat 2048 (wrapTo (etWidth et) x)) (BitVec.allOnes 64)) 0)

end Sys2Proof.Machine
end

