-- ==== Sys2Proof/Machine/Moment.lean ====
section
/-! DEFINITION. The moment instructions of 05: the two-stage check of R175 and the forms of R177. -/
namespace Sys2Proof.Machine

/-- Pair j of a moment register (R31). -/
def momPair (m : Mom) (j : Nat) : Pair :=
  ⟨velem (m.extractLsb' 0 2048) 32 j, velem (m.extractLsb' 2048 2048) 32 j⟩

/-- COV of %mmode (R172). -/
def Thread.cov (t : Thread) : Nat := (t.sp.mmode.extractLsb' 0 2).toNat
/-- CLAMP of %mmode (R172). -/
def Thread.clamp (t : Thread) : Bool := t.sp.mmode.getLsbD 2

/-- The cause an input lane raises, if any (R175 stage 1): 0x21 before 0x20. -/
def inputFault (clamp : Bool) (ps : List Pair) (xs : List Nat) (negs : List Nat) : Option Byte :=
  if ps.any (fun p => special p.mu || special p.v) || xs.any special || negs.any (fun k => special k || negative k) then
    some 0x21
  else if !clamp && ps.any (fun p => negative p.v) then some 0x20 else none

/-- An input pair as it enters: a negative variance as +0, −0 as +0 (R175). -/
def enterPair (p : Pair) : Pair := ⟨p.mu, if negative p.v then 0 else posZero p.v⟩

/-- What one lane delivers: the pair, and whether a clamp took place. -/
structure LaneRes where
  pair : Pair
  clamped : Bool

/-- A checked lane (R175): the inputs entered, the helper applied, a negative result clamped. -/
def momentLane (ps : List Pair) (f : List Pair → Pair) : LaneRes :=
  let r := f (ps.map enterPair)
  ⟨⟨r.mu, if negative r.v then 0 else r.v⟩, ps.any (fun p => negative p.v) || negative r.v⟩

/-- The enabled lanes, lowest first. -/
def lanesOf (k : U64) : List Nat := (List.range 64).filter fun j => k.getLsbD j

/-- The trap a moment instruction raises, if any: the lowest faulting input lane, else the lowest lane whose computed
variance is below zero (R175). -/
def momentTrap (clamp : Bool) (k : U64) (inp : Nat → Option Byte) (res : Nat → Pair) : Option (Byte × Nat) :=
  match (lanesOf k).find? (fun j => (inp j).isSome) with
  | some j => (inp j).map fun c => (c, j)
  | none => if clamp then none else ((lanesOf k).find? fun j => negative (res j).v).map fun j => (0x20, j)

/-- The information word of a moment trap (R142): the lane, and slot 2 in bits [9:8]. -/
def momentInfo (lane : Nat) : U64 := BitVec.ofNat 64 (lane + 512)

/-- A checked moment form (R175): the pairs and other operands each lane reads, the helper, and how the lanes' pairs
make the result. -/
def State.moment (s : State) (lat : Nat) (k : U3) (ps : Nat → List Pair) (xs negs : Nat → List Nat)
    (f : Nat → List Pair → Pair) (res : (Nat → Pair) → Res) : State :=
  let km := s.kmask k
  let cl := s.me.clamp
  match momentTrap cl km (fun j => inputFault cl (ps j) (xs j) (negs j)) (fun j => f j ((ps j).map enterPair)) with
  | some (c, j) => s.trap c (momentInfo j)
  | none =>
    let lanes := (List.range 64).map fun j =>
      if km.getLsbD j then momentLane (ps j) (f j) else ⟨⟨0, 0⟩, false⟩
    s.issue lat (res fun j => (lanes.getD j ⟨⟨0, 0⟩, false⟩).pair) (if lanes.any (·.clamped) then flMCLAMP else 0)

/-- 64 FP32 lanes. -/
def lanes32 (f : Nat → Nat) : Vec := BitVec.ofNat 2048 (packBits 32 ((List.range 64).map f))

/-- A moment-class result: means low, variances high (R31). -/
def momRes (d : U4) (k : U64) (f : Nat → Pair) : Res :=
  .m d (lanes32 (fun j => (f j).v) ++ lanes32 (fun j => (f j).mu)) k

/-- A vector-class result of the means. -/
def meanRes (d : Dst) (k : U64) (f : Nat → Pair) : Res := .v d (lanes32 fun j => (f j).mu) k

/-- A form of moment sources only, with a moment result. -/
def State.momOp (s : State) (lat : Nat) (d : U4) (srcs : List U4) (k : U3) (f : List Pair → Pair) : State :=
  s.moment lat k (fun j => srcs.map fun m => momPair (s.msrc m) j) (fun _ => []) (fun _ => []) (fun _ => f)
    (momRes d (s.kmask k))

/-- A helper of one pair. -/
def on1 (f : Pair → Pair) : List Pair → Pair
  | a :: _ => f a
  | [] => ⟨0, 0⟩
/-- A helper of two pairs. -/
def on2 (f : Pair → Pair → Pair) : List Pair → Pair
  | a :: b :: _ => f a b
  | _ => ⟨0, 0⟩

/-- A collapse of one pair (R177): the value delivered stands in the mean, the variance is zero. -/
def State.collapse (s : State) (d : Dst) (a : U4) (k : U3) (negs : List Nat) (f : Nat → Pair → Nat) : State :=
  s.moment 12 k (fun j => [momPair (s.msrc a) j]) (fun _ => []) (fun _ => negs) (fun j => on1 fun p => ⟨f j p, 0⟩)
    (meanRes d (s.kmask k))

/-- MMAKE (R177): not checked. -/
def execMmake (d : U4) (a b : VSrc) (k : U3) (s : State) : Out :=
  .next (s.issue 6 (.m d (s.vsrc b ++ s.vsrc a) (s.kmask k)) 0)

/-- A move of one pair, with what it delivers (R177). -/
def State.momMove (s : State) (a : U4) (k : U3) (res : (Nat → Pair) → Res) (f : Pair → Pair) : State :=
  s.moment 6 k (fun j => [momPair (s.msrc a) j]) (fun _ => []) (fun _ => []) (fun _ => on1 f) res

/-- MGETM (R177). -/
def execMgetm (d : Dst) (a : U4) (k : U3) (s : State) : Out :=
  .next (s.momMove a k (meanRes d (s.kmask k)) id)
/-- MGETV (R177): after clamping. -/
def execMgetv (d : Dst) (a : U4) (k : U3) (s : State) : Out :=
  .next (s.momMove a k (meanRes d (s.kmask k)) fun p => ⟨p.v, 0⟩)
/-- MMOV (R177): after clamping. -/
def execMmov (d a : U4) (k : U3) (s : State) : Out := .next (s.momMove a k (momRes d (s.kmask k)) id)

/-- MADD and MSUB (R177): C is read only under REF, and must be 0 under the other modes. -/
def State.momAdd (s : State) (sub : Bool) (d a b : U4) (c : VSrc) (k : U3) : State :=
  let cov := s.me.cov
  if cov ≠ 3 ∧ c ≠ .v 0 then s.trapWord 0x02
  else
    s.moment 6 k (fun j => [momPair (s.msrc a) j, momPair (s.msrc b) j])
      (fun j => if cov = 3 then [s.el c 32 j] else []) (fun _ => [])
      (fun j => on2 (momentAddSub sub cov (s.el c 32 j))) (momRes d (s.kmask k))

/-- MADD (R177). -/
def execMadd (d a b : U4) (c : VSrc) (k : U3) (s : State) : Out := .next (s.momAdd false d a b c k)
/-- MSUB (R177). -/
def execMsub (d a b : U4) (c : VSrc) (k : U3) (s : State) : Out := .next (s.momAdd true d a b c k)
/-- MMUL (R177). -/
def execMmul (d a b : U4) (k : U3) (s : State) : Out := .next (s.momOp 8 d [a, b] k (on2 momentMul))
/-- MSCALE (R177): the factor is the FP32 in bits [31:0]. -/
def execMscale (d a : U4) (x : Src) (k : U3) (s : State) : Out :=
  let c := (lo32 (s.src x)).toNat
  .next (s.moment 6 k (fun j => [momPair (s.msrc a) j]) (fun _ => [c]) (fun _ => []) (fun _ => on1 (momentScale c))
    (momRes d (s.kmask k)))
/-- MRELU (R177). -/
def execMrelu (d a : U4) (k : U3) (s : State) : Out := .next (s.momOp 12 d [a] k (on1 momentRelu))
/-- MEXP (R177). -/
def execMexp (d a : U4) (k : U3) (s : State) : Out := .next (s.momOp 12 d [a] k (on1 momentExp))
/-- MSIGM (R177). -/
def execMsigm (d a : U4) (k : U3) (s : State) : Out := .next (s.momOp 12 d [a] k (on1 momentSigmoid))
/-- MGELU (R177). -/
def execMgelu (d a : U4) (k : U3) (s : State) : Out := .next (s.momOp 12 d [a] k (on1 momentGelu))
/-- MCMEAN (R177). -/
def execMcmean (d : Dst) (a : U4) (k : U3) (s : State) : Out := .next (s.collapse d a k [] fun _ p => p.mu)
/-- MCHI (R177). -/
def execMchi (d : Dst) (a : U4) (x : Src) (k : U3) (s : State) : Out :=
  let c := (lo32 (s.src x)).toNat
  .next (s.collapse d a k [c] fun _ p => collapseUpper p c)
/-- MCLO (R177). -/
def execMclo (d : Dst) (a : U4) (x : Src) (k : U3) (s : State) : Out :=
  let c := (lo32 (s.src x)).toNat
  .next (s.collapse d a k [c] fun _ p => collapseLower p c)
/-- MCDRAW (R177): the bundle draws a word whether or not a lane is enabled. -/
def execMcdraw (d : Dst) (a : U4) (k : U3) (s : State) : Out :=
  .next (s.withW true fun w s => s.collapse d a k [] fun j p => collapseSample p w j)

end Sys2Proof.Machine
end

