-- ==== Sys2Proof/Machine/Matrix.lean ====
section
/-! DEFINITION. The matrix engine (06): shapes and operands (R179..R183), the checks at issue (R189..R191), what an
entry computes (R192..R203), and the instructions that enter the queue or read granules (R184, R188, R196..R198). -/
namespace Sys2Proof.Machine

/-- A field of a matrix shape by its FLD number (R179). -/
def shf (sh : U128) (f : Nat) : Nat :=
  let p := msField (BitVec.ofNat 5 f)
  sh.toNat / 2 ^ p.1 % 2 ^ p.2

/-- An operand as it lies in a scratchpad (R182): the key of the scratchpad's first byte and its size, the offset of the
first element, the stride in bytes, the format code, the LAY bit, the block-scale nibble base, whether it is scaled, the
signedness and the table. -/
structure Operand where
  key : Nat
  size : Nat
  base : Nat
  stride : Nat
  fmt : Nat
  kMajor : Bool
  scaled : Bool
  scaleKey : Nat
  scaleFrom : Nat
  signed : Bool
  tab : Codebook
  scale : Vector U16 16
  deriving DecidableEq, Repr

/-- The element size in bits of a format code (R181). -/
def fmtBits (f : Nat) : Nat := match f with | 0 | 1 | 4 => 8 | 2 | 3 => 16 | 5 => 4 | _ => 64

/-- The class of a format code (R181): 0 8-bit float, 1 16-bit float, 2 integer, 3 moment. -/
def fmtClass (f : Nat) (tab : Codebook) : Nat :=
  match f with
  | 0 | 1 => 0
  | 2 | 3 => 1
  | 4 => 2
  | 5 => if tab.typ.getLsbD 0 then 0 else 1
  | _ => 3

/-- G of a class (R93, R95). -/
def classG (c : Nat) : Nat := match c with | 0 => 4 | 1 => 2 | 2 => 4 | _ => 1

/-- Nibble n of an area (R182): low nibble first. -/
def nibble (m : Mems) (area n : Nat) : Nat :=
  (m.byte .spl (area + n / 2)).toNat / 16 ^ (n % 2) % 16

/-- The bits of element (r, k) of an operand (R182): r is the row of A or the column of B. -/
def Operand.bits (o : Operand) (m : Mems) (r k : Nat) : Nat :=
  let outer := if o.kMajor then k else r
  let inner := if o.kMajor then r else k
  let start := o.key + o.base + o.stride * outer
  let w := fmtBits o.fmt
  if w = 4 then nibble m start inner
  else leNat ((List.range (w / 8)).map fun x => m.byte .spl (start + w / 8 * inner + x))

/-- The exact value of a codebook entry (R74, R75). -/
def cbValue (t : Codebook) (c : Nat) : FV :=
  let e := (t.ents.toList.getD c 0).toNat
  if t.typ.getLsbD 0 then fdecode e4m3 (e % 256) else fdecode bf16 e

/-- The exact floating value of element (r, k), block scale included (R182). -/
def Operand.val (o : Operand) (m : Mems) (kExt r k : Nat) : FV :=
  let b := o.bits m r k
  let v := match o.fmt with
    | 0 => fdecode e4m3 b
    | 1 => fdecode e5m2 b
    | 2 => fdecode bf16 b
    | 3 => fdecode fp16 b
    | _ => cbValue o.tab b
  if o.scaled then
    v.mul (fdecode bf16 (o.scale.toList.getD (nibble m o.scaleKey (o.scaleFrom + r * (kExt / 32) + k / 32)) 0).toNat)
  else v

/-- The integer value of element (r, k) (R95). -/
def Operand.ival (o : Operand) (m : Mems) (r k : Nat) : Int :=
  intVal (if o.signed then 7 else 8) (o.bits m r k)

/-- The first offending byte offset of `rows` runs of `len` bytes, stride apart, in a scratchpad of `size` bytes
(R189 step 2). -/
def firstBeyond (base stride len size : Nat) : Nat → Option Nat
  | 0 => none
  | n + 1 =>
    match firstBeyond base stride len size n with
    | some a => some a
    | none => if size < base + stride * n + len then some (Nat.max size (base + stride * n)) else none

/-- The rows of an operand and the bytes of each. -/
def Operand.extent (o : Operand) (rows kElems : Nat) : Nat × Nat :=
  let outer := if o.kMajor then kElems else rows
  let inner := if o.kMajor then rows else kElems
  (outer, (fmtBits o.fmt * inner + 7) / 8)

/-- The first byte of an operand outside its scratchpad. -/
def Operand.beyond (o : Operand) (rows kElems : Nat) : Option Nat :=
  let x := o.extent rows kElems
  firstBeyond o.base o.stride x.2 o.size x.1

/-! ### Cores -/

/-- The core whose turn it is, with its two slots in place. -/
def State.packed (s : State) : CoreRec :=
  if s.me.slot1 then ⟨s.core, s.sib, s.me⟩ else ⟨s.core, s.me, s.sib⟩

/-- A core by its physical number. -/
def State.coreAt (s : State) (phys : Nat) : Option CoreRec :=
  if s.core.phys = phys then some s.packed else s.rest.find? fun c => c.core.phys == phys

/-- The slots of a core that can hold a task. -/
def CoreRec.slots (c : CoreRec) : List Thread := if c.core.rsplit then [c.t0, c.t1] else [c.t0]

/-- Whether a task of a job is bound to a core, a suspended context included (R189, R368). -/
def State.jobOn (s : State) (phys job : Nat) : Bool :=
  (match s.coreAt phys with
    | some c => c.slots.any fun t => t.bound.any fun b => b.job == job
    | none => false) ||
    s.dev.ctxs.any fun c => c.phys == phys && c.bound.job == job

/-- The core that ANB or BNB names, and the scratchpad read there (R179, R187): its first byte's key and its size. -/
def State.neighbour (s : State) (code : Nat) : Nat × Nat :=
  let home := s.splAt 0
  if code = 0 then (home, s.splSize)
  else
    let p := 5 * clusterOf s.core.phys + (code - 1)
    if p = s.core.phys then (home, s.splSize) else (splKey p 0, if isS p then 262144 else 786432)

/-! ### Shapes and operands -/

/-- Operand A of a product (R182, R183), from the captured shape, GX value and tables. -/
def State.opA (s : State) (sh : U128) (gx : U64) (tb : Tables) (signed : Bool) : Operand :=
  let n := s.neighbour (shf sh 15)
  { key := n.1, size := n.2, base := (shf sh 0 + bitsOf gx 15 0) * 1024, stride := 16 * shf sh 7, fmt := shf sh 9
    kMajor := shf sh 13 % 2 == 1, scaled := shf sh 14 % 2 == 1, scaleKey := s.splAt (shf sh 3 * 1024), scaleFrom := 0
    signed := signed, tab := tb.cb.toList.getD (shf sh 11) ⟨0, Vector.replicate 16 0⟩, scale := tb.scale }

/-- Operand B of a product (R182, R183). -/
def State.opB (s : State) (sh : U128) (gx : U64) (tb : Tables) (signed : Bool) : Operand :=
  let n := s.neighbour (shf sh 16)
  { key := n.1, size := n.2, base := (shf sh 1 + bitsOf gx 31 16) * 1024, stride := 16 * shf sh 8, fmt := shf sh 10
    kMajor := shf sh 13 / 2 == 1, scaled := shf sh 14 / 2 == 1, scaleKey := s.splAt (shf sh 3 * 1024)
    scaleFrom := if shf sh 14 % 2 == 1 then shf sh 4 * (shf sh 6 / 32) else 0
    signed := signed, tab := tb.cb.toList.getD (shf sh 12) ⟨0, Vector.replicate 16 0⟩, scale := tb.scale }

/-- A core of the cluster that an operand names must run a task of the job (R189 step 2). -/
def State.badNeighbour (s : State) (code : Nat) : Bool :=
  let p := 5 * clusterOf s.core.phys + (code - 1)
  code ≠ 0 && p ≠ s.core.phys && !(s.me.bound.any fun b => s.jobOn p b.job)

/-- The largest M (R179). -/
def State.maxM (s : State) : Nat := if s.core.rsplit then 16 else 32

/-- The granules of an N-column output (R192, R194). -/
def outGranules (n : Nat) (pair : Bool) : Nat := if pair then 2 * ((n + 31) / 32) else (n + 31) / 32

/-! ### The checks at issue -/

/-- The ownership check (R190): cause 0x30 with the lowest granule named. -/
def State.ownCheck (s : State) (g : Nat) : Except Stop Unit :=
  if s.me.cx.accown.getLsbD 63 && bitsOf s.me.cx.accown 15 0 == bitsOf s.me.cx.ctxid 15 0 then .ok ()
  else .error (.trap 0x30 (BitVec.ofNat 64 g))

/-- Cause 0x22 with the first named granule (R189 step 1). -/
def shapeFault {α : Type} (g : Nat) : Except Stop α := .error (.trap 0x22 (BitVec.ofNat 64 g))

/-- Cause 0x12 with the first offending address, when there is one (R189 step 2). -/
def byteFault (o : Option Nat) : Except Stop Unit :=
  match o with
  | some a => .error (.trap 0x12 (BitVec.ofNat 64 a))
  | none => .ok ()

/-- Granules g .. g + n − 1 that the slot can name (R189, R61). -/
def State.granuleCheck (s : State) (g n : Nat) : Except Stop Unit :=
  if granuleCount s.core < g + n then shapeFault g else .ok ()

/-- Which product (R191). -/
inductive Product where
  | dense
  | sparseA
  | sparseB
  | moment
  deriving DecidableEq, Repr

/-- The checks of a product (R189, R191), in order. DESIGN CHOICE (log 83): of several operands out of range A is named before B,
then the nibble area and the metadata; a neighbour that is not bound comes last, with its operand's base. -/
def State.productCheck (s : State) (pr : Product) (sh : U128) (gx : U64) (g : Nat) (mods : Bool) : Except Stop Unit :=
  let a := s.opA sh gx s.core.tabs false
  let b := s.opB sh gx s.core.tabs false
  let M := shf sh 4
  let N := shf sh 5
  let K := shf sh 6
  let ca := fmtClass a.fmt a.tab
  let cb := fmtClass b.fmt b.tab
  let G := if pr = .moment then 1 else classG ca
  let spA := pr = .sparseA
  let spB := pr = .sparseB
  let anyScale := a.scaled || b.scaled
  if M = 0 ∨ s.maxM < M ∨ N = 0 ∨ 96 < N ∨ K = 0 ∨ 4096 < K then shapeFault g
  else if a.fmt = 7 ∨ b.fmt = 7 ∨ 5 < shf sh 15 ∨ 5 < shf sh 16 then shapeFault g
  else if pr = .moment ∧ ¬(a.fmt = 2 ∧ b.fmt = 6) then shapeFault g
  else if pr ≠ .moment ∧ (a.fmt = 6 ∨ b.fmt = 6 ∨ ca ≠ cb) then shapeFault g
  else if K % G ≠ 0 ∨ (anyScale ∧ K % 32 ≠ 0) then shapeFault g
  else if (a.scaled ∧ (a.fmt = 4 ∨ a.fmt = 6)) ∨ (b.scaled ∧ (b.fmt = 4 ∨ b.fmt = 6)) then shapeFault g
  else if granuleCount s.core < g + outGranules N (pr = .moment) then shapeFault g
  else if pr = .moment ∧ g % 2 = 1 then shapeFault g
  else if (spA ∧ (a.fmt = 5 ∨ a.scaled ∨ a.kMajor)) ∨ (spB ∧ (b.fmt = 5 ∨ b.scaled ∨ b.kMajor)) then shapeFault g
  else if (spA ∨ spB) ∧ K % 4 ≠ 0 then shapeFault g
  else if mods ∧ ca ≠ 2 then .error (.trap 0x02 (s.me.iss.word.zeroExtend 64))
  else do
    byteFault (a.beyond M (if spA then K / 2 else K))
    byteFault (b.beyond N (if spB then K / 2 else K))
    let nibs := (if a.scaled then M * (K / 32) else 0) + (if b.scaled then N * (K / 32) else 0)
    if anyScale then byteFault (firstBeyond (shf sh 3 * 1024) 0 ((nibs + 1) / 2) s.splSize 1)
    let metaNibs := (if spA then M else N) * (K / 4)
    if spA || spB then byteFault (firstBeyond (shf sh 2 * 1024) 0 ((metaNibs + 1) / 2) s.splSize 1)
    if s.badNeighbour (shf sh 15) then byteFault (some a.base)
    if s.badNeighbour (shf sh 16) then byteFault (some b.base)
    s.ownCheck g

/-- The element size of a drain format (R199). -/
def ofSize (f : Nat) : Nat := match f with | 0 | 7 => 4 | 1 | 2 => 2 | _ => 1

/-- The checks of a drain (R189, R199): `q` for drainq, `recs` when its records are read. -/
def State.drainCheck (s : State) (q recs sat : Bool) (sh : U128) (gx : U64) (g : Nat) : Except Stop Unit :=
  let M := shf sh 4
  let N := shf sh 5
  let f := shf sh 17
  if sat ∧ f ≠ 3 ∧ f ≠ 4 then .error (.trap 0x02 (s.me.iss.word.zeroExtend 64))
  else if M = 0 ∨ s.maxM < M ∨ N = 0 ∨ 96 < N then shapeFault g
  else if (if q then f < 5 else 4 < f) then shapeFault g
  else if granuleCount s.core < g + outGranules N false then shapeFault g
  else do
    byteFault (firstBeyond ((shf sh 0 + bitsOf gx 15 0) * 1024) (16 * shf sh 7) (ofSize f * N) s.splSize M)
    if recs then byteFault (firstBeyond (shf sh 2 * 1024) 0 (16 * N) s.splSize 1)
    s.ownCheck g

/-- The checks of a row or column sum (R189, R203): only the summed operand is read. -/
def State.sumCheck (s : State) (rows : Bool) (sh : U128) (g : Nat) : Except Stop Unit :=
  let o := if rows then s.opA sh 0 s.core.tabs false else s.opB sh 0 s.core.tabs false
  let nb := if rows then shf sh 15 else shf sh 16
  let M := shf sh 4
  let N := shf sh 5
  let K := shf sh 6
  if M = 0 ∨ s.maxM < M ∨ N = 0 ∨ 96 < N ∨ K = 0 ∨ 4096 < K then shapeFault g
  else if o.fmt ≠ 4 ∨ 5 < nb ∨ K % 4 ≠ 0 ∨ o.scaled then shapeFault g
  else if granuleCount s.core < g + outGranules N false then shapeFault g
  else do
    byteFault (o.beyond (if rows then M else N) K)
    if s.badNeighbour nb then byteFault (some o.base)
    s.ownCheck g

/-! ### What an entry computes -/

/-- What a completed entry does: bytes written, flags set (R185), a fault for %mfault (R195). -/
structure EntryOut where
  writes : List (Space × Nat × List Byte)
  stat : U16
  mfault : Option U64
  deriving DecidableEq, Repr

/-- The key of element (i, j) of a tile from granule g on (R42, R192). -/
def State.accAt (s : State) (g i j : Nat) : Nat :=
  accKey s.core.phys (firstGranule s.core s.me.slot1 + g) (128 * i + 4 * j)

/-- One 32-bit element of a granule. -/
def State.accWord (s : State) (k : Nat) : Nat := s.mems.nat .acc k 4

/-- The four bytes of an element written. -/
def accWrite (k v : Nat) : Space × Nat × List Byte := (.acc, k, leBytes 4 v)

/-- The (i, j) of an M × N tile, rows first. -/
def tile (m n : Nat) : List (Nat × Nat) := (List.range m).flatMap fun i => (List.range n).map fun j => (i, j)

/-- The kept positions of group g of row or column r (R193): a nibble whose positions are out of order is read
exchanged with its elements; equal positions use the first element alone. -/
def keptPositions (m : Mems) (metaKey k4 r g : Nat) : List (Nat × Nat) :=
  let n := nibble m metaKey (r * k4 + g)
  let p1 := n % 4
  let p2 := n / 4
  if p1 = p2 then [(2 * g, 4 * g + p1)]
  else if p2 < p1 then [(2 * g + 1, 4 * g + p2), (2 * g, 4 * g + p1)]
  else [(2 * g, 4 * g + p1), (2 * g + 1, 4 * g + p2)]

/-- The (kept element of the sparse operand, K index) pairs of the G K indices from k0 on (R193, log 21). -/
def keptIn (m : Mems) (metaKey k4 r k0 G : Nat) : List (Nat × Nat) :=
  (keptPositions m metaKey k4 r (k0 / 4)).filter fun p => k0 ≤ p.2 && p.2 < k0 + G

/-- The index pairs of one K-group of output (i, j): the A index and the B index of each product. -/
def groupIndices (pr : Product) (m : Mems) (metaKey K i j k0 G : Nat) : List (Nat × Nat) :=
  match pr with
  | .sparseA => (keptIn m metaKey (K / 4) i k0 G).map fun p => (p.1, p.2)
  | .sparseB => (keptIn m metaKey (K / 4) j k0 G).map fun p => (p.2, p.1)
  | _ => (List.range G).map fun x => (k0 + x, k0 + x)

/-- One output element of a floating product (R93, R192). -/
def floatElement (pr : Product) (m : Mems) (a b : Operand) (metaKey K G i j c : Nat) : Nat :=
  (List.range (K / G)).foldl (fun c g =>
    let ix := groupIndices pr m metaKey K i j (g * G) G
    let s := if ix.isEmpty then .zero false
      else groupSum (ix.map fun p => (a.val m K i p.1).mul (b.val m K j p.2))
    accumulate 0 c s) c

/-- One output element of an integer product, and whether it saturated (R95, R192). -/
def intElement (pr : Product) (m : Mems) (a b : Operand) (metaKey K i j : Nat) (isat : Bool)
    (c : Int) : Int × Bool :=
  (List.range (K / 4)).foldl (fun (c : Int × Bool) g =>
    let ix := groupIndices pr m metaKey K i j (g * 4) 4
    let t := c.1 + (ix.map fun p => a.ival m i p.1 * b.ival m j p.2).foldl (· + ·) 0
    if isat then (sat32 t, c.2 || sat32 t != t) else (intVal 5 (wrapTo 32 t), c.2)) (c, false)

/-- What a product computes (R192, R193). -/
def State.runProduct (s : State) (e : MqEntry) (pr : Product) (g : Nat) (asgn bsgn isat z : Bool) : EntryOut :=
  let a := s.opA e.shape e.gx e.tabs asgn
  let b := s.opB e.shape e.gx e.tabs bsgn
  let K := shf e.shape 6
  let mk := s.splAt (shf e.shape 2 * 1024)
  let G := classG (fmtClass a.fmt a.tab)
  let cells := tile (shf e.shape 4) (shf e.shape 5)
  let at_ (p : Nat × Nat) := s.accAt (g + p.2 / 32) p.1 (p.2 % 32)
  if a.fmt = 4 then
    let rs := cells.map fun p =>
      (at_ p, intElement pr s.mems a b mk K p.1 p.2 isat (if z then 0 else intVal 5 (s.accWord (at_ p))))
    ⟨rs.map fun r => accWrite r.1 (wrapTo 32 r.2.1), if rs.any (fun r => r.2.2) then flACCSAT else 0, none⟩
  else
    ⟨cells.map fun p =>
      accWrite (at_ p) (floatElement pr s.mems a b mk K G p.1 p.2 (if z then 0 else s.accWord (at_ p))), 0, none⟩

/-- A variance as a moment product reads it (R194). -/
def readVar (v : Nat) : Nat := if v = 0x80000000 ∨ negative v then 0 else v

/-- What a moment product computes (R97, R194). -/
def State.runMoment (s : State) (e : MqEntry) (g : Nat) (z : Bool) : EntryOut :=
  let a := s.opA e.shape e.gx e.tabs false
  let b := s.opB e.shape e.gx e.tabs false
  let K := shf e.shape 6
  let N := shf e.shape 5
  let elem (k j : Nat) := b.bits s.mems j k
  let at_ (h : Nat) (p : Nat × Nat) := s.accAt (g + 2 * (p.2 / 32) + h) p.1 (p.2 % 32)
  let start (k : Nat) := if z then 0 else s.accWord k
  let rs := (tile (shf e.shape 4) N).map fun p =>
    let r := (List.range K).foldl (fun (c : Nat × Nat) k =>
      let w := a.val s.mems K p.1 k
      let x := elem k p.2
      (accumulate 0 c.1 (groupSum [w.mul (fv (x % 2 ^ 32))]),
        accumulate 2 c.2 (groupSum [(w.mul w).mul (fv (readVar (x / 2 ^ 32)))]))) (start (at_ 0 p), start (at_ 1 p))
    (accWrite (at_ 0 p) r.1, accWrite (at_ 1 p) r.2)
  let writes := rs.map (·.1) ++ rs.map (·.2)
  let neg := (tile K N).find? fun p => negative (elem p.1 p.2 / 2 ^ 32)
  ⟨writes, if e.clamp && neg.isSome then flMCLAMP else 0,
    if e.clamp then none
    else neg.map fun p => BitVec.ofNat 64 (2 ^ 63 + g * 2 ^ 20 + p.1 * 2 ^ 7 + p.2)⟩

/-- The 16-byte parameter record of column j (R200), from byte x on, of n bytes. -/
def State.drainParam (s : State) (e : MqEntry) (j x n : Nat) : Nat :=
  leNat ((List.range n).map fun y => s.mems.byte .spl (s.splAt (shf e.shape 2 * 1024 + 16 * j + x + y)))

/-- The output bytes of a drain, in ascending i, then j (R199). -/
def State.drainOut (s : State) (e : MqEntry) (f : Nat → Nat → Nat × Bool) : EntryOut :=
  let base := (shf e.shape 0 + bitsOf e.gx 15 0) * 1024
  let sz := ofSize (shf e.shape 17)
  let rs := (tile (shf e.shape 4) (shf e.shape 5)).map fun p =>
    let r := f p.1 p.2
    ((Space.spl, s.splAt (base + 16 * shf e.shape 7 * p.1 + sz * p.2), leBytes sz r.1), r.2)
  ⟨rs.map (·.1), if rs.any (·.2) then flVSAT else 0, none⟩

/-- What `drain` computes (R201). -/
def State.runDrain (s : State) (e : MqEntry) (g : Nat) (rm : Nat) (sat bias : Bool) : EntryOut :=
  let F := fmtOf (shf e.shape 17)
  s.drainOut e fun i j =>
    let x := fv (s.accWord (s.accAt (g + j / 32) i (j % 32)))
    let y := if bias then x.add (rm == 3) (fv (s.drainParam e j 8 4)) else x
    let r := froundV F rm sat (stochBits e.w (96 * i + j)) y
    (r.bits, sat && r.fl &&& flVSAT != 0)

/-- What `drainq` computes (R202). -/
def State.runDrainq (s : State) (e : MqEntry) (g : Nat) (bias zp : Bool) : EntryOut :=
  let f := shf e.shape 17
  let et := if f = 5 then 7 else if f = 6 then 8 else 5
  s.drainOut e fun i j =>
    let x := intVal 5 (s.accWord (s.accAt (g + j / 32) i (j % 32)))
    let y := (if bias then x + intVal 5 (s.drainParam e j 8 4) else x) * intVal 5 (s.drainParam e j 0 4)
    let sh := s.drainParam e j 4 1 % 64
    let y := if 0 < sh then (y + (2 ^ (sh - 1) : Nat)) / (2 ^ sh : Nat) else y
    let y := if zp then y + intVal 6 (s.drainParam e j 6 2) else y
    let o := clampInt (etMin et) (etMax et) y
    (wrapTo (etWidth et) o, o != y)

/-- What a row or column sum computes (R203). -/
def State.runSum (s : State) (e : MqEntry) (rows : Bool) (g : Nat) (sgn isat z : Bool) : EntryOut :=
  let o := if rows then s.opA e.shape 0 e.tabs sgn else s.opB e.shape 0 e.tabs sgn
  let K := shf e.shape 6
  let mult := (lo32 e.gx).toInt
  let sum (r : Nat) := ((List.range K).map fun k => o.ival s.mems r k).foldl (· + ·) 0
  let rs := (tile (shf e.shape 4) (shf e.shape 5)).map fun p =>
    let k := s.accAt (g + p.2 / 32) p.1 (p.2 % 32)
    let t := (if z then 0 else intVal 5 (s.accWord k)) + mult * sum (if rows then p.1 else p.2)
    (accWrite k (wrapTo 32 (if isat then sat32 t else t)), isat && sat32 t != t)
  ⟨rs.map (·.1), if rs.any (·.2) then flACCSAT else 0, none⟩

/-- The element that lane l maps to (R196). -/
def laneElement (col : Bool) (p l : Nat) : Nat × Nat :=
  let a := 2 * p + l / 32
  let b := l % 32
  if col then (b, a) else (a, b)

/-- What an instruction's entry computes (R185). -/
def State.runEntry (s : State) (e : MqEntry) (i : Instr) : EntryOut :=
  match i with
  | .mma _ _ acc _ asgn bsgn isat z _ => s.runProduct e .dense acc.toNat asgn bsgn isat z
  | .mmasa _ _ acc _ asgn bsgn isat z _ => s.runProduct e .sparseA acc.toNat asgn bsgn isat z
  | .mmasb _ _ acc _ asgn bsgn isat z _ => s.runProduct e .sparseB acc.toNat asgn bsgn isat z
  | .mmam _ _ acc _ z _ => s.runMoment e acc.toNat z
  | .azero acc cnt _ =>
    ⟨(List.range (cnt.toNat + 1)).map fun n => (.acc, s.accAt (acc.toNat + n) 0 0, zeroBytes 4096), 0, none⟩
  | .aput acc _ row col _ =>
    ⟨(List.range 64).map fun l =>
      let p := laneElement col row.toNat l
      accWrite (s.accAt acc.toNat p.1 p.2) (velem e.vec 32 l), 0, none⟩
  | .drain _ _ acc _ rm sat bias _ => s.runDrain e acc.toNat rm.toNat sat bias
  | .drainq _ _ acc _ bias zp _ => s.runDrainq e acc.toNat bias zp
  | .arsum _ _ acc _ sgn isat z _ => s.runSum e true acc.toNat sgn isat z
  | .acsum _ _ acc _ sgn isat z _ => s.runSum e false acc.toNat sgn isat z
  | _ => ⟨[], 0, none⟩

/-- The granules that an instruction's entry names: the first, how many, and whether it writes them (R190). -/
def entryGranules (i : Instr) (sh : U128) : Nat × Nat × Bool :=
  match i with
  | .mma _ _ acc _ _ _ _ _ _ | .mmasa _ _ acc _ _ _ _ _ _ | .mmasb _ _ acc _ _ _ _ _ _ =>
    (acc.toNat, outGranules (shf sh 5) false, true)
  | .mmam _ _ acc _ _ _ => (acc.toNat, outGranules (shf sh 5) true, true)
  | .azero acc cnt _ => (acc.toNat, cnt.toNat + 1, true)
  | .aput acc _ _ _ _ => (acc.toNat, 1, true)
  | .arsum _ _ acc _ _ _ _ _ | .acsum _ _ acc _ _ _ _ _ => (acc.toNat, outGranules (shf sh 5) false, true)
  | .drain _ _ acc _ _ _ _ _ | .drainq _ _ acc _ _ _ _ => (acc.toNat, outGranules (shf sh 5) false, false)
  | _ => (0, 0, false)

/-- Whether a queued entry writes granule g (R197, R198). -/
def MqEntry.writesGranule (e : MqEntry) (g : Nat) : Bool :=
  match e.op with
  | .ins i =>
    let x := entryGranules i e.shape
    x.2.2 && x.1 ≤ g && g < x.1 + x.2.1
  | .xfer v mask =>
    v.getLsbD 63 && bitsOf v 10 0 ≤ g && g ≤ bitsOf v 10 0 + bitsOf v 26 16 &&
      (!v.getLsbD 62 || (mask.toList.getD (g / 64) 0).getLsbD (g % 64))

/-- The output rows of a queued drain: first byte's offset, stride, row bytes and rows (R186, R199). -/
def MqEntry.drainRows (e : MqEntry) : Option (Nat × Nat × Nat × Nat) :=
  match e.op with
  | .ins (.drain _ _ _ _ _ _ _ _) | .ins (.drainq _ _ _ _ _ _ _) =>
    some ((shf e.shape 0 + bitsOf e.gx 15 0) * 1024, 16 * shf e.shape 7, ofSize (shf e.shape 17) * shf e.shape 5,
      shf e.shape 4)
  | _ => none

/-- Whether a queued drain of the slot is still to write one of the bytes off .. off + n − 1 (R186). -/
def Thread.drainPending (t : Thread) (off n : Nat) : Bool :=
  t.mq.any fun e => match e.drainRows with
    | some (b, st, len, rows) => (List.range rows).any fun i => b + st * i < off + n && off < b + st * i + len
    | none => false

/-! ### The bytes of an entry (R186, R187, R429) -/

/-- The runs of bytes of an operand. -/
def Operand.runs (o : Operand) (rows kElems : Nat) : List (Space × Nat × Nat) :=
  let x := o.extent rows kElems
  (List.range x.1).map fun r => (.spl, o.key + o.base + o.stride * r, x.2)

/-- The runs of bytes of an M × N tile from granule g on; a moment tile takes two granules for 32 columns. -/
def State.tileRuns (s : State) (g m n : Nat) (pair : Bool) : List (Space × Nat × Nat) :=
  (List.range (outGranules n pair)).flatMap fun c =>
    let cols := Nat.min 32 (n - 32 * (if pair then c / 2 else c))
    (List.range m).map fun i => (.acc, s.accAt (g + c) i 0, 4 * cols)

/-- The runs of bytes that a product reads: its operands, scales, metadata and, without `.z`, its granules. -/
def State.productReads (s : State) (e : MqEntry) (pr : Product) (g : Nat) (z : Bool) : List (Space × Nat × Nat) :=
  let a := s.opA e.shape e.gx e.tabs false
  let b := s.opB e.shape e.gx e.tabs false
  let M := shf e.shape 4
  let N := shf e.shape 5
  let K := shf e.shape 6
  let nibs := (if a.scaled then M * (K / 32) else 0) + (if b.scaled then N * (K / 32) else 0)
  let kept := (if pr = .sparseA then M else if pr = .sparseB then N else 0) * (K / 4)
  a.runs M (if pr = .sparseA then K / 2 else K) ++ b.runs N (if pr = .sparseB then K / 2 else K) ++
    [(.spl, s.splAt (shf e.shape 3 * 1024), (nibs + 1) / 2), (.spl, s.splAt (shf e.shape 2 * 1024), (kept + 1) / 2)] ++
    (if z then [] else s.tileRuns g M N (pr = .moment))

/-- The runs of bytes that an entry reads, in the order in which the model looks for a failing one. -/
def State.entryReads (s : State) (e : MqEntry) (i : Instr) : List (Space × Nat × Nat) :=
  let M := shf e.shape 4
  let N := shf e.shape 5
  let K := shf e.shape 6
  let recs : List (Space × Nat × Nat) := [(.spl, s.splAt (shf e.shape 2 * 1024), 16 * N)]
  match i with
  | .mma _ _ acc _ _ _ _ z _ => s.productReads e .dense acc.toNat z
  | .mmasa _ _ acc _ _ _ _ z _ => s.productReads e .sparseA acc.toNat z
  | .mmasb _ _ acc _ _ _ _ z _ => s.productReads e .sparseB acc.toNat z
  | .mmam _ _ acc _ z _ => s.productReads e .moment acc.toNat z
  | .drain _ _ acc _ _ _ bias _ => (if bias then recs else []) ++ s.tileRuns acc.toNat M N false
  | .drainq _ _ acc _ _ _ _ => recs ++ s.tileRuns acc.toNat M N false
  | .arsum _ _ acc _ _ _ z _ =>
    (s.opA e.shape 0 e.tabs false).runs M K ++ if z then [] else s.tileRuns acc.toNat M N false
  | .acsum _ _ acc _ _ _ z _ =>
    (s.opB e.shape 0 e.tabs false).runs N K ++ if z then [] else s.tileRuns acc.toNat M N false
  | _ => []

/-- The granules that a transfer still owes, in order (R382). -/
def xferGranules (v : U64) (mask : Vector U64 32) : List Nat :=
  ((List.range (bitsOf v 26 16 + 1)).map (bitsOf v 10 0 + ·)).filter fun g =>
    !v.getLsbD 62 || (mask.toList.getD (g / 64) 0).getLsbD (g % 64)

/-! ### Issue -/

/-- The dirty bits of granules g .. g + n − 1 set (R190). -/
def markDirty (d : Vector U64 32) (g n : Nat) : Vector U64 32 :=
  Vector.ofFn fun w : Fin 32 =>
    (List.range 64).foldl (fun (x : U64) b =>
      if g ≤ 64 * w.val + b ∧ 64 * w.val + b < g + n then x ||| (1#64 <<< b) else x) d[w]

/-- A swap of the live and shadow matrix shapes (R40), when the swap bit is set. -/
def Regs.swapMs (r : Regs) (i : U2) (sw : Bool) : Regs :=
  if sw then { r with msL := r.msL.set i.toNat r.msS[i.toNat] i.isLt, msS := r.msS.set i.toNat r.msL[i.toNat] i.isLt }
  else r

/-- The live matrix shape after any swap (R40, R184). -/
def State.shapeMs (s : State) (i : U2) (sw : Bool) : U128 := (s.me.regs.swapMs i sw).msL[i.toNat]

/-- The next entry of the matrix queue with what it captures (R184). -/
def State.entry (s : State) (i : Instr) (sh : U128) (gx : U64) (w : U64) (vec : Vec) : MqEntry :=
  { op := .ins i, clamp := s.me.clamp, gx := gx, shape := sh, w := w, vec := vec, base := 0, tabs := s.core.tabs
    follow := s.me.follows, mark := s.dev.nextMsg, started := false }

/-- The matrix-queue entries of the slot, those included that a write of %accxfer on its way will add (R382). -/
def Thread.queueTaken (t : Thread) : Nat :=
  let xfer (es : List Infl) := es.countP fun e => match e.res with | .spr n _ _ wr => n == 0x036 && wr != 0 | _ => false
  t.mq.length + xfer t.infl + xfer t.iss.fresh + t.f0.elim 0 (fun f => xfer f.infl) + t.f1.elim 0 (fun f => xfer f.infl)

/-- An instruction enters the matrix queue (R184, R190): held while the queue is full. -/
def State.enqueue (s : State) (i : Instr) (sh : U128) (gx w : U64) (vec : Vec) (ms : U2) (sw : Bool) : State :=
  if 16 ≤ s.me.queueTaken then s.hold
  else
    let x := entryGranules i sh
    { s with me := { s.me with
        mq := s.me.mq ++ [s.entry i sh gx w vec]
        follows := []
        regs := s.me.regs.swapMs ms sw
        cx := if x.2.2 then { s.me.cx with accdirty := markDirty s.me.cx.accdirty x.1 x.2.1 } else s.me.cx } }

/-- A product at issue (R189, R191). -/
def State.product (s : State) (i : Instr) (pr : Product) (m : U2) (sw : Bool) (acc : U11) (gx : U5) (mods : Bool)
    (p : U3) : State :=
  s.when (s.pred p) (
    let sh := s.shapeMs m sw
    let x := s.me.regs.readG gx
    s.settle (s.productCheck pr sh x acc.toNat mods) fun _ => s.enqueue i sh x 0 0 m sw)

/-- MMA (R191, R192). -/
def execMma (m : U2) (sw : Bool) (acc : U11) (gx : U5) (asgn bsgn isat z : Bool) (p : U3) (s : State) : Out :=
  .next (s.product (.mma m sw acc gx asgn bsgn isat z p) .dense m sw acc gx (asgn || bsgn || isat) p)
/-- MMASA (R191, R193). -/
def execMmasa (m : U2) (sw : Bool) (acc : U11) (gx : U5) (asgn bsgn isat z : Bool) (p : U3) (s : State) : Out :=
  .next (s.product (.mmasa m sw acc gx asgn bsgn isat z p) .sparseA m sw acc gx (asgn || bsgn || isat) p)
/-- MMASB (R191, R193). -/
def execMmasb (m : U2) (sw : Bool) (acc : U11) (gx : U5) (asgn bsgn isat z : Bool) (p : U3) (s : State) : Out :=
  .next (s.product (.mmasb m sw acc gx asgn bsgn isat z p) .sparseB m sw acc gx (asgn || bsgn || isat) p)
/-- MMAM (R191, R194). -/
def execMmam (m : U2) (sw : Bool) (acc : U11) (gx : U5) (z : Bool) (p : U3) (s : State) : Out :=
  .next (s.product (.mmam m sw acc gx z p) .moment m sw acc gx false p)

/-- The checks of the forms that name granules alone (R189, R190, R196). -/
def State.namedCheck (s : State) (g n : Nat) (pair : Bool) : Except Stop Unit := do
  s.granuleCheck g n
  if pair && g % 2 == 1 then shapeFault g
  s.ownCheck g

/-- AZERO (R196). -/
def execAzero (acc : U11) (cnt : Byte) (p : U3) (s : State) : Out :=
  .next (s.when (s.pred p) (s.settle (s.namedCheck acc.toNat (cnt.toNat + 1) false) fun _ =>
    s.enqueue (.azero acc cnt p) 0 0 0 0 0 false))

/-- APUT (R196): the vector is captured at issue. -/
def execAput (acc : U11) (v : U5) (row : U4) (col : Bool) (p : U3) (s : State) : Out :=
  .next (s.when (s.pred p) (s.settle (s.namedCheck acc.toNat 1 false) fun _ =>
    s.enqueue (.aput acc v row col p) 0 0 0 (s.vsrc (.v v)) 0 false))

/-- The 64 mapped elements of a granule (R196). -/
def State.tileLanes (s : State) (g : Nat) (col : Bool) (row : U4) : Vec :=
  lanes32 fun l => s.accWord (let p := laneElement col row.toNat l; s.accAt g p.1 p.2)

/-- The causes that mwait and the waiting accumulator reads raise (R195, R382, R429), in order: 0x20, then 0x40, then
the failed transfer at user level. -/
def State.queueFaults (s : State) : Except Stop Unit :=
  if s.me.sp.mfault.getLsbD 63 then .error (.trap 0x20 0x300)
  else if s.me.sp.mecc.getLsbD 63 then .error (.trap 0x40 s.me.sp.mecc)
  else if s.me.cx.accxfer.getLsbD 61 && !s.me.priv then
    .error (.trap (s.me.cx.accxfer.extractLsb' 27 8) s.me.cx.accfail)
  else .ok ()

/-- A waiting accumulator read (R197): held until no entry that writes one of its granules remains. -/
def State.waitRead (s : State) (g n : Nat) (pair : Bool) : Except Stop Unit := do
  s.namedCheck g n pair
  if s.me.mq.any fun e => (List.range n).any fun x => e.writesGranule (g + x) then .error .hold
  s.queueFaults

/-- The mapped pairs of a granule pair: variances high, means low (R31, R196). -/
def State.tilePairs (s : State) (g : Nat) (row : U4) : Mom := s.tileLanes (g + 1) true row ++ s.tileLanes g true row

/-- DRAIN (R199, R201): with RM = 4 the bundle's word is captured. -/
def execDrain (m : U2) (sw : Bool) (acc : U11) (gx : U5) (rm : U3) (sat bias : Bool) (p : U3) (s : State) : Out :=
  .next (s.when (s.pred p) (
    let sh := s.shapeMs m sw
    let x := s.me.regs.readG gx
    s.settle (s.drainCheck false bias sat sh x acc.toNat) fun _ => s.withW (rm = 4) fun w s =>
      s.enqueue (.drain m sw acc gx rm sat bias p) sh x w 0 m sw))

/-- DRAINQ (R199, R202). -/
def execDrainq (m : U2) (sw : Bool) (acc : U11) (gx : U5) (bias zp : Bool) (p : U3) (s : State) : Out :=
  .next (s.when (s.pred p) (
    let sh := s.shapeMs m sw
    let x := s.me.regs.readG gx
    s.settle (s.drainCheck true true false sh x acc.toNat) fun _ =>
      s.enqueue (.drainq m sw acc gx bias zp p) sh x 0 0 m sw))

/-- A row or column sum at issue (R203). -/
def State.sumOp (s : State) (i : Instr) (rows : Bool) (m : U2) (sw : Bool) (acc : U11) (gx : U5) (p : U3) : State :=
  s.when (s.pred p) (
    let sh := s.shapeMs m sw
    s.settle (s.sumCheck rows sh acc.toNat) fun _ => s.enqueue i sh (s.me.regs.readG gx) 0 0 m sw)

/-- ARSUM (R203). -/
def execArsum (m : U2) (sw : Bool) (acc : U11) (gx : U5) (sgn isat z : Bool) (p : U3) (s : State) : Out :=
  .next (s.sumOp (.arsum m sw acc gx sgn isat z p) true m sw acc gx p)
/-- ACSUM (R203). -/
def execAcsum (m : U2) (sw : Bool) (acc : U11) (gx : U5) (sgn isat z : Bool) (p : U3) (s : State) : Out :=
  .next (s.sumOp (.acsum m sw acc gx sgn isat z p) false m sw acc gx p)

/-- MWAIT (R188): held until the queue is empty. -/
def execMwait (s : State) : Out :=
  .next (if s.me.mq.isEmpty then s.settle s.queueFaults fun _ => s else s.hold)

end Sys2Proof.Machine
end

