-- ==== Sys2Proof/Machine/Port.lean ====
section
/-! DEFINITION. What a memory port does with a write or a read (R228, R277, R424, R426): the words that fail, the
corrections it counts, the waiters it evaluates, and the presence tags of R216..R218. -/
namespace Sys2Proof.Machine

/-! ### Failing words (R423, R424, R426) -/

/-- The array code of a memory (R423); host memory is no array of the device. -/
def arrayOf : Space → Nat
  | .spl => 2
  | .acc => 4
  | .hbm => 12
  | .host => 16

/-- The 8-byte words that n bytes from a touch. -/
def wordsOf (a n : Nat) : List Nat := (List.range ((a + n + 7) / 8 - a / 8)).map (a / 8 + ·)

/-- Whether n bytes from a cover the whole of word w. -/
def covers (a n w : Nat) : Bool := a ≤ 8 * w && 8 * w + 8 ≤ a + n

/-- The words that a write of n bytes from a covers in part, which it reads (R424, R427). -/
def partWords (sp : Space) (a n : Nat) : List (Space × Nat × Nat) :=
  ((wordsOf a n).filter fun w => !covers a n w).map fun w => (sp, 8 * w, 8)

/-- The first byte among n from a that lies in a failing word (R426). -/
def Dev.failing (d : Dev) (sp : Space) (a n : Nat) : Option Nat :=
  if d.bad.isEmpty then none
  else ((wordsOf a n).find? fun w => d.bad.contains (arrayOf sp, w)).map fun w => Nat.max a (8 * w)

/-- The first byte of a failing word that n bytes from a cover only in part (R426, R427). -/
def Dev.partFailing (d : Dev) (sp : Space) (a n : Nat) : Option Nat :=
  if d.bad.isEmpty then none
  else ((wordsOf a n).find? fun w => d.bad.contains (arrayOf sp, w) && !covers a n w).map fun w => Nat.max a (8 * w)

/-- The array form of an information word (R428): the array's code and the location in it. -/
def arrayWord (arr loc : Nat) : U64 := BitVec.ofNat 64 (2 ^ 63 + arr * 2 ^ 59 + loc)

/-- Control-store entries that are written no longer fail (R426). -/
def Dev.entriesReplaced (d : Dev) (phys first n : Nat) : Dev :=
  { d with bad := d.bad.filter fun w => !(w.1 == 7 && phys * 1024 + first ≤ w.2 && w.2 < phys * 1024 + first + n) }

/-- A write replaces the failing words it covers whole, leaves no word of its own to be corrected, and drops the queued
write-back of each (R424, R426). -/
def Dev.replaced (d : Dev) (sp : Space) (a n : Nat) : Dev :=
  if d.bad.isEmpty && d.weak.isEmpty && d.writebacks.isEmpty then d
  else
    { d with
      bad := d.bad.filter fun x => !(x.1 == arrayOf sp && covers a n x.2)
      weak := d.weak.filter fun x => !(x.1 == arrayOf sp && (wordsOf a n).contains x.2)
      writebacks := if sp = .hbm then d.writebacks.filter fun w => !(wordsOf a n).contains w else d.writebacks }

/-- The place of word w of table t of a core in array 9 (R75, R428): the codebook tables are 0..15, the scale table is 16. -/
def tableWord (phys t w : Nat) : Nat := phys * 128 + 4 * t + w

/-- The words of tables that are loaded no longer fail (R426): 32 bytes, or 16 of an E4M3 table. -/
def Dev.tablesReplaced (d : Dev) (phys : Nat) (ts : List Nat) : Dev :=
  { d with bad := d.bad.filter fun w => !(w.1 == 9 && ts.any fun t => w.2 / 4 == phys * 32 + t) }

/-- The number of a slot among those of the device. -/
def slotNo (phys : Nat) (slot1 : Bool) : Nat := 2 * phys + slot1.toNat

/-- A register of the two arrays of R423 that hold registers: `g`, or a vector, latch or moment register. -/
inductive RegName where
  | g (r : U5)
  | v (r : U5)
  | b (n : U2)
  | m (r : U4)
  deriving DecidableEq, Repr

/-- The array of a register (R423). -/
def RegName.arr : RegName → Nat
  | .g _ => 0
  | _ => 1

/-- A register's number in its array (R428). -/
def RegName.num : RegName → Nat
  | .g r => r.toNat
  | .v r => r.toNat
  | .b n => 32 + n.toNat
  | .m r => 48 + r.toNat

/-- A register of a slot in its array: its 8-byte words are the 64 from 64 times this number on. -/
def RegName.key (r : RegName) (slot : Nat) : Nat := 64 * slot + r.num

/-- Whether a word of a register of a slot fails that holds one of the given lanes (R423, R426): a scalar register is one word. -/
def Dev.regBad (d : Dev) (slot : Nat) (r : RegName) (lanes : U64) : Bool :=
  d.bad.any fun w => w.1 == r.arr && w.2 / 64 == r.key slot &&
    (r.arr == 0 || lanes.getLsbD (2 * (w.2 % 32)) || lanes.getLsbD (2 * (w.2 % 32) + 1))

/-- The words of a register that are written whole no longer fail (R426). -/
def Dev.regWritten (d : Dev) (slot : Nat) (r : RegName) (whole : Nat → Bool) : Dev :=
  { d with bad := d.bad.filter fun w => !(w.1 == r.arr && w.2 / 64 == r.key slot && whole (w.2 % 64)) }

/-- Whether lanes that are enabled cover the whole of word w of a vector, or of either half of a moment. -/
def laneWord (wr : U64) (w : Nat) : Bool := wr.getLsbD (2 * (w % 32)) && wr.getLsbD (2 * (w % 32) + 1)

/-- The latches of a slot move up as a new one enters (R34), and a failing word with its latch. -/
def Dev.latchesMoved (d : Dev) (slot : Nat) : Dev :=
  { d with bad := (d.bad.filter fun w => !(w.1 == 1 && w.2 / 64 == RegName.key (.b 2) slot)).map fun w =>
      if w.1 == 1 && (w.2 / 64 == RegName.key (.b 0) slot || w.2 / 64 == RegName.key (.b 1) slot) then (1, w.2 + 64) else w }

/-- The latches of a slot all written, as a clearing or a return leaves them (R35, R38, R426). -/
def Dev.latchesReplaced (d : Dev) (slot : Nat) : Dev :=
  if d.bad.isEmpty then d
  else { d with bad := d.bad.filter fun w =>
    !(w.1 == 1 && RegName.key (.b 0) slot ≤ w.2 / 64 && w.2 / 64 ≤ RegName.key (.b 2) slot) }

/-- The failing words of a slot's registers after a result has landed (R426). -/
def Dev.resLanded (d : Dev) (slot : Nat) (noq : Bool) (r : Res) : Dev :=
  if d.bad.isEmpty then d
  else match r with
    | .g (.reg i) _ wr => d.regWritten slot (.g i) fun _ => wr
    | .v x _ wr =>
      let e := match x with | .reg i => d.regWritten slot (.v i) (laneWord wr) | .tr => d
      if noq then e else e.latchesMoved slot
    | .m i _ wr => d.regWritten slot (.m i) (laneWord wr)
    | _ => d

/-- The registers of a slot all written (R28, R327, R374): none of their words fails. -/
def Dev.regsReplaced (d : Dev) (slot : Nat) : Dev :=
  { d with bad := d.bad.filter fun w => !((w.1 == 0 || w.1 == 1) && w.2 / 4096 == slot) }

/-- The tag words of n cells of a core from cell c on that are written no longer fail (R426). -/
def Dev.tagsReplaced (d : Dev) (phys c n : Nat) : Dev :=
  { d with badTags := d.badTags.filter fun k => !(cellKey phys c ≤ k && k < cellKey phys (c + n)) }

/-- The words of a core's own scratchpad from byte `lo` on that can be corrected. -/
def Dev.weakIn (d : Dev) (lo n : Nat) : List (Space × Nat) :=
  (d.weak.filter fun w => w.1 == 2 && lo ≤ 8 * w.2 && 8 * w.2 < lo + n).map fun w => (.spl, w.2)

/-- The key in `badTags` of the pointers of queue region n of a slot (R423: array 3), beyond those of the cells. -/
def regionKey (slot n : Nat) : Nat := 2 ^ 20 + 16 * slot + n

/-- Region pointers that are written no longer fail (R426). -/
def Dev.pointersWritten (d : Dev) (slot n : Nat) : Dev := { d with badTags := d.badTags.filter (· != regionKey slot n) }

/-- A slot's registers and region pointers as a launch, a resumption or a reset leaves them: none fails. -/
def Dev.slotReplaced (d : Dev) (slot : Nat) : Dev :=
  if d.bad.isEmpty && d.badTags.isEmpty then d
  else
    let e := d.regsReplaced slot
    { e with badTags := e.badTags.filter fun k => !(regionKey slot 0 ≤ k && k < regionKey slot 16) }

/-- Whether the allowed bitmaps let PF 0 count an event in a bank (R412, R421; log 93): that of every virtual function whose
partition has the bank's cluster, or, for a bank of a die or of the host port, of every virtual function. -/
def Dev.hostMayCount (d : Dev) (bank ev : Nat) : Bool :=
  d.host.vfs.all fun v => v.events.getLsbD ev ||
    (bank < 32 && !d.parts.any fun p => p.num == v.part && p.clusters.testBit bank)

/-- An event counted in every bank that is held and not frozen, as often as `n` says for it (R421, R445). -/
def Dev.countBy (d : Dev) (ev : Nat) (n : Nat → Nat) : Dev :=
  { d with mgmt := { d.mgmt with banks := d.mgmt.banks.map fun (b : Bank) =>
      if b.holder.isSome && !b.frozen && (b.holder != some 0 || d.hostMayCount b.num ev) then
        { b with counts := (b.counts.zip b.sel).map fun x => if x.2 = ev then (x.1 + n b.num) % 2 ^ 64 else x.1 }
      else b } }

/-- An event counted n times in one bank. -/
def Dev.countEv (d : Dev) (ev bank n : Nat) : Dev := d.countBy ev fun b => if b = bank then n else 0

/-- Corrections of the device counted for an array (R423, R433). -/
def Mgmt.correctedIn (m : Mgmt) (arr n : Nat) : Mgmt :=
  if h : arr < 16 then { m with corrected := m.corrected.set arr (m.corrected[arr] + n) } else m

/-- The bank of the Starik die whose stack holds an HBM address (R2, R277, R445): which stack that is is open (log 56). -/
def dieBank (a : Nat) : Nat := 32 + Config.stackOf (a / 64) % 8 / 2

/-- An event of the memory port that holds an HBM address counted once in its die's bank. -/
def Dev.countStack (d : Dev) (ev a : Nat) : Dev := d.countEv ev (dieBank a) 1

/-- The 64-byte lines that n bytes of HBM from a touch, each counted as an access in its die's bank (R445). -/
def Dev.countLines (d : Dev) (ev a n : Nat) : Dev :=
  if d.mgmt.banks.isEmpty then d
  else (List.range ((a + n + 63) / 64 - a / 64)).foldl (fun d i => d.countStack ev (64 * (a / 64 + i))) d

/-- An event of the core counted n times in its cluster's bank. -/
def State.countEv (s : State) (ev n : Nat) : State := { s with dev := s.dev.countEv ev (clusterOf s.core.phys) n }

/-- A correction counted in %eccnt (R424, R440), saturating. -/
def Sprs.countEcc (r : Sprs) (arr n : Nat) : Sprs :=
  if h : arr < 16 then
    { r with eccnt := r.eccnt.set arr (BitVec.ofNat 64 (Nat.min (2 ^ 64 - 1) (r.eccnt[arr].toNat + n))) }
  else r

/-- An access of the slot that reads n bytes: single-bit errors are corrected and counted (R424). In SRAM the corrected
word is written back at once; in HBM its write-back is queued. -/
def State.correct (s : State) (sp : Space) (a n : Nat) : State :=
  let s := if sp = .hbm then { s with dev := s.dev.countLines 27 a n } else s
  if s.dev.weak.isEmpty then s
  else
    let ws := (wordsOf a n).filter fun w => s.dev.weak.contains (arrayOf sp, w)
    { s with
      me := { s.me with sp := s.me.sp.countEcc (arrayOf sp) ws.length }
      dev := { s.dev.countEv 18 (clusterOf s.core.phys) ws.length with
        weak := if sp = .hbm then s.dev.weak else s.dev.weak.filter fun x => !(x.1 == arrayOf sp && ws.contains x.2)
        writebacks := if sp = .hbm then s.dev.writebacks ++ ws else s.dev.writebacks } }

/-! ### Waiters (R228) -/

/-- The value a waiting instruction evaluates and the outcome, when its condition holds (R229, R230, R232). -/
def Await.holds (c : Await) (m : Mems) (key : Nat) : Option (U32 × Nat) :=
  let count := BitVec.ofNat 32 (m.nat .spl key 4)
  match c with
  | .ge x => if x.toNat ≤ count.toNat then some (count, 0) else none
  | .ne x => if x ≠ count then some (count, 0) else none
  | .barrier =>
    let hi := m.nat .spl (key + 4) 4
    if 2 ^ 31 ≤ hi then some (count, 1)
    else if hi ≠ 0 ∧ hi ≤ count.toNat then some (count, 0) else none

/-- The bytes a waiting instruction watches. -/
def Await.size : Await → Nat
  | .barrier => 8
  | _ => 4

/-- A waiter evaluated as part of a write to n bytes from a (R228). -/
def Thread.evaluate (t : Thread) (m : Mems) (a n : Nat) : Thread :=
  match t.watch with
  | some w =>
    if w.hit.isNone && w.key < a + n && a < w.key + w.cond.size then
      { t with watch := some { w with hit := w.cond.holds m w.key } }
    else t
  | none => t

/-- Whether some slot watches. -/
def CoreRec.watching (c : CoreRec) : Bool := c.t0.watch.isSome || c.t1.watch.isSome

/-- The slot record of a core (R56). -/
def CoreRec.slot (c : CoreRec) (slot1 : Bool) : Thread := if slot1 then c.t1 else c.t0

/-- The slot record of any core. -/
def State.threadAt (s : State) (phys : Nat) (slot1 : Bool) : Option Thread :=
  (s.coreAt phys).map fun c => c.slot slot1

/-- Whether the context of a collective is bound where the collective was issued and no save of it has begun, so that its SIG
word is there to be evaluated (R259, R366). -/
def State.collBound (s : State) (c : Coll) : Bool :=
  (s.threadAt c.phys c.slot1).any fun t =>
    t.bound.any (fun b => b.ctx == c.who.ctx) && match t.run with | .saving _ => false | _ => true

/-- A collective's SIG word evaluated (R259): bucket b starts when the word is at least b + 1. -/
def Coll.start (c : Coll) (m : Mems) : Coll :=
  { c with started := Nat.max c.started (Nat.min (leNat ((c.desc.drop 4).take 2)) (m.nat .spl c.sig 4)) }

/-- The collectives whose SIG word a write touches evaluate it (R259); none starts a bucket before the members agree. -/
def State.startColls (s : State) (a n : Nat) : List Coll :=
  s.dev.colls.map fun c =>
    if c.sig < a + n && a < c.sig + 4 && c.agreed && !c.gone && c.status == 0 && s.collBound c then c.start s.mems else c

/-- Every waiter evaluated as part of a write to n bytes of a scratchpad (R228, R259). -/
def State.evaluate (s : State) (a n : Nat) : State :=
  let t := if s.me.watch.isSome || s.sib.watch.isSome || s.rest.any CoreRec.watching then
      { s with
        me := s.me.evaluate s.mems a n
        sib := s.sib.evaluate s.mems a n
        rest := s.rest.map fun c => { c with t0 := c.t0.evaluate s.mems a n, t1 := c.t1.evaluate s.mems a n } }
    else s
  if s.dev.colls.isEmpty then t
  else { t with dev := { t.dev with colls := s.startColls a n } }

theorem State.evaluate_mems (s : State) (a n : Nat) : (s.evaluate a n).mems = s.mems := by
  unfold State.evaluate
  dsimp only
  split <;> split <;> rfl

theorem State.correct_mems (s : State) (sp : Space) (a n : Nat) : (s.correct sp a n).mems = s.mems := by
  unfold State.correct
  dsimp only
  split <;> split <;> rfl

namespace Act
variable {s0 : State}

/-- Bytes written by a port: the words they cover are replaced, and the waiters on them are evaluated (R228, R426). -/
def write (sp : Space) (a : Nat) (bs : List Byte) : Act s0 Unit := do
  bytes sp a bs
  dev fun d => (if sp = .hbm then d.countLines 28 a bs.length else d).replaced sp a bs.length
  if sp = .spl then upd (fun s => s.evaluate a bs.length) (fun s => s.evaluate_mems a bs.length)

/-- A read that the slot makes: corrections are counted (R424). -/
def readCorrected (sp : Space) (a n : Nat) : Act s0 Unit :=
  upd (fun s => s.correct sp a n) (fun s => s.correct_mems sp a n)

/-- Nothing. -/
def done : Act s0 Unit := pure ()

/-- One action for each element, in order. -/
def each {α : Type} (l : List α) (f : α → Act s0 Unit) : Act s0 Unit :=
  match l with
  | [] => pure ()
  | x :: xs => do f x; each xs f

end Act

/-! ### Cells and scratchpads by core (R16, R56, R216) -/

/-- The slot a job-relative or cluster address names, and its part of the scratchpad: the physical core, the first byte's
offset and the size. -/
structure Place where
  phys : Nat
  slot1 : Bool
  first : Nat
  size : Nat
  deriving DecidableEq, Repr

/-- A slot's part of a core's scratchpad (R56). -/
def placeOf (c : Core) (slot1 : Bool) : Place := ⟨c.phys, slot1, firstCell c slot1 * 1024, cellCount c * 1024⟩

/-- The slot's own part. -/
def State.place (s : State) : Place := placeOf s.core s.me.slot1

/-- The key of a byte of a place. -/
def Place.at (p : Place) (off : Nat) : Nat := splKey p.phys (p.first + off)

/-- The tag key of the cell that holds a byte of a place. -/
def Place.cell (p : Place) (off : Nat) : Nat := cellKey p.phys ((p.first + off) / 1024)

/-- The place of a slot of any core. -/
def State.placeAt (s : State) (phys : Nat) (slot1 : Bool) : Option Place :=
  (s.coreAt phys).map fun c => placeOf c.core slot1

/-- A slot of any core changed. -/
def State.updThread (s : State) (phys : Nat) (slot1 : Bool) (f : Thread → Thread) : State :=
  if s.core.phys = phys then
    if s.me.slot1 = slot1 then { s with me := f s.me } else { s with sib := f s.sib }
  else
    { s with rest := s.rest.map fun c =>
        if c.core.phys = phys then (if slot1 then { c with t1 := f c.t1 } else { c with t0 := f c.t0 }) else c }

/-- The slot that owns a byte of a scratchpad (R56, R423). -/
def State.splOwner (s : State) (a : Nat) : Nat × Bool :=
  (a / 1048576, (s.coreAt (a / 1048576)).any fun c => c.core.rsplit && firstCell c.core true * 1024 ≤ a % 1048576)

/-- A core of the device changed. -/
def State.updCore (s : State) (phys : Nat) (f : Core → Core) : State :=
  if s.core.phys = phys then { s with core := f s.core }
  else { s with rest := s.rest.map fun c => if c.core.phys = phys then { c with core := f c.core } else c }

theorem State.updThread_mems (s : State) (phys : Nat) (slot1 : Bool) (f : Thread → Thread) :
    (s.updThread phys slot1 f).mems = s.mems := by
  unfold State.updThread
  split
  · split <;> rfl
  · rfl

theorem State.updCore_mems (s : State) (phys : Nat) (f : Core → Core) : (s.updCore phys f).mems = s.mems := by
  unfold State.updCore
  split <;> rfl

namespace Act
variable {s0 : State}

/-- A slot of any core changed. -/
def thread (phys : Nat) (slot1 : Bool) (f : Thread → Thread) : Act s0 Unit :=
  upd (fun s => s.updThread phys slot1 f) (fun s => s.updThread_mems phys slot1 f)

/-- Words that an access of any slot reads are corrected (R424): one of a scratchpad is counted with the slot that owns it,
another with the slot that the access is of; in SRAM it is written back at once, in HBM its write-back is queued. -/
def correctWords (phys : Nat) (slot1 : Bool) (words : List (Space × Nat)) : Act s0 Unit := do
  let s ← cur
  each (words.eraseDups.filter fun w => s.dev.weak.contains (arrayOf w.1, w.2)) fun w => do
    let o := if w.1 = .spl then s.splOwner (8 * w.2) else (phys, slot1)
    thread o.1 o.2 fun t => { t with sp := t.sp.countEcc (arrayOf w.1) 1 }
    dev fun d => { d.countEv 18 (clusterOf o.1) 1 with
      weak := if w.1 = .hbm then d.weak else d.weak.filter fun x => x ≠ (arrayOf w.1, w.2)
      writebacks := if w.1 = .hbm then d.writebacks ++ [w.2] else d.writebacks }

/-- What an access of any slot reads is corrected (R424), and the lines of HBM among it are counted (R445). -/
def correctFor (phys : Nat) (slot1 : Bool) (reads : List (Space × Nat × Nat)) : Act s0 Unit := do
  dev fun d => reads.foldl (fun d r => if r.1 = .hbm then d.countLines 27 r.2.1 r.2.2 else d) d
  let s ← cur
  if s.dev.weak.isEmpty then pure ()
  else correctWords phys slot1 (reads.flatMap fun r => (wordsOf r.2.1 r.2.2).map fun w => (r.1, w))

/-- What the device itself reads is corrected, and counted with the device (R424, R433). -/
def correctHere (reads : List (Space × Nat × Nat)) : Act s0 Unit := do
  dev fun d => reads.foldl (fun d r => if r.1 = .hbm then d.countLines 27 r.2.1 r.2.2 else d) d
  let s ← cur
  if s.dev.weak.isEmpty then pure ()
  else each ((reads.flatMap fun r => (wordsOf r.2.1 r.2.2).map fun w => (r.1, w)).eraseDups.filter fun w =>
      s.dev.weak.contains (arrayOf w.1, w.2)) fun w =>
    dev fun d => { d with
      mgmt := d.mgmt.correctedIn (arrayOf w.1) 1
      weak := if w.1 = .hbm then d.weak else d.weak.filter fun x => x ≠ (arrayOf w.1, w.2)
      writebacks := if w.1 = .hbm then d.writebacks ++ [w.2] else d.writebacks }

/-- The words that a write covers in part are read, and so corrected (R424, R427). -/
def correctPart (phys : Nat) (slot1 : Bool) (sp : Space) (a n : Nat) : Act s0 Unit := do
  let s ← cur
  if s.dev.weak.isEmpty then pure ()
  else correctWords phys slot1 (((wordsOf a n).filter fun w => !covers a n w).map fun w => (sp, w))

/-- A core changed. -/
def coreOf (phys : Nat) (f : Core → Core) : Act s0 Unit :=
  upd (fun s => s.updCore phys f) (fun s => s.updCore_mems phys f)

end Act

/-! ### Logs (R431..R433) -/

/-- The record of an error log as 32 bytes (R431). -/
def LogRec.bytes (r : LogRec) : List Byte :=
  [BitVec.ofNat 8 r.kind, r.cause, BitVec.ofNat 8 r.arr, 0] ++ leBytes 2 r.unit ++ leBytes 2 0 ++ leBytes 8 r.addr.toNat ++
    leBytes 4 r.job ++ leBytes 4 r.src ++ leBytes 8 r.time

/-- Microseconds since cold reset (R4: 2700 cycles each). -/
def Dev.micros (d : Dev) : Nat := d.now / 2700

/-- A partition by its number. -/
def Dev.part (d : Dev) (n : Nat) : Option Part := d.parts.find? fun p => p.num == n

/-- The partition that a physical core belongs to (R399). -/
def Dev.partOf (d : Dev) (phys : Nat) : Option Part := d.parts.find? fun p => p.clusters.testBit (clusterOf phys)

/-- A partition changed. -/
def Dev.updPart (d : Dev) (n : Nat) (f : Part → Part) : Dev :=
  { d with parts := d.parts.map fun p => if p.num = n then f p else p }

namespace Act
variable {s0 : State}

/-- A record of the device log (R433): ADDR and SRCDEV are 0. -/
def logDevice (kind : Nat) (cause : Byte) (arr unit job : Nat) : Act s0 Unit :=
  dev fun d => { d with mgmt := { d.mgmt with log := d.mgmt.log ++ [⟨kind, cause, arr, unit, job, 0, 0, d.micros⟩] } }

/-- A record of a partition's log (R431, R432): a ring of 4096 in its HBM; with the ring full the record is lost and
counted. -/
def log (part : Nat) (kind : Nat) (cause : Byte) (arr unit : Nat) (addr : U64) (job src : Nat) : Act s0 Unit := do
  let s ← cur
  match s.dev.part part with
  | none => pure ()
  | some p =>
    if (p.logWr + 65536 - p.logRd) % 65536 = 4096 then
      dev fun d => d.updPart part fun p => { p with logLost := Nat.min 65535 (p.logLost + 1) }
    else
      write .hbm (p.logPa + 32 * (p.logWr % 4096))
        (LogRec.bytes ⟨kind, cause, arr, unit, job, src, addr, s.dev.micros⟩)
      dev fun d => d.updPart part fun p => { p with logWr := (p.logWr + 1) % 65536 }

/-- The record of kind 4 of an uncorrectable error met on a core (R426). -/
def logBad (phys : Nat) (arr : Nat) (addr : U64) (job : Nat) : Act s0 Unit := do
  let s ← cur
  match s.dev.partOf phys with
  | none => logDevice 4 0x40 arr phys 0
  | some p => log p.num 4 0x40 arr phys addr job 0

end Act

/-- An effect of the slot that checks may stop (R426): a stop with cause 0x40, met at a word of one of the slot's arrays,
writes its log record too. -/
def State.settleBad {α : Type} (s : State) (arr : Nat) (c : Except Stop α) (f : α → State) : State :=
  match c with
  | .error (.trap code info) =>
    if code = 0x40 then
      runAct (fun _ => Act.logBad s.core.phys arr (arrayWord arr (s.place.first + info.toNat)) (s.me.bound.elim 0 (·.job)))
        (s.trap code info)
    else s.trap code info
  | _ => s.settle c f

/-! ### Releases (R218) -/

/-- The entries that a release frees: their parked writes are released, oldest first (R218). -/
def Dev.release (d : Dev) (which : RefEntry → Bool) : Dev :=
  let out := (d.refs.filter which).map (·.msg)
  { d.countBy 21 fun b => d.refs.countP fun e => which e && clusterOf e.phys == b with
    refs := d.refs.filter fun e => !which e
    net := d.net.map fun m => if out.contains m.id && m.stage == .parked then { m with stage := .released } else m }

/-- A cell of a core cleared by a consumer: EMPTY, COUNT 0, and its list entries released (R218, R219). -/
def Act.consume {s0 : State} (p : Place) (off : Nat) : Act s0 Unit := do
  let s ← cur
  tag (p.cell off) { s.mems.tag (p.cell off) with full := false, count := 0 }
  dev fun d => d.release fun e => e.phys == p.phys && e.what == .cell (p.cell off)

/-- The tag after `pfill` (R220). -/
def Tag.fill (t : Tag) : Tag := if t.full then t else { t with full := true, count := t.exp }

end Sys2Proof.Machine
end

