-- ==== Sys2Proof/Machine/Translate.lean ====
section
/-! DEFINITION. Address translation (R392..R398): a table walk, the checks of an access against a leaf, the TLBs and the
walker. -/
namespace Sys2Proof.Machine

/-! ### Table entries (R393) -/

def pteValid (e : U64) : Bool := e.getLsbD 0
def pteLeaf (e : U64) : Bool := e.getLsbD 1
def pteWrite (e : U64) : Bool := e.getLsbD 2
def pteHost (e : U64) : Bool := e.getLsbD 3
def pteFetch (e : U64) : Bool := e.getLsbD 4
def pteSup (e : U64) : Bool := e.getLsbD 5
/-- The page or table address: ADDR × 256. -/
def pteAddr (e : U64) : Nat := bitsOf e 51 8 * 256
def pteFmt (e : U64) : Nat := bitsOf e 55 52
def pteBgeo (e : U64) : Nat := bitsOf e 57 56
def pteCbt (e : U64) : Nat := bitsOf e 61 58

/-- FMT, BGEO and CBT that R77 does not allow. -/
def badFormat (e : U64) : Bool :=
  8 < pteFmt e || ((pteFmt e == 0 || pteFmt e == 5 || pteFmt e == 6 || pteFmt e == 7) && pteBgeo e != 0) ||
    (pteFmt e != 8 && pteCbt e != 0)

/-- A level of the walk (R392): the low bit of its index, the index width, the log of the size a leaf maps, and the
alignment of the table it indexes next. -/
structure Level where
  lo : Nat
  width : Nat
  leafAllowed : Bool
  nextAlign : Nat
  deriving DecidableEq, Repr

/-- The four levels (R392). -/
def levels : List Level := [⟨39, 9, false, 4096⟩, ⟨30, 9, true, 4096⟩, ⟨21, 9, true, 256⟩, ⟨16, 5, true, 0⟩]

/-- Whether an HBM range lies in the extents of a partition (R399). -/
def Part.owns (p : Part) (a n : Nat) : Bool :=
  a + n ≤ Config.hbmBytes && (List.range ((a + n + 2 ^ 30 - 1) / 2 ^ 30 - a / 2 ^ 30)).all fun i =>
    p.extents.testBit (a / 2 ^ 30 + i)

/-- Whether an HBM range lies in a shared region granted to a context (R406, R407). -/
def Dev.granted (d : Dev) (ctx a n : Nat) : Bool :=
  d.host.regions.any fun r => r.sealed && r.grants.contains ctx && r.pa ≤ a && a + n ≤ r.pa + (r.len + 65535) / 65536 * 65536

/-- The checks of a leaf that do not depend on the access (R394), in order. -/
def leafCheck (d : Dev) (part ctx : Nat) (va size : Nat) (e : U64) : PageRes :=
  if pteAddr e % size ≠ 0 then .fail 0x11
  else if badFormat e then .fail 0x11
  else if pteHost e then .leaf ⟨ctx, va, size, e, false⟩
  else if (d.part part).any fun p => p.owns (pteAddr e) size then .leaf ⟨ctx, va, size, e, false⟩
  else if d.granted ctx (pteAddr e) size then .leaf ⟨ctx, va, size, e, true⟩
  else .fail 0x12

/-- The entry of a table that a level of a walk reads (R392). -/
def Level.entry (l : Level) (va table : Nat) : Nat := table + 8 * (va / 2 ^ l.lo % 2 ^ l.width)

/-- What a level of a walk finds (R394): where the walk ends, or the next table. -/
inductive WalkStep where
  | ends (r : PageRes)
  | table (a : Nat)
  deriving DecidableEq, Repr

/-- One level of a walk (R394): its table lies in the partition's extents or in a region granted to the context, and its entry
is one 8-byte read, at address a; an entry in a failing word gives cause 0x40 (R427). -/
def walkStep (m : Mems) (d : Dev) (part ctx va : Nat) (l : Level) (a : Nat) : WalkStep :=
  if !((d.part part).any (fun p => p.owns a 8) || d.granted ctx a 8) then .ends (.fail 0x11)
  else if (d.failing .hbm a 8).isSome then .ends (.fail 0x40)
  else
    let e : U64 := BitVec.ofNat 64 (m.nat .hbm a 8)
    if !pteValid e ∨ bitsOf e 63 62 ≠ 0 ∨ bitsOf e 7 6 ≠ 0 then .ends (.fail 0x11)
    else if pteLeaf e then
      .ends (if l.leafAllowed then leafCheck d part ctx (va / 2 ^ l.lo * 2 ^ l.lo) (2 ^ l.lo) e else .fail 0x11)
    else if l.nextAlign = 0 ∨ bitsOf e 61 52 ≠ 0 ∨ bitsOf e 5 2 ≠ 0 ∨ pteAddr e % l.nextAlign ≠ 0 then .ends (.fail 0x11)
    else .table (pteAddr e)

/-- A walk of the remaining levels from a table (R394), and the entries that it has read. -/
def walkFrom (m : Mems) (d : Dev) (part ctx va : Nat) : List Level → Nat → PageRes × List Nat
  | [], _ => (.fail 0x11, [])
  | l :: ls, table =>
    let a := l.entry va table
    match walkStep m d part ctx va l a with
    | .ends r => (r, [a])
    | .table t =>
      let r := walkFrom m d part ctx va ls t
      (r.1, a :: r.2)

/-- A walk from the root of a context's tables (R394). -/
def walkTables (m : Mems) (d : Dev) (part ctx root va : Nat) : PageRes := (walkFrom m d part ctx va levels root).1

/-- The entries that such a walk reads. -/
def walkReads (m : Mems) (d : Dev) (part ctx root va : Nat) : List (Space × Nat × Nat) :=
  (walkFrom m d part ctx va levels root).2.map fun a => (.hbm, a, 8)

/-! ### The checks of an access (R394) -/

/-- What an access wants of its page: the privilege it runs at, whether it writes or fetches, and the kind of page
(none: both kinds are accepted, R207). -/
structure Want where
  priv : Bool
  write : Bool
  fetch : Bool
  host : Option Bool
  deriving DecidableEq, Repr

/-- The cause of an access that its leaf does not allow (R394). -/
def Pte.denies (p : Pte) (w : Want) : Option Byte :=
  if pteSup p.word && !w.priv then some 0x12
  else if w.write && (!pteWrite p.word || p.shared) then some 0x12
  else if w.fetch && (!pteFetch p.word || pteHost p.word || pteFmt p.word != 0) then some 0x12
  else if w.host.any fun h => h != pteHost p.word then some 0x12
  else none

/-- Whether a leaf translates an address of a context. -/
def Pte.covers (p : Pte) (ctx va : Nat) : Bool := p.ctx == ctx && p.va ≤ va && va < p.va + p.size

/-- The physical address of a virtual address that the leaf covers: device memory, or the I/O address (R393). -/
def Pte.phys (p : Pte) (va : Nat) : Nat := pteAddr p.word + (va - p.va)

/-- The memory a leaf maps. -/
def Pte.space (p : Pte) : Space := if pteHost p.word then .host else .hbm

/-! ### TLBs (R396) and the walker (R397) -/

/-- The entries of a TLB. -/
def tlbAt (l : List (Nat × List Pte)) (k : Nat) : List Pte := (l.find? fun x => x.1 == k).elim [] (·.2)

/-- A TLB with an entry added, the oldest replaced beyond n entries (R396: replacement is not specified, log 24). -/
def tlbAdd (l : List (Nat × List Pte)) (k n : Nat) (p : Pte) : List (Nat × List Pte) :=
  let es := ((tlbAt l k).filter fun q => q ≠ p) ++ [p]
  (k, es.drop (es.length - n)) :: l.filter fun x => x.1 != k

/-- The address of the 64 KiB page that holds a virtual address. -/
def pageBase (va : Nat) : Nat := va / 65536 * 65536

/-- The 64 KiB-aligned addresses that n bytes from va touch. -/
def pagesOf (va n : Nat) : List Nat :=
  (List.range ((va + n - 1) / 65536 - va / 65536 + 1)).map fun i => pageBase va + 65536 * i

/-- A core's own TLB entry for an address. -/
def Dev.coreHit (d : Dev) (phys ctx va : Nat) : Option Pte := (tlbAt d.tlb phys).find? fun p => p.covers ctx va
/-- The cluster TLB's entry for an address. -/
def Dev.clusterHit (d : Dev) (cl ctx va : Nat) : Option Pte := (tlbAt d.ctlb cl).find? fun p => p.covers ctx va

/-- A translation found in the core's TLB or else in the cluster's, which then fills the core's (R397). -/
def Dev.find (d : Dev) (phys ctx va : Nat) : Option (Pte × Dev) :=
  match d.coreHit phys ctx va with
  | some p => some (p, d)
  | none =>
    match d.clusterHit (clusterOf phys) ctx va with
    | some p => some (p, { d.countEv 15 (clusterOf phys) 1 with tlb := tlbAdd d.tlb phys 256 p })
    | none => none

/-- Whether a walk is one of a page of a context in a cluster. -/
def Walk.of (w : Walk) (cl ctx va : Nat) : Bool := w.cl == cl && w.ctx == ctx && w.va == pageBase va

/-- A walk requested (R397): a miss of a page that is being walked attaches to that walk. An access that comes to wait has
missed in both TLBs (R445; log 56). -/
def Dev.request (d : Dev) (cl ctx root va part : Nat) (who : List (Party × Bool)) : Dev :=
  let misses := if who.isEmpty then 1
    else who.countP fun x => !d.walks.any fun w => w.of cl ctx va && w.who.contains x
  let d := (d.countEv 15 cl misses).countEv 16 cl misses
  if d.walks.any fun w => w.of cl ctx va then
    { d with walks := d.walks.map fun w =>
        if w.of cl ctx va then
          { w with who := w.who ++ who.filter fun x => !w.who.contains x }
        else w }
  else { d with walks := d.walks ++ [⟨cl, ctx, root, pageBase va, part, who⟩] }

/-- The partition of the instance bound to the slot. -/
def Thread.part (t : Thread) : Nat := t.bound.elim 0 (·.part)

/-- The party that the slot is (R276). -/
def State.party (s : State) : Party := .slot s.core.phys s.me.slot1

/-- The context of the slot (R360). -/
def State.ctx (s : State) : Nat := bitsOf s.me.cx.ctxid 15 0

/-- The device address of the root of the slot's tables (R395). -/
def Thread.root (t : Thread) : Nat := t.cx.ptroot.toNat

/-- The failed walk that the slot is still to see for a page. -/
def State.failedWalk (s : State) (fetch : Bool) (va : Nat) : Option Byte :=
  (s.dev.walked.find? fun w => w.who == s.party && w.fetch == fetch && w.va == pageBase va).map (·.code)

/-- Every 64 KiB page translated, with the TLBs filled on the way; a miss holds the bundle and requests a walk, and a
failed walk raises its cause with the address as information word (R210). -/
def State.translate (s : State) (first : Nat) (k : State → List Pte → State) : List Nat → List Pte → State
  | [], got => k s got
  | va :: vas, got =>
    let at_ := Nat.max va first
    match s.failedWalk false va with
    | some code => s.trap code (BitVec.ofNat 64 at_)
    | none =>
      match s.dev.find s.core.phys s.ctx va with
      | some (p, d) => State.translate { s with dev := d } first k vas (got ++ [p])
      | none =>
        { s.hold with dev := s.hold.dev.request (clusterOf s.core.phys) s.ctx s.me.root va s.me.part [(s.party, false)] }

/-- An HBM or HST store or atomic of n bytes at a virtual address: its pages are translated at issue (R210), bits [63:48]
must be zero (R392), and each page must allow it (R394). -/
def State.withPages (s : State) (va : U64) (n : Nat) (host : Option Bool) (k : State → List Pte → State) : State :=
  if va.extractLsb' 48 16 ≠ 0 ∨ 2 ^ 48 < va.toNat + n then s.trap 0x11 va
  else
    s.translate va.toNat (fun t ps =>
      match ps.findSome? fun p => p.denies ⟨t.me.priv, true, false, host⟩ with
      | some code => t.trap code va
      | none => k t ps) (pagesOf va.toNat n) []

/-- The physical pieces of n bytes at va through leaves: memory, address, length (R392). -/
def piecesOf (ps : List Pte) (va : Nat) : Nat → Nat → List (Bool × Nat × Nat)
  | 0, _ => []
  | fuel + 1, n =>
    if n = 0 then []
    else
      let len := Nat.min n (pageBase va + 65536 - va)
      match ps.find? fun p => p.va ≤ va && va < p.va + p.size with
      | some p => (pteHost p.word, p.phys va, len) :: piecesOf ps (va + len) fuel (n - len)
      | none => []

/-- The bytes of a store cut along its pieces. -/
def cutBytes : List (Bool × Nat × Nat) → List Byte → List (Bool × Nat × List Byte)
  | [], _ => []
  | (h, a, n) :: ps, bs => (h, a, bs.take n) :: cutBytes ps (bs.drop n)

/-! ### Formatted pages (R76..R79) -/

/-- The element type of a page format (R77), as an ET code; 15 stands for CB4. -/
def fmtET (f : Nat) : Nat :=
  match f with
  | 1 => 7 | 2 => 8 | 3 => 3 | 4 => 4 | 5 => 2 | 6 => 1 | 7 => 0 | _ => 15

/-- The element size of a page format in half bytes. -/
def fmtNibbles (f : Nat) : Nat := match f with | 5 | 6 => 4 | 7 => 8 | 8 => 1 | _ => 2

end Sys2Proof.Machine
end

