-- ==== Sys2Proof/Machine/Net.lean ====
section
/-! DEFINITION. Writes, loads and atomics on their way (R215, R225, R276, R281, R282, R307, R404): how an instruction
sends one, what bytes it touches, and what must be performed before it. -/
namespace Sys2Proof.Machine

/-! ### Jobs and addresses -/

/-- A job by its identifier. -/
def Dev.job (d : Dev) (j : Nat) : Option Job := d.jobs.find? fun x => x.id == j

/-- The job of the slot's task. -/
def State.myJob (s : State) : Option Job := s.me.bound.bind fun b => s.dev.job b.job

/-- The job-relative device index of a pod or peer address (R209, R296). -/
def podDev (a : U64) : Nat := bitsOf a 63 54
/-- The job-relative core index of a pod address (R296). -/
def podCore (a : U64) : Nat := bitsOf a 53 46
/-- The offset of a pod or cluster address (R208, R296). -/
def podOff (a : U64) : Nat := bitsOf a 19 0

/-- Whether a device index has a valid entry in the job's device table (R297). -/
def State.devValid (s : State) (d : Nat) : Bool :=
  s.myJob.any fun j => (j.devs[d]?).any fun e => e.valid

/-- The checks of a pod scratchpad address at issue (R297). -/
def State.podCheck (s : State) (a : U64) : Except Stop Unit :=
  if bitsOf a 45 20 ≠ 0 ∨ !s.devValid (podDev a) then .error (.trap 0x12 a) else .ok ()

/-- The place that a cluster address names (R208), when the address is one of the cluster's. -/
def State.spkPlace (s : State) (a : U64) : Option Place :=
  let cidx := bitsOf a 23 20
  if bitsOf a 63 24 ≠ 0 ∨ 10 ≤ cidx then none
  else
    match s.coreAt (5 * clusterOf s.core.phys + cidx / 2) with
    | some c => if cidx % 2 = 1 ∧ !c.core.rsplit then none else some (placeOf c.core (cidx % 2 == 1))
    | none => none

/-- Whether a context is bound to a slot of a core, and whether it is of a job. -/
def State.boundJob (s : State) (p : Place) : Option Nat :=
  (s.threadAt p.phys p.slot1).bind fun t => t.bound.map (·.job)

/-- A context of a job suspended on a slot (R368). -/
def State.suspendedOn (s : State) (p : Place) (job : Nat) : Bool :=
  s.dev.ctxs.any fun c => c.phys == p.phys && c.slot1 == p.slot1 && c.bound.job == job

/-- Whether a cluster access finds a task bound at its place (R368). -/
def State.spkOpen (s : State) (phys : Nat) (slot1 : Bool) : Bool :=
  (s.threadAt phys slot1).any fun t => t.bound.isSome

/-- Whether a cluster access of a job is held at its place: nothing is bound there, and a context of the job is suspended
(R368). -/
def State.spkHeld (s : State) (phys : Nat) (slot1 : Bool) (job : Nat) : Bool :=
  !s.spkOpen phys slot1 && s.suspendedOn ⟨phys, slot1, 0, 0⟩ job

/-- A cluster address checked (R208): cause 0x12, or a hold while the only task of the job there is suspended
(R368). -/
def State.spkCheck (s : State) (a : U64) (n : Nat) : Except Stop Place :=
  match s.spkPlace a with
  | none => .error (.trap 0x12 a)
  | some p =>
    let job := s.me.bound.elim 0 (·.job)
    match s.boundJob p with
    | some j => if j ≠ job ∨ p.size < podOff a + n then .error (.trap 0x12 a) else .ok p
    | none =>
      if !s.suspendedOn p job ∨ p.size < podOff a + n then .error (.trap 0x12 a) else .error .hold

/-! ### Messages -/

/-- A message of the slot with nothing in it yet (R298). -/
def State.blank (s : State) (kind : MsgKind) : Msg where
  id := 0
  src := s.party
  ctx := s.ctx
  job := s.me.bound.elim 0 (·.job)
  part := s.me.part
  srcDev := s.myJob.elim 0 (·.self)
  kind := kind
  path := 4
  stage := .flying
  retry := false
  dev := 0
  core := 0
  slot1 := false
  addr := 0
  tag := false
  region := 0
  esz := 0
  data := []
  pieces := []
  rkind := 0
  raddr := 0
  owner := 0

/-- Whether a message is a write: one that an answer is owed for (R225), or a store that the slot's own port holds (R186). -/
def Msg.isWrite (m : Msg) : Bool :=
  match m.kind with
  | .load _ => false
  | .amo r => !r.ret
  | _ => true

/-- Whether a message has been performed (R278), its answer being on the way. -/
def Msg.performed (m : Msg) : Bool :=
  match m.stage with
  | .answered _ _ => true
  | _ => match m.kind with
    | .amo r => r.done
    | _ => false

/-- The cost of a message in tokens (R404): 256 bytes of payload each, and one for a write with no payload; a load
counts the bytes it returns, and a seal costs nothing. -/
def Msg.cost (m : Msg) : Nat :=
  match m.kind with
  | .pod .seal => 0
  | .load r => if r.wide then 2 else 1
  | .hst => Nat.max 1 (((m.pieces.map fun p => p.2.2.length).foldl (· + ·) 0 + 255) / 256)
  | _ => Nat.max 1 ((m.data.length + 255) / 256)

/-- The fabric port that a message leaves through: 24 is the host port (R404). -/
def Dev.portOf (d : Dev) (m : Msg) : Option Nat :=
  match m.kind with
  | .hst => some 24
  | .load r => if r.space = 4 then some 24 else none
  | .amo r => if r.host then some 24 else none
  | .pod _ =>
    match d.job m.job with
    | some j => if m.dev = j.self then none else some ((j.devs[m.dev]?).elim 0 (·.port))
    | none => none
  | _ => none

/-- A token bucket (R404, R405): one that has not been set holds the reset values. -/
def Dev.bucket (d : Dev) (port part : Nat) : Bucket :=
  (d.mgmt.buckets.find? fun b => b.port == port && b.part == part).getD ⟨port, part, 400, 4000, false, 4000⟩

/-- A bucket replaced. -/
def Dev.setBucket (d : Dev) (b : Bucket) : Dev :=
  { d with mgmt := { d.mgmt with
      buckets := b :: d.mgmt.buckets.filter fun x => !(x.port == b.port && x.part == b.part) } }

/-! ### Ports (R420) -/

/-- The port record of a fabric port changed. -/
def Dev.updPort (d : Dev) (n : Nat) (f : Port → Port) : Dev :=
  { d with mgmt := { d.mgmt with ports := d.mgmt.ports.map fun p => if p.num = n then f p else p } }

/-- A port by its number. -/
def Dev.port (d : Dev) (n : Nat) : Option Port := d.mgmt.ports.find? fun p => p.num == n

/-- A flit sent in a direction of a link under the current key, its counter advanced (R420; log 51: one for a message). -/
def LinkDir.flit (l : LinkDir) : LinkDir := { l with count := l.count + 1, unacked := l.unacked ++ [l.k] }

/-- Whether a port carries traffic: a fabric link that is up, or the host port (R435). -/
def Dev.carries (d : Dev) (p : Nat) : Bool := 24 ≤ p || (d.port p).any fun x => x.st == .up

/-- A flit sent over a fabric port, and counted (R420, R445). -/
def Dev.sendFlit (d : Dev) (p : Nat) : Dev :=
  if p < 24 then (d.updPort p fun x => { x with out := x.out.flit }).countEv 24 (32 + p / 6) 1 else d

/-- Where a message stands once it has its tokens (R404): HST accesses go to the host port, the others leave the
device. -/
def Msg.sent (m : Msg) : Msg :=
  match m.kind with
  | .pod _ => { m with stage := .away }
  | _ => { m with stage := .flying }

/-- A message tried against its buckets (R404): it takes its cost from the port's and the device's bucket at once. A flit waits
while its link retrains (R435). -/
def Dev.pay (d : Dev) (m : Msg) : Option Dev :=
  match d.portOf m with
  | none => some d
  | some p =>
    let b := d.bucket p m.part
    let g := d.bucket 25 m.part
    if d.carries p ∧ m.cost ≤ b.tok ∧ m.cost ≤ g.tok then
      some ((d.setBucket { b with tok := b.tok - m.cost }).setBucket { g with tok := g.tok - m.cost })
    else none

/-- The core and slot that a job-relative core index names on this device (R299). -/
def Dev.mapped (d : Dev) (job core : Nat) : Option MapEntry :=
  (d.job job).bind fun j => j.map.find? fun e => e.idx == core

/-- The destination agent and path of a write that R282 orders. -/
def Msg.agent (m : Msg) : Option (Nat × Nat × Nat × Bool) :=
  match m.kind with
  | .spk => some (3, 0, m.core, m.slot1)
  | .pod .phm => some (m.path, m.dev, 1024, false)
  | .pod _ => some (m.path, m.dev, m.core, false)
  | _ => none

/-- Whether a location lies within the scope of an atomic of the party (R241, R291): the scopes are core, cluster,
device, group and pod. -/
def Dev.within (d : Dev) (scope : Nat) (src : Party) (m : Msg) : Bool :=
  let phys := match src with | .slot p _ => p | _ => 0
  match m.kind with
  | .own => true
  | .spk => if scope = 0 then m.core == phys else true
  | .pod k =>
    let self := (d.job m.job).elim 0 (·.self)
    let here := m.dev == self && k != .phm
    let target := (d.mapped m.job m.core).elim 160 (·.phys)
    match scope with
    | 0 => here && target == phys
    | 1 => here && clusterOf target == clusterOf phys
    | 2 => m.dev == self
    | 3 => (d.job m.job).any fun j => m.dev == self || j.groups.any fun g => g.contains self && g.contains m.dev
    | _ => true
  | .hbm | .hst => 2 ≤ scope
  | .amo _ => 2 ≤ scope
  | .load r => if r.space = 1 then 1 ≤ scope || m.core == phys else 2 ≤ scope

/-- The key of the line that an atomic is performed on. -/
def AmoReq.line (r : AmoReq) : Nat := r.pa / 64 * 2 + if r.host then 1 else 0

/-- Whether a remembered requester lies within a scope of an issuer (R290). -/
def Dev.inScope (d : Dev) (scope : Nat) (job : Nat) (src who : Party) : Bool :=
  match src, who with
  | .slot p _, .slot q _ =>
    match scope with
    | 0 => src == who
    | 1 => clusterOf p == clusterOf q
    | 2 => true
    | 3 => (d.job job).any fun j => j.groups.any fun g => g.contains j.self
    | _ => true
  | _, .outside dev _ =>
    match scope with
    | 3 => (d.job job).any fun j => j.groups.any fun g => g.contains j.self && g.contains dev
    | 4 => true
    | _ => false
  | _, _ => true

/-- Whether the line's remembered requester lies outside the atomic's scope (R239, R292). -/
def Dev.scopeMiss (d : Dev) (m : Msg) (r : AmoReq) : Bool :=
  ((d.lines.find? fun x => x.1 == r.line).map (·.2)).any fun who => !d.inScope r.scope m.job m.src who

/-- Whether a message is a returning atomic that has an acquire effect and is still to be performed (R291): at a line whose
requester lies outside its scope the effect is dropped (R239; log 90). -/
def Dev.acquires (d : Dev) (m : Msg) : Bool :=
  !m.performed && match m.kind with | .amo r => r.ret && !d.scopeMiss m r | _ => false

/-- Whether a message has to wait behind one of the same partition, port and tier that waits for tokens (R404: first in, first
out). A seal, which takes none, waits behind those alone that its party sent to the same core (R282). -/
def Dev.tokenQueue (d : Dev) (m : Msg) : Bool :=
  d.net.any fun x => x.stage == .tokens && x.part == m.part && x.path == m.path && d.portOf x == d.portOf m &&
    (m.cost != 0 || (x.src == m.src && x.dev == m.dev && x.core == m.core))

/-- The messages ahead of one in issue order. -/
def ahead (n : Nat) : List Msg → List Msg
  | [] => []
  | m :: ms => if m.id = n then [] else m :: ahead n ms

/-- Whether a write leaves the device for another (R404). -/
def Dev.leaves (d : Dev) (m : Msg) : Bool := match m.kind with | .pod _ => (d.portOf m).isSome | _ => false

/-- Whether a write that leaves the device waits behind an earlier access of its party (R282, R291): a returning atomic whose
scope its destination lies in, or a write that waits so itself. -/
def Dev.heldBack (d : Dev) (m : Msg) : Bool :=
  d.leaves m && (ahead m.id d.net).any fun x => x.src == m.src && ((x.stage == .flying && d.leaves x) ||
    (d.acquires x && match x.kind with | .amo r => d.within r.scope x.src m | _ => false))

/-- A message that is sent: one that leaves the device waits for tokens unless its buckets hold its cost; one to a device
that cannot be reached, or that the job's device table does not hold, is answered 0x41 (R297, R404; log 66). -/
def Dev.emit (d : Dev) (m : Msg) : Dev × Msg :=
  match d.portOf m with
  | none => (d, m)
  | some p =>
    let reach := p = 24 || (d.job m.job).any fun j => (j.devs[m.dev]?).any fun e => e.valid && e.reach
    if d.heldBack m then (d, { m with stage := .flying })
    else if !reach then (d, { m with stage := .answered 0x41 0 })
    else if d.tokenQueue m then (d, { m with stage := .tokens })
    else
      match d.pay m with
      | some d2 => (d2.sendFlit p, m.sent)
      | none => (d, { m with stage := .tokens })

/-- A message appended in issue order; one that is not sent yet stays with its sender (R307). -/
def Dev.post (d : Dev) (m : Msg) : Dev :=
  let m := { m with id := d.nextMsg }
  let d1 := { d with nextMsg := d.nextMsg + 1 }
  if m.stage = .unsent then { d1 with net := d1.net ++ [m] }
  else
    let r := d1.emit m
    { r.1 with net := r.1.net ++ [r.2] }

/-- Messages appended in order. -/
def Dev.postAll (d : Dev) : List Msg → Dev
  | [] => d
  | m :: ms => (d.post m).postAll ms

/-- Messages sent by the slot. -/
def State.send (s : State) (ms : List Msg) : State := { s with dev := s.dev.postAll ms }

/-- The writes of a party's context on a path that are sent and unanswered (R307, R368). -/
def Dev.unanswered (d : Dev) (src : Party) (ctx path : Nat) : Nat :=
  d.net.countP fun m => m.src == src && m.ctx == ctx && m.path == path && m.isWrite && m.stage != .unsent

/-- Where a write stands as its party issues it (R307): it is not sent while 256 of its path are unanswered. -/
def Dev.roomStage (d : Dev) (src : Party) (ctx path : Nat) : Stage :=
  if d.unanswered src ctx path < 256 then .flying else .unsent

/-- Whether a path has no room for n more writes of the slot (R307). -/
def State.pathFull (s : State) (path n : Nat) : Bool := 256 < s.dev.unanswered s.party s.ctx path + n

/-! ### What a message touches and what goes before it -/

/-- Whether the entry's context is the one bound to the core or slot it names (R368). -/
def State.present (s : State) (e : MapEntry) : Bool :=
  (s.threadAt e.phys e.slot1).any fun t => t.bound.any fun b => b.ctx == e.ctx

/-- The place of a pod write on this device. -/
def State.podPlace (s : State) (m : Msg) : Option Place :=
  (s.dev.mapped m.job m.core).bind fun e => s.placeAt e.phys e.slot1

/-- A queue region (R233): whether it is enabled, its entry size code, entry size, first byte, capacity, and pointers. -/
structure QRegion where
  en : Bool
  esz : Nat
  entry : Nat
  base : Nat
  cap : Nat
  full : Nat
  pop : Nat
  head : Nat
  deriving DecidableEq, Repr

/-- Region n of a slot (R233). -/
def Sprs.region (r : Sprs) (n : Nat) : QRegion :=
  let c := r.qcfg.toList.getD n 0
  let q := r.qptr.toList.getD n 0
  let entry := 16 * 2 ^ bitsOf c 42 40
  ⟨c.getLsbD 63, bitsOf c 42 40, entry, bitsOf c 19 0, bitsOf c 39 20 / entry, bitsOf q 47 32, bitsOf q 31 16,
    bitsOf q 15 0⟩

/-- Leaf bits of a mapping (R393, R411): HBM and host mappings are writable, a shared region is not. -/
def Mapping.bits (m : Mapping) : Nat := match m.kind with | 0 => 7 | 1 => 15 | _ => 3
/-- The 64 KiB pages of a mapping. -/
def Mapping.pages (m : Mapping) : Nat := (m.len + 65535) / 65536

/-- The context of a job on the device whose tables a peer write uses (R223; log 46). -/
def State.jobTables (s : State) (job : Nat) : Option Thread :=
  let ts := (s.packed :: s.rest).flatMap CoreRec.slots ++ s.dev.ctxs.map (·.thread)
  ts.find? fun t => t.bound.any fun b => b.job == job

/-- The leaf that a mapping of the job's virtual function gives a page, while no context of the job stands (log 46); the page is
checked as a walk checks it (R394). -/
def Dev.mappedPage (d : Dev) (job va : Nat) : PageRes :=
  let v := (d.job job).bind fun j => d.host.vfs.find? fun v => v.fn == j.vf
  match (v.elim [] (·.maps)).find? fun x => x.va ≤ va && va < x.va + 65536 * x.pages with
  | some x => leafCheck d (v.elim 0 (·.part)) 0 va 65536 (BitVec.ofNat 64 (x.pa + (va - x.va) + x.bits))
  | none => .fail 0x11

/-- The translation of a page for a peer write to a job (R223; log 46). -/
def State.peerPage (s : State) (job va : Nat) : PageRes :=
  match s.jobTables job with
  | some t => walkTables s.mems s.dev t.part (bitsOf t.cx.ctxid 15 0) t.root va
  | none => s.dev.mappedPage job va

/-- The bytes of a peer write to this device (R223), page by page. -/
def State.peerBytes (s : State) (m : Msg) : List (Space × Nat × Nat) :=
  (pagesOf m.addr m.data.length).filterMap fun va =>
    match s.peerPage m.job va with
    | .leaf p =>
      let first := Nat.max va m.addr
      some (p.space, p.phys first, Nat.min (va + 65536) (m.addr + m.data.length) - first)
    | .fail _ => none

/-- Whether a write's place is one that its queue region names when it arrives (R234, R265, R266). -/
def Msg.byRegion (m : Msg) : Bool := match m.kind with | .pod k => k == .qput || k == .route || k == .seal | _ => false

/-- The bytes that a pod write touches at its place: those at its offset, or a queue region's memory. -/
def State.podBytes (s : State) (m : Msg) : List (Space × Nat × Nat) :=
  (s.podPlace m).toList.flatMap fun p =>
    if m.byRegion then
      (s.threadAt p.phys p.slot1).toList.map fun t =>
        let q := t.sp.region m.region
        (Space.spl, p.at q.base, q.cap * q.entry)
    else [(Space.spl, p.at m.addr, Nat.max 4 m.data.length)]

/-- The byte ranges that a message touches, as far as they are known: memory, first byte, length. -/
def State.touches (s : State) (m : Msg) : List (Space × Nat × Nat) :=
  match m.kind with
  | .spk | .own => ((s.placeAt m.core m.slot1).map fun p => (Space.spl, p.at m.addr, m.data.length)).toList
  | .pod k =>
    if !(s.dev.job m.job).any fun j => j.self == m.dev then []
    else if k == .phm then s.peerBytes m
    else s.podBytes m
  | .hbm | .hst => m.pieces.map fun p => (if p.1 then .host else .hbm, p.2.1, p.2.2.length)
  | .amo r => [(if r.host then .host else .hbm, r.pa, if r.word then 4 else 8)]
  | .load r =>
    if r.space = 1 then
      ((s.placeAt m.core m.slot1).map fun p => (Space.spl, p.at m.addr, if r.wide then 512 else 256)).toList
    else r.got.filterMap fun g => match g.2 with
      | .leaf p => some (p.space, p.phys g.1, 65536)
      | .fail _ => none

/-- Whether two ranges share a byte. -/
def overlap (a b : Space × Nat × Nat) : Bool := a.1 == b.1 && a.2.1 < b.2.1 + b.2.2 && b.2.1 < a.2.1 + a.2.2

/-- Whether a message accesses HBM or host memory. -/
def Msg.isMem (m : Msg) : Bool :=
  match m.kind with
  | .hbm | .hst | .amo _ => true
  | .pod k => k == .phm
  | .load r => r.space != 1
  | _ => false

/-- The bytes of a scalar access (R105). -/
def szBytes (sz : U3) : Nat := match sz.toNat with | 0 => 8 | 1 | 2 => 4 | 3 | 4 => 2 | _ => 1

/-- The bytes of a scalar or wide load. -/
def LoadReq.bytes (r : LoadReq) : Nat := if r.sz ≠ 7 then szBytes r.sz else if r.wide then 512 else 256

/-- Whether the bytes of a load are not all known yet (R78, R210): it lacks a translation, or it decodes elements, which may
run on into another page and have their scales apart from them. -/
def Msg.unresolved (m : Msg) : Bool :=
  match m.kind with
  | .load r => r.space != 1 && (!r.need.isEmpty ||
      ((pagesOf r.addr.toNat r.bytes).any fun va => va < 2 ^ 48 && !r.got.any fun g => g.1 == va) ||
      r.got.any fun g => match g.2 with | .leaf p => pteFmt p.word != 0 | .fail _ => false)
  | _ => false

/-- Whether a location lies within the scope of an atomic of the party (R241, R291). -/
def State.within (s : State) (scope : Nat) (src : Party) (m : Msg) : Bool := s.dev.within scope src m

/-- Whether an earlier message m of the same party must be performed before x (R281, R282, R291). -/
def State.before (s : State) (m x : Msg) : Bool :=
  m.src == x.src && !m.performed &&
    ((m.agent.isSome && m.agent == x.agent) || (m.isMem && x.isMem && (m.unresolved || x.unresolved)) ||
      (!(m.byRegion && x.byRegion) && (s.touches m).any fun a => (s.touches x).any (overlap a)) ||
      (s.dev.acquires m && match m.kind with | .amo r => s.within r.scope m.src x | _ => false))

/-! ### Accesses that wait for the slot's engines (R186, R255) -/

/-- The state with a slot of a core as the executing one. -/
def State.asSlot (s : State) (phys : Nat) (slot1 : Bool) : Option State :=
  (s.coreAt phys).map fun c => { s with me := c.slot slot1, core := c.core }

/-- Whether some range of one list shares a byte with one of another. -/
def meets (a b : List (Space × Nat × Nat)) : Bool := a.any fun x => b.any (overlap x)

/-- The bytes of memory that an accumulator transfer of the executing slot is to move (R382): of each page, as its cluster's TLB
or else its tables translate it. -/
def State.xferBytes (s : State) (e : MqEntry) (v : U64) (mask : Vector U64 32) : List (Space × Nat × Nat) :=
  (xferGranules v mask).filterMap fun g =>
    let va := e.base.toNat + 4096 * g
    let p := (s.dev.clusterHit (clusterOf s.core.phys) s.ctx va).elim
      (walkTables s.mems s.dev s.me.part s.ctx s.me.root (pageBase va)) PageRes.leaf
    match p with
    | .leaf p => some (p.space, p.phys va, 4096)
    | .fail _ => none

/-- The bytes of scratchpads and of memory that an entry reads (R186, R187, R281). -/
def State.entryIn (s : State) (e : MqEntry) : List (Space × Nat × Nat) :=
  match e.op with
  | .ins i => (s.entryReads e i).filter (·.1 == .spl)
  | .xfer v mask => if v.getLsbD 63 then s.xferBytes e v mask else []

/-- The bytes that an entry writes beyond the accumulators: a drain in its scratchpad (R186, R199), a spill in memory (R382). -/
def State.entryOut (s : State) (e : MqEntry) : List (Space × Nat × Nat) :=
  match e.op with
  | .ins _ => e.drainRows.elim [] fun d => (List.range d.2.2.2).map fun r => (.spl, s.splAt (d.1 + d.2.1 * r), d.2.2.1)
  | .xfer v mask => if v.getLsbD 63 then [] else s.xferBytes e v mask

/-- Whether the bytes of an access are not all known yet while an entry accesses memory, so that their order is not either
(R281). -/
def MqEntry.unsure (e : MqEntry) (x : Msg) : Bool :=
  x.unresolved && match e.op with | .xfer _ _ => true | .ins _ => false

/-- Whether a queued matrix entry of the executing slot keeps an access from being performed (R186, R281): any access to
bytes that an entry issued before it writes, and a write to bytes that the entry reads. -/
def State.queueHolds (s : State) (x : Msg) (rs : List (Space × Nat × Nat)) : Bool :=
  s.me.mq.any fun e => e.mark ≤ x.id && (e.unsure x || meets (s.entryOut e) rs || (x.isWrite && meets (s.entryIn e) rs))

/-- A field of a copy shape by its FLD number (R243). -/
def xsf (sh : U128) (f : Nat) : Nat :=
  let p := xsField (BitVec.ofNat 5 f)
  sh.toNat / 2 ^ p.1 % 2 ^ p.2

/-- The rows of a shape (R247). -/
def rowCount (sh : U128) : Nat := (xsf sh 1 + 1) * (xsf sh 2 + 1)
/-- The bytes of a row. -/
def rowLen (sh : U128) : Nat := xsf sh 0 + 1
/-- The source offset of row r = i2 × (CNT1 + 1) + i1 (R247). -/
def rowSrc (sh : U128) (r : Nat) : Nat := 16 * (r % (xsf sh 1 + 1) * xsf sh 3 + r / (xsf sh 1 + 1) * xsf sh 5)
/-- The destination offset of row r (R247). -/
def rowDst (sh : U128) (r : Nat) : Nat := 16 * (r % (xsf sh 1 + 1) * xsf sh 4 + r / (xsf sh 1 + 1) * xsf sh 6)

/-- The place that a copy source of space SPL or SPK names (R244), and the offset in it. -/
def State.copyPlace (s : State) (t : Transfer) (sp : Nat) (a : U64) : Option (Place × Nat) :=
  if sp = 0 then (s.placeAt t.phys t.slot1).map fun p => (p, a.toNat)
  else
    let cidx := bitsOf a 23 20
    (s.placeAt (5 * clusterOf t.phys + cidx / 2) (cidx % 2 == 1)).map fun p => (p, podOff a)

/-- The scratchpad bytes that rows `from` and later of a shape have as their source. -/
def State.rowsIn (s : State) (t : Transfer) (sh : U128) (sa : U64) (row : Nat) : List (Space × Nat × Nat) :=
  if 1 < xsf sh 7 then []
  else (s.copyPlace t (xsf sh 7) sa).toList.flatMap fun p =>
    ((List.range (rowCount sh)).drop row).map fun r => (.spl, p.1.at (p.2 + rowSrc sh r), rowLen sh)

/-- The scratchpad bytes that the records of a chain from p on name as their sources (R252, R255), as the records stand in
memory: up to one that is not owned, cannot be read, or was met before. -/
def State.chainIn (s : State) (t : Transfer) (root : Nat) : Nat → List Nat → Nat → List (Space × Nat × Nat)
  | 0, _, _ => []
  | fuel + 1, seen, p =>
    match walkTables s.mems s.dev t.who.part t.who.ctx root p with
    | .fail _ => []
    | .leaf e =>
      let bs := s.mems.read e.space (e.phys p) 64
      if seen.contains p || bytesAt bs 40 1 % 2 == 0 then []
      else
        s.rowsIn t (BitVec.ofNat 128 (bytesAt bs 24 16)) (BitVec.ofNat 64 (bytesAt bs 8 8)) 0 ++
          if bytesAt bs 0 8 = 0 then [] else s.chainIn t root fuel (p :: seen) (bytesAt bs 0 8)

/-- The scratchpad bytes that a transfer is still to read (R255). -/
def State.copyIn (s : State) (t : Transfer) : List (Space × Nat × Nat) :=
  (if t.rows || !t.chain then s.rowsIn t t.shape t.sa t.row else []) ++
    if t.chain && !(t.rows && t.next == 0) then
      s.chainIn t ((s.threadAt t.phys t.slot1).elim 0 Thread.root) (Config.hbmBytes / 64) [] t.next.toNat
    else []

/-- Whether a copy transfer of the executing slot, issued before a write numbered n, is still to read bytes of it (R255). -/
def State.copyHolds (s : State) (n : Nat) (rs : List (Space × Nat × Nat)) : Bool :=
  s.dev.chans.any fun c => c.q.any fun t =>
    t.phys == s.core.phys && t.slot1 == s.me.slot1 && t.who.ctx == s.ctx && t.mark ≤ n && meets (s.copyIn t) rs

/-- Whether the engines of its slot keep a message from being performed (R186, R255). -/
def State.engineHolds (s : State) (x : Msg) : Bool :=
  match x.src with
  | .slot phys b => (s.asSlot phys b).any fun t => t.ctx == x.ctx &&
      (t.queueHolds x (s.touches x) || (x.isWrite && t.copyHolds x.id (s.touches x)))
  | _ => false

/-- Whether a message may be performed now as far as its own party's order goes (R186, R255, R281, R282). -/
def State.ordered (s : State) (x : Msg) : Bool := (ahead x.id s.dev.net).all (fun m => !s.before m x) && !s.engineHolds x

/-- Whether a returning atomic of the slot is still to be performed, so that its later accesses wait (R291). -/
def State.acquiring (s : State) : Bool :=
  s.dev.net.any fun m => m.src == s.party && s.dev.acquires m

/-- Whether an own SPL access of n bytes must wait for an access that the slot has under way (R281, R291), one that `skip`
names left out. -/
def State.pendingBut (s : State) (skip : Msg → Bool) (a n : Nat) : Bool :=
  s.acquiring || s.dev.net.any fun m => m.src == s.party && !m.performed && !skip m && (s.touches m).any (overlap (.spl, a, n))

/-- Whether an own SPL access of n bytes must wait for an access that the slot has under way (R281, R291). -/
def State.ownPending (s : State) (a n : Nat) : Bool := s.pendingBut (fun _ => false) a n

/-- Whether a message is parked because a cell refused it: what clears the cell does not wait for it (R218; log 26). -/
def Dev.refusedBy (d : Dev) (cell : Nat) (m : Msg) : Bool :=
  m.stage == .parked && d.refs.any fun e => e.msg == m.id && e.what == .cell cell

/-- A message by its number. -/
def Dev.msg (d : Dev) (n : Nat) : Option Msg := d.net.find? fun m => m.id == n

/-- A message changed. -/
def Dev.updMsg (d : Dev) (n : Nat) (f : Msg → Msg) : Dev :=
  { d with net := d.net.map fun m => if m.id = n then f m else m }

/-- A message gone. -/
def Dev.dropMsg (d : Dev) (n : Nat) : Dev := { d with net := d.net.filter fun m => m.id != n }

/-- An error response recorded (R226): the first in %rfault and %rfaddr, a later one in MORE. -/
def Sprs.recordError (r : Sprs) (code : Byte) (kind : Nat) (addr : U64) : Sprs :=
  if r.rfault.getLsbD 63 then { r with rfault := r.rfault ||| (1#64 <<< 62) }
  else { r with rfault := (r.rfault &&& (1#64 <<< 62)) ||| BitVec.ofNat 64 (2 ^ 63 + code.toNat * 256 + kind), rfaddr := addr }

end Sys2Proof.Machine
end

