-- ==== Sys2Proof/Machine/MemLocal.lean ====
section
/-! DEFINITION. The local scratchpad: loads and stores (R210..R212, R214, R215, R219), presence tags (R216, R220), and the
tables and control store that are loaded from it (R204, R268). -/
namespace Sys2Proof.Machine

/-! ### Sizes and data (R105, R212, R214) -/

/-- A loaded scalar extended to 64 bits (R105). -/
def szExtend (sz : U3) (x : Nat) : U64 :=
  match sz.toNat with
  | 1 => (BitVec.ofNat 32 x).signExtend 64
  | 3 => (BitVec.ofNat 16 x).signExtend 64
  | 5 => (BitVec.ofNat 8 x).signExtend 64
  | _ => BitVec.ofNat 64 x

/-- The bytes of a load's destination form. -/
def ldBytes : LdDst → Nat
  | .narrow sz _ => szBytes sz
  | .vec _ _ _ => 256
  | .mom _ => 512

/-- The alignment of an access to a scratchpad or a RAW page (R210). -/
def ldAlign : LdDst → Nat
  | .narrow sz _ => szBytes sz
  | _ => 32

/-- A load's result from its bytes (R212, R81). -/
def ldResult (d : LdDst) (bs : List Byte) : Res :=
  match d with
  | .narrow sz d => .g d (szExtend sz (leNat bs)) true
  | .vec d _ _ => .v d (BitVec.ofNat 2048 (leNat bs)) (BitVec.allOnes 64)
  | .mom r => .m r (BitVec.ofNat 4096 (leNat bs)) (BitVec.allOnes 64)

/-- The result of a load that writes nothing (R27). -/
def ldNone : LdDst → Res
  | .narrow _ d => .g d 0 false
  | .vec d _ _ => .v d 0 0
  | .mom r => .m r 0 0

/-- The bytes a store writes (R214). -/
def State.storeBytes (s : State) : StSrc → List Byte
  | .narrow sz x => leBytes (szBytes sz) (s.src x).toNat
  | .vec x _ _ => leBytes 256 (s.vsrc x).toNat
  | .mom r => leBytes 512 (s.msrc r).toNat

/-- The number of bytes a store writes. -/
def stBytes : StSrc → Nat
  | .narrow sz _ => szBytes sz
  | .vec _ _ _ => 256
  | .mom _ => 512

/-- The alignment of a store to a scratchpad or a RAW page (R210). -/
def stAlign : StSrc → Nat
  | .narrow sz _ => szBytes sz
  | _ => 32

/-- Alignment, then the bounds of the scratchpad or half (R210). -/
def State.splCheck (s : State) (a : U64) (align n : Nat) : Except Stop Unit :=
  if a.toNat % align ≠ 0 then .error (.trap 0x10 a)
  else if s.splSize < a.toNat + n then .error (.trap 0x12 a)
  else .ok ()

/-- Whether n bytes lie within one cell (R217). -/
def inCell (off n : Nat) : Bool := off / 1024 == (off + n - 1) / 1024

/-! ### Loads -/

/-- A load of the executing bundle. -/
def State.loadAt (s : State) (id units : Nat) (ph : Phase) : Load := ⟨id, units, s.me.iss.bpc, ph, none⟩

/-- A load that lands lat bundles on (R212). -/
def State.issueLoad (s : State) (lat : Nat) (r : Res) (l : Option Load) : State :=
  { s with me := s.me.push { rem := lat, noq := false, slot := s.me.iss.slot, stat := 0, res := r, load := l } }

/-- An SPL load that faults at its landing bundle (R210, R53). -/
def State.failLoad (s : State) (d : LdDst) (code : Byte) (a : U64) : State :=
  s.issueLoad 4 (ldNone d) (some (s.loadAt 0 0 (.failed code a)))

/-- An SPL load performed at issue (R49, R212, R219): its faults fall at its landing; a byte that a queued drain or an
own access under way is still to write holds it (R186, R281), but a write that the cell has refused does not hold the load
that clears the cell (log 26); WAIT holds it until the cell is FULL, and CONS clears the
cell with the read. -/
def State.loadSpl (s : State) (d : LdDst) (a : U64) (wait cons : Bool) : State :=
  let n := ldBytes d
  let p := s.place
  match s.splCheck a (ldAlign d) n with
  | .error (.trap code info) => s.failLoad d code info
  | .error .hold => s.hold
  | .ok () =>
    if (wait || cons) && !inCell a.toNat n then s.failLoad d 0x10 a
    else if s.me.drainPending a.toNat n ||
        s.pendingBut (fun m => cons && s.dev.refusedBy (p.cell a.toNat) m) (p.at a.toNat) n then s.hold
    else if wait && s.dev.badTags.contains (p.cell a.toNat) then
      runAct (fun s0 => do
        Act.logBad p.phys 3 (arrayWord 3 (p.first + a.toNat)) (s0.me.bound.elim 0 (·.job)))
        (s.failLoad d 0x40 a)
    else if wait && !(s.mems.tag (p.cell a.toNat)).full then s.hold
    else if (s.dev.failing .spl (p.at a.toNat) n).isSome then
      runAct (fun s0 => do
        Act.logBad p.phys 2 (arrayWord 2 (p.first + a.toNat)) (s0.me.bound.elim 0 (·.job)))
        (s.failLoad d 0x40 a)
    else
      runAct (fun _ => do
        Act.readCorrected .spl (p.at a.toNat) n
        if cons then Act.consume p a.toNat)
        (s.issueLoad 4 (ldResult d (s.mems.read .spl (p.at a.toNat) n)) none)

/-- LD_SPL_SM (R211, R212). -/
def execLdSplSm (d : Dst) (a : Src) (disp : Disp) (sz p : U3) (s : State) : Out :=
  .next (if s.pred p then
      s.loadSpl (.narrow sz d) (s.src a + disp.val * BitVec.ofNat 64 (szBytes sz)) false false
    else s.issueG 4 d p 0 0)

/-- LD_SPL (R211, R219). -/
def execLdSpl (d : LdDst) (a : Src) (wt cons : Bool) (p : U3) (s : State) : Out :=
  .next (if s.pred p then s.loadSpl d (s.src a) wt cons else s.issueLoad 4 (ldNone d) none)

/-! ### Stores -/

/-- The executing slot's store to its own scratchpad (R215, R228). -/
def Act.storeOwn {s0 : State} (p : Place) (off : Nat) (bs : List Byte) : Act s0 Unit := do
  let s ← Act.cur
  Act.correctPart s.core.phys s.me.slot1 .spl (p.at off) bs.length
  Act.write .spl (p.at off) bs

/-- The bytes of an access to the slot's own scratchpad. -/
def State.ownBytes (s : State) (off n : Nat) : List (Space × Nat × Nat) := [(.spl, s.place.at off, n)]

/-- Whether a matrix entry or a copy is still to read bytes that the slot is about to write (R186, R255). -/
def State.readAhead (s : State) (off n : Nat) : Bool :=
  let rs := s.ownBytes off n
  (s.me.mq.any fun e => meets (s.entryIn e) rs) || s.copyHolds s.dev.nextMsg rs

/-- A store to the scratchpad (R215): cause 0x40 at issue when it covers part of a failing word (R427). One to bytes that an
engine is still to read stays at the port until they are read (R186, R255). -/
def State.storeSpl (s : State) (a : U64) (align : Nat) (bs : List Byte) : State :=
  let p := s.place
  let n := bs.length
  s.settleBad 2 (do
    s.splCheck a align n
    if s.me.drainPending a.toNat n || s.ownPending (p.at a.toNat) n then .error .hold
    if (s.dev.partFailing .spl (p.at a.toNat) n).isSome then .error (.trap 0x40 a)) fun _ =>
    if s.readAhead a.toNat n then
      s.send [{ s.blank .own with path := 5, core := s.core.phys, slot1 := s.me.slot1, addr := a.toNat, data := bs, raddr := a }]
    else runAct (fun _ => Act.storeOwn p a.toNat bs) s

/-- ST_SPL_SM (R214, R215). -/
def execStSplSm (x a : Src) (disp : Disp) (sz p : U3) (s : State) : Out :=
  .next (s.when (s.pred p)
    (s.storeSpl (s.src a + disp.val * BitVec.ofNat 64 (szBytes sz)) (szBytes sz)
      (leBytes (szBytes sz) (s.src x).toNat)))

/-- ST_SPL (R214, R215). -/
def execStSpl (x : StSrc) (a : Src) (p : U3) (s : State) : Out :=
  .next (s.when (s.pred p) (s.storeSpl (s.src a) (stAlign x) (s.storeBytes x)))

/-! ### Presence tags (R220) -/

/-- The cell of a tag instruction's address (R220): cause 0x12 beyond the scratchpad, 0x40 for a failing tag word; held behind
a returning atomic (R291). -/
def State.tagCheck (s : State) (a : U64) : Except Stop Nat :=
  if s.splSize ≤ a.toNat then .error (.trap 0x12 a)
  else if s.acquiring then .error .hold
  else if s.dev.badTags.contains (s.place.cell a.toNat) then .error (.trap 0x40 a)
  else .ok (s.place.cell a.toNat)

/-- The tag after `parm` (R220). -/
def Tag.arm (t : Tag) (x : BitVec 11) : Tag := { t with exp := x, full := t.full || (x.toNat ≤ t.count.toNat) }

/-- PARM (R220). -/
def execParm (a b : Src) (p : U3) (s : State) : Out :=
  .next (s.when (s.pred p) (
    let x := (s.src b).extractLsb' 0 11
    s.settleBad 3 (do
      let c ← s.tagCheck (s.src a)
      if x.toNat = 0 ∨ 1024 < x.toNat then .error (.trap 0x12 (s.src a))
      return c) fun c => runAct (fun s0 => Act.tag c ((s0.mems.tag c).arm x)) s))

/-- PREL (R220). -/
def execPrel (a : Src) (p : U3) (s : State) : Out :=
  .next (s.when (s.pred p) (s.settleBad 3 (s.tagCheck (s.src a)) fun _ =>
    runAct (fun _ => Act.consume s.place (s.src a).toNat) s))

/-- PFILL (R220). -/
def execPfill (a : Src) (p : U3) (s : State) : Out :=
  .next (s.when (s.pred p) (s.settleBad 3 (s.tagCheck (s.src a)) fun c =>
    runAct (fun s0 => Act.tag c (s0.mems.tag c).fill) s))

/-- The word of `pget` (R220). -/
def State.tagWord (s : State) (c : Nat) : U64 :=
  let t := s.mems.tag c
  let listed := s.dev.refs.any fun e => e.phys == s.core.phys && e.what == .cell c
  BitVec.ofNat 64 (t.count.toNat + t.exp.toNat * 2 ^ 16 + (if t.full then 2 ^ 32 else 0) + if listed then 2 ^ 33 else 0)

/-- PGET (R220). -/
def execPget (d : Dst) (a : Src) (p : U3) (s : State) : Out :=
  .next (if s.pred p then s.settleBad 3 (s.tagCheck (s.src a)) fun c => s.issueG 4 d p (s.tagWord c) 0
    else s.issueG 4 d p 0 0)

/-! ### Tables (R204, R205) -/

/-- Whether a reload of a table would need a third generation (R205): with the reloads on their way counted, the new one and
the one before it are kept, and a queued entry or an outstanding load holds an older one. -/
def State.generationsHeld (s : State) (t : Nat) : Bool :=
  let coming := (s.me.tabq ++ s.sib.tabq).countP fun l => l.t == t
  let old (b : Tables) := b.gens.toList.getD t 0 < s.core.tabs.gens.toList.getD t 0 + coming
  let entries := (s.me.mq ++ s.sib.mq).filter fun e => match e.op with | .ins _ => true | .xfer _ _ => false
  let loads := s.dev.net.filterMap fun m => match m.kind with
    | .load r => if m.src == .slot s.core.phys false || m.src == .slot s.core.phys true then some r.tabs else none
    | _ => none
  entries.any (fun e => old e.tabs) || loads.any old

/-- A table load (R204): the entries are read at issue and take effect four bundles on. -/
def State.loadTable (s : State) (t : Nat) (a : Src) (imm : Imm9) (n : Nat) (typ : U16) (each : Nat) (p : U3) : State :=
  if isS s.core.phys then s.trapWord 0x01
  else
    s.when (s.pred p) (
      let x := s.src a + imm.val
      s.settleBad 2 (do
        s.splCheck x 16 n
        if s.me.drainPending x.toNat n || s.ownPending (s.place.at x.toNat) n then .error .hold
        if (s.dev.failing .spl (s.place.at x.toNat) n).isSome then .error (.trap 0x40 x)
        if s.generationsHeld t then .error .hold) fun _ =>
        let r := s.correct .spl (s.place.at x.toNat) n
        { r with me := { r.me with tabq := s.me.tabq ++
            [⟨4, t, typ, Vector.ofFn fun e : Fin 16 =>
              BitVec.ofNat 16 (s.mems.nat .spl (s.place.at (x.toNat + each * e.val)) each)⟩] } })

/-- CBLD_BF16 (R204). -/
def execCbldBf16 (t : U4) (a : Src) (imm : Imm9) (p : U3) (s : State) : Out :=
  .next (s.loadTable t.toNat a imm 32 0 2 p)
/-- CBLD_E4M3 (R204). -/
def execCbldE4m3 (t : U4) (a : Src) (imm : Imm9) (p : U3) (s : State) : Out :=
  .next (s.loadTable t.toNat a imm 16 1 1 p)
/-- SCLD (R204). -/
def execScld (a : Src) (imm : Imm9) (p : U3) (s : State) : Out := .next (s.loadTable 16 a imm 32 0 2 p)

/-! ### The control store (R267, R268) -/

/-- Whether a control-store entry has a reserved bit set (R267). -/
def badEntry (e : Nat) : Bool := e / 2 ^ 112 ≠ 0 || e / 2 ^ 72 % 16 ≠ 0 || e / 2 ^ 32 % 2 ^ 32 ≠ 0

/-- MCLD (R268). -/
def execMcld (a b : Src) (p : U3) (s : State) : Out :=
  .next (s.when (s.pred p) (
    let x := s.src a
    let first := bitsOf (s.src b) 9 0
    let n := bitsOf (s.src b) 26 16
    let entry (i : Nat) := s.mems.nat .spl (s.place.at (x.toNat + 16 * i)) 16
    s.settleBad 2 (do
      if x.toNat % 16 ≠ 0 then .error (.trap 0x10 x)
      if n = 0 ∨ 1024 < n ∨ 1024 < first + n ∨ s.splSize < x.toNat + 16 * n then .error (.trap 0x12 x)
      if s.me.drainPending x.toNat (16 * n) || s.ownPending (s.place.at x.toNat) (16 * n) then .error .hold
      if (s.dev.failing .spl (s.place.at x.toNat) (16 * n)).isSome then .error (.trap 0x40 x)
      if (List.range n).any fun i => badEntry (entry i) then .error (.trap 0x02 (s.me.iss.word.zeroExtend 64))) fun _ =>
      runAct (fun s0 => do
        Act.readCorrected .spl (s.place.at x.toNat) (16 * n)
        Act.each (List.range n) fun i => Act.ctl (s0.core.phys * 1024 + first + i) (BitVec.ofNat 128 (entry i))
        Act.dev fun d => d.entriesReplaced s0.core.phys first n) s))

end Sys2Proof.Machine
end

