-- ==== Sys2Proof/Machine/MemRemote.lean ====
section
/-! DEFINITION. Accesses beyond the local scratchpad as they issue: the cluster network (R208), pod writes (R221..R224),
HBM and host memory (R210..R215) and atomics (R237, R240). What the ports do with them later stands in Fabric. -/
namespace Sys2Proof.Machine

/-! ### Timed loads (R50, R51, R211) -/

/-- The 32-byte units of landing store that a load takes (R51). -/
def ldUnits (d : LdDst) : Nat := (ldBytes d + 31) / 32

/-- Every load that holds a tag or store of the slot (R51, R151). -/
def Thread.loads (t : Thread) : List Load :=
  let f (es : List Infl) := es.filterMap (·.load)
  (f t.infl ++ f t.iss.fresh ++ (t.f0.elim [] fun x => f x.infl) ++ (t.f1.elim [] fun x => f x.infl) ++
    t.orphans).filter fun l => l.units ≠ 0

/-- Whether a landing tag and n units of landing store are free (R16, R51, R56). -/
def State.tagsFree (s : State) (n : Nat) : Bool :=
  let share := if s.core.rsplit then 2 else 1
  (s.me.loads.length + 1) * share ≤ 1024 && ((s.me.loads.map (·.units)).foldl (· + ·) 0 + n) * share ≤ 4096

/-- The slot with one more landing entry whose data is outstanding (R50, R51). -/
def State.awaitLoad (s : State) (lat units : Nat) (r : Res) (a : U64) : State :=
  let t := s.issueLoad lat r (some { s.loadAt s.me.loadId units .waiting with addr := some a })
  { t with me := { t.me with loadId := t.me.loadId + 1 } }

/-- The shape of a load's request. -/
def State.loadReq (s : State) (d : LdDst) (space : Nat) (a : U64) : LoadReq :=
  let f := match d with | .narrow sz _ => (sz, false, 0, false) | .vec _ t u => (7, false, t, u) | .mom _ => (7, true, 0, false)
  { id := s.me.loadId, space := space, addr := a, sz := f.1, wide := f.2.1, t := f.2.2.1, u := f.2.2.2
    need := [], got := [], priv := s.me.priv, tabs := s.core.tabs }

/-- The translations that the TLBs hold at issue, the pages that miss, and the device with the walks of those requested
(R210, R397). -/
def State.lookups (s : State) : List Nat → List (Nat × PageRes) × List Nat × Dev
  | [] => ([], [], s.dev)
  | va :: vas =>
    let r := State.lookups s vas
    match r.2.2.find s.core.phys s.ctx va with
    | some (p, d) => ((va, .leaf p) :: r.1, r.2.1, d)
    | none => (r.1, va :: r.2.1, r.2.2.request (clusterOf s.core.phys) s.ctx s.me.root va s.me.part [])

/-- The pages that a load looks up as it issues (R210): the one that it begins on, and the others that its bytes would lie on
unless elements are decoded there, whose places follow from the formats. -/
def State.loadPages (s : State) (d : LdDst) (a : Nat) : List Nat :=
  let known := match d with
    | .vec _ _ _ => (s.lookups [pageBase a]).1.any fun g => match g.2 with | .leaf p => pteFmt p.word == 0 | .fail _ => false
    | _ => true
  if known then (pagesOf a (ldBytes d)).filter (· < 2 ^ 48) else [pageBase a]

/-- A load from HBM or host memory (R210, R211, R213): it takes its tag and goes on its way; every fault falls at its
landing bundle. -/
def State.loadFar (s : State) (d : LdDst) (space n : Nat) (a : U64) : State :=
  if !s.tagsFree (ldUnits d) then s.hold
  else if a.extractLsb' 48 16 ≠ 0 then
    s.issueLoad n (ldNone d) (some (s.loadAt 0 (ldUnits d) (.failed 0x11 a)))
  else
    let l := s.lookups (s.loadPages d a.toNat)
    let r := { s.loadReq d space a with got := l.1, need := l.2.1 }
    let t := { s with dev := l.2.2 }
    (t.send [{ t.blank (.load r) with raddr := a }]).awaitLoad n (ldUnits d) (ldResult d []) a

/-- Whether a cluster access names bytes of the slot's own scratchpad that a queued drain is still to write (R186). -/
def State.drainAt (s : State) (p : Place) (off n : Nat) : Bool := p == s.place && s.me.drainPending off n

/-- A load through the cluster network (R208, R212, R368): of bytes that a queued drain of the slot is still to write, held
at issue (R186). -/
def State.loadSpk (s : State) (d : LdDst) (n : Nat) (a : U64) : State :=
  if !s.tagsFree (ldUnits d) then s.hold
  else
    let fail (code : Byte) (info : U64) := s.issueLoad n (ldNone d) (some (s.loadAt 0 (ldUnits d) (.failed code info)))
    if a.toNat % ldAlign d ≠ 0 then fail 0x10 a
    else
      match s.spkCheck a (ldBytes d) with
      | .error (.trap code info) => fail code info
      | .error .hold => s.hold
      | .ok p =>
        if s.drainAt p (podOff a) (ldBytes d) then s.hold
        else (s.send [{ s.blank (.load (s.loadReq d 1 a)) with
            core := p.phys, slot1 := p.slot1, addr := podOff a, raddr := a }]).awaitLoad n (ldUnits d) (ldResult d []) a

/-- A timed load under a false predicate (R27, R212): its landing entry takes no tag and no store, and its data is there. -/
def State.suppressLoad (s : State) (n : Nat) (r : Res) : State := s.issueLoad n r (some (s.loadAt 0 0 .ready))

/-- LD_SPK (R211, R212). -/
def execLdSpk (d : LdDst) (a : Src) (n : Byte) (p : U3) (s : State) : Out :=
  .next (if s.pred p then s.loadSpk d n.toNat (s.src a) else s.suppressLoad n.toNat (ldNone d))
/-- LD_HBM (R211, R213). -/
def execLdHbm (d : LdDst) (a : Src) (n : Byte) (p : U3) (s : State) : Out :=
  .next (if s.pred p then s.loadFar d 3 n.toNat (s.src a) else s.suppressLoad n.toNat (ldNone d))
/-- LD_HST (R211, R213). -/
def execLdHst (d : LdDst) (a : Src) (n : Byte) (p : U3) (s : State) : Out :=
  .next (if s.pred p then s.loadFar d 4 n.toNat (s.src a) else s.suppressLoad n.toNat (ldNone d))

/-! ### Stores to the cluster and the pod (R208, R221..R224) -/

/-- The alignment of a write and, tagged, its lying within one cell (R210, R217). The order of the causes of one access
is log 25's. -/
def alignCheck (a : U64) (align n : Nat) (tag : Bool) : Except Stop Unit :=
  if a.toNat % align ≠ 0 ∨ (tag ∧ !inCell (podOff a) n) then .error (.trap 0x10 a) else .ok ()

/-- n writes held while their path has no room for them (R307). -/
def State.pathCheck (s : State) (path n : Nat) : Except Stop Unit := if s.pathFull path n then .error .hold else .ok ()

/-- ST_SPK (R208, R214, R215). -/
def execStSpk (x : StSrc) (a : Src) (tag : Bool) (p : U3) (s : State) : Out :=
  .next (s.when (s.pred p) (
    let ad := s.src a
    s.settle (do
      alignCheck ad (stAlign x) (stBytes x) false
      let q ← s.spkCheck ad (stBytes x)
      alignCheck ad (stAlign x) (stBytes x) tag
      s.pathCheck 3 1
      if s.drainAt q (podOff ad) (stBytes x) then .error .hold
      return q) fun q =>
      s.send [{ s.blank .spk with path := 3, core := q.phys, slot1 := q.slot1, addr := podOff ad, tag := tag
                                  data := s.storeBytes x, rkind := 0, raddr := ad }]))

/-- A pod write of the slot (R221, R296). -/
def State.podMsg (s : State) (k : PodKind) (tier : U2) (a : U64) (tag : Bool) (bs : List Byte) (rkind : Nat) : Msg :=
  { s.blank (.pod k) with path := tier.toNat, dev := podDev a, core := podCore a, addr := podOff a, tag := tag
                          data := bs, rkind := rkind, raddr := a }

/-- PUT_SPP (R221, R222). -/
def execPutSpp (x : StSrc) (a : Src) (tier : U2) (tag : Bool) (p : U3) (s : State) : Out :=
  .next (s.when (s.pred p) (
    let ad := s.src a
    s.settle (do
      s.podCheck ad
      alignCheck ad (stAlign x) (stBytes x) tag
      s.pathCheck tier.toNat 1) fun _ => s.send [s.podMsg .put tier ad tag (s.storeBytes x) 1]))

/-- PUTF_SPP (R222): the payload, then the flag on the same pair and tier. -/
def execPutfSpp (x : StSrc) (a : Src) (fg : U5) (tier : U2) (tag : Bool) (p : U3) (s : State) : Out :=
  .next (s.when (s.pred p) (
    let ad := s.src a
    let fl := s.me.regs.readG fg
    s.settle (do
      s.podCheck ad
      alignCheck ad (stAlign x) (stBytes x) tag
      if bitsOf fl 63 46 ≠ bitsOf ad 63 46 ∨ bitsOf fl 45 20 ≠ 0 then .error (.trap 0x12 fl)
      if fl.toNat % 4 ≠ 0 then .error (.trap 0x10 fl)
      s.pathCheck tier.toNat 2) fun _ =>
      s.send [s.podMsg .put tier ad tag (s.storeBytes x) 2, s.podMsg .flag tier fl false [] 2]))

/-- RADD_SPP (R222). -/
def execRaddSpp (x a : Src) (tier : U2) (p : U3) (s : State) : Out :=
  .next (s.when (s.pred p) (
    let ad := s.src a
    s.settle (do
      s.podCheck ad
      alignCheck ad 4 4 false
      s.pathCheck tier.toNat 1) fun _ => s.send [s.podMsg .radd tier ad false (leBytes 4 (s.src x).toNat) 3]))

/-- The rows of an `rcopy` (R222): count, row length, first source byte, and the strides. -/
structure Rcopy where
  rows : Nat
  len : Nat
  soff : Nat
  sstr : Nat
  dstr : Nat
  deriving DecidableEq, Repr

/-- The descriptor that `rcopy` reads from its register pair (R222). -/
def rcopyOf (lo hi : U64) : Rcopy :=
  ⟨bitsOf lo 41 30 + 1, bitsOf lo 29 20 + 1, bitsOf lo 19 0, bitsOf hi 19 0, bitsOf hi 39 20⟩

/-- The checks of an `rcopy` (R222). DESIGN CHOICE (log 84): the information word of each is the destination pod address. -/
def State.rcopyCheck (s : State) (lo hi ad : U64) (tag : Bool) (r : Rcopy) : Except Stop Unit :=
  if bitsOf lo 63 42 ≠ 0 ∨ bitsOf hi 63 40 ≠ 0 then .error (.trap 0x12 ad)
  else if s.splSize < r.soff + (r.rows - 1) * r.sstr + r.len then .error (.trap 0x12 ad)
  else if 2 ^ 20 < podOff ad + (r.rows - 1) * r.dstr + r.len then .error (.trap 0x12 ad)
  else if r.soff % 4 ≠ 0 ∨ r.sstr % 4 ≠ 0 ∨ r.dstr % 4 ≠ 0 ∨ r.len % 4 ≠ 0 ∨ podOff ad % 4 ≠ 0 then
    .error (.trap 0x10 ad)
  else if tag ∧ (List.range r.rows).any (fun i => !inCell (podOff ad + i * r.dstr) r.len) then .error (.trap 0x10 ad)
  else .ok ()

/-- RCOPY_SPP (R222): its rows in ascending order; a row with a failing word is not sent, but recorded and logged. The rows that
its path has no room for are read with the others and hold the slot until they are sent (R307; log 67). -/
def execRcopySpp (x : U5) (a : Src) (tier : U2) (tag : Bool) (p : U3) (s : State) : Out :=
  .next (s.when (s.pred p) (
    let ad := s.src a
    let lo := s.me.regs.readG x
    let hi := s.me.regs.readG (x + 1)
    let r := rcopyOf lo hi
    let src (i : Nat) := r.soff + i * r.sstr
    let dst (i : Nat) := ad + BitVec.ofNat 64 (i * r.dstr)
    s.settle (do
      s.podCheck ad
      s.rcopyCheck lo hi ad tag r
      if (List.range r.rows).any fun i =>
          s.me.drainPending (src i) r.len || s.ownPending (s.place.at (src i)) r.len then .error .hold) fun _ =>
      runAct (fun _ => Act.each (List.range r.rows) fun i => do
        if (s.dev.failing .spl (s.place.at (src i)) r.len).isSome then do
          Act.me fun t => { t with sp := t.sp.recordError 0x40 4 (dst i) }
          Act.logBad s.core.phys 2 (BitVec.ofNat 64 (2 ^ 63 + 2 * 2 ^ 59 + s.place.first + src i))
            (s.me.bound.elim 0 (·.job))
        else do
          Act.readCorrected .spl (s.place.at (src i)) r.len
          Act.dev fun d => d.post { s.podMsg .put tier (dst i) tag (s.mems.read .spl (s.place.at (src i)) r.len) 4 with
            stage := d.roomStage s.party s.ctx tier.toNat }) s))

/-- Whether a row of the slot's is still to be sent for want of room, so that the slot is held under WAIT (R307; log 67). -/
def State.rowsUnsent (s : State) : Bool := s.dev.net.any fun m => m.src == s.party && m.ctx == s.ctx && m.stage == .unsent

/-- PUT_PHM (R209, R223). -/
def execPutPhm (x : StSrc) (a : Src) (tier : U2) (p : U3) (s : State) : Out :=
  .next (s.when (s.pred p) (
    let ad := s.src a
    s.settle (do
      if bitsOf ad 53 48 ≠ 0 then .error (.trap 0x12 ad)
      alignCheck ad (stAlign x) (stBytes x) false
      s.pathCheck tier.toNat 1) fun _ =>
      s.send [{ s.podMsg .phm tier ad false (s.storeBytes x) 5 with addr := bitsOf ad 47 0 }]))

/-! ### Stores to HBM and host memory (R210, R214, R215) -/

/-- The source element type of a converting store or the destination of a converting load (R213). -/
def convType (t : U3) (u : Bool) : Nat := if t = 7 && u then 8 else t.toNat

/-- An element encoded into a page format (R79): round to nearest even and saturate. -/
def encodeElem (et fmt bits : Nat) : Nat :=
  let v := elemValue et bits
  let d := fmtET fmt
  if d ≤ 4 then (froundV (fmtOf d) 0 true 0 v).bits else (realToInt d 0 0 v).bits

/-- The alignment of an access through a page (R210): a converting access only that of the page's elements. -/
def farAlign (align fmt : Nat) : Nat := if fmt = 0 then align else Nat.max 1 (fmtNibbles fmt / 2)

/-- Whether a store through a page with this entry raises cause 0x12 (R79, R215): a block-scaled or CB4 page, and any format but
RAW for a source that is no `.v` vector. -/
def storeBarred (x : StSrc) (e : U64) : Bool :=
  pteFmt e == 8 || pteBgeo e != 0 || (pteFmt e != 0 && match x with | .vec _ _ _ => false | _ => true)

/-- Element i of a `.v` store as its page takes it (R79, R215): unchanged on a RAW page, else encoded. -/
def storedElem (x : Vec) (et fmt i : Nat) : List Byte :=
  let w := etWidth et
  if fmt = 0 then leBytes (w / 8) (velem x w i) else leBytes (fmtNibbles fmt / 2) (encodeElem et fmt (velem x w i))

/-- What a store through some translated pages comes to: its pieces, a cause, or the address of a page to translate. -/
inductive StorePlan where
  | pieces (ps : List (Bool × Nat × List Byte))
  | cause (code : Byte)
  | page (va : Nat)
  deriving DecidableEq, Repr

/-- Pieces of a store, one put before those that follow it: with the first of them when it goes on where this one ends. -/
def joinPiece (x : Bool × Nat × List Byte) : List (Bool × Nat × List Byte) → List (Bool × Nat × List Byte)
  | y :: ys => if x.1 = y.1 ∧ x.2.1 + x.2.2.length = y.2.1 then (x.1, x.2.1, x.2.2 ++ y.2.2) :: ys else x :: y :: ys
  | [] => [x]

/-- A `.v` store's elements from number i at a virtual address on, each through the entry of the page on which it falls (R79,
R215; log 74). -/
def storeElems (x : StSrc) (v : Vec) (et : Nat) (ps : List Pte) : Nat → Nat → Nat → StorePlan
  | 0, _, _ => .pieces []
  | n + 1, i, va =>
    match ps.find? fun p => p.va ≤ va && va < p.va + p.size with
    | none => .page va
    | some p =>
      if storeBarred x p.word then .cause 0x12
      else
        let bs := storedElem v et (pteFmt p.word) i
        match storeElems x v et ps n (i + 1) (va + bs.length) with
        | .pieces l => .pieces (joinPiece (pteHost p.word, p.phys va, bs) l)
        | o => o

/-- A store's bytes through some translated pages (R79, R215). -/
def State.storePlan (s : State) (x : StSrc) (ps : List Pte) (a : Nat) : StorePlan :=
  match x with
  | .vec v t u =>
    let et := convType t u
    storeElems x (s.vsrc v) et ps (2048 / etWidth et) 0 a
  | _ =>
    let bs := s.storeBytes x
    match (pagesOf a bs.length).find? fun va => !ps.any fun p => p.va ≤ va && va < p.va + p.size with
    | some va => .page va
    | none => if ps.any fun p => storeBarred x p.word then .cause 0x12 else .pieces (cutBytes (piecesOf ps a 64 bs.length) bs)

/-- The store sent, its pages being known (R215). -/
def State.sendFar (s : State) (host : Bool) (a : U64) (ps : List (Bool × Nat × List Byte)) : State :=
  s.send [{ s.blank (if host then .hst else .hbm) with pieces := ps, rkind := 7, raddr := a }]

/-- A store to HBM or host memory (R210, R215): translated at issue; of the page on which it begins the permissions, the format
and the alignment are checked in that order (log 25), and then those of a page that it runs on to. -/
def State.storeFar (s : State) (x : StSrc) (host : Bool) (a : U64) : State :=
  s.withPages a 1 (some host) fun t ps =>
    match ps with
    | [] => t.trap 0x11 a
    | p :: _ =>
      if storeBarred x p.word then t.trap 0x12 a
      else if a.toNat % farAlign (stAlign x) (pteFmt p.word) ≠ 0 then t.trap 0x10 a
      else
        match t.storePlan x ps a.toNat with
        | .pieces l => t.sendFar host a l
        | .cause code => t.trap code a
        | .page va =>
          t.withPages a (va + 1 - a.toNat) (some host) fun u qs =>
            match u.storePlan x qs a.toNat with
            | .pieces l => u.sendFar host a l
            | .cause code => u.trap code a
            | .page _ => u.trap 0x11 a

/-- ST_HBM (R214, R215). -/
def execStHbm (x : StSrc) (a : Src) (p : U3) (s : State) : Out :=
  .next (s.when (s.pred p) (s.storeFar x false (s.src a)))
/-- ST_HST (R214, R215). -/
def execStHst (x : StSrc) (a : Src) (p : U3) (s : State) : Out :=
  .next (s.when (s.pred p) (s.storeFar x true (s.src a)))

/-! ### Atomics (R237, R240) -/

/-- The second register of `.cas` (R237): `g` S + 1. -/
def State.casNew (s : State) : Src → U64
  | .g r => s.me.regs.readG (r + 1)
  | x => s.src x

/-- An atomic that accesses memory (R210, R237, R240). -/
def State.amoFar (s : State) (x a : Src) (n : Byte) (w : Bool) (scope : U3) (aop : U4) : State :=
  let ad := s.src a
  s.withPages ad 1 none fun t ps =>
    match ps with
    | [] => t.trap 0x11 ad
    | p :: _ =>
      if ad.toNat % (if w then 4 else 8) ≠ 0 then t.trap 0x10 ad
      else if pteFmt p.word ≠ 0 then t.trap 0x12 ad
      else if pteHost p.word ∧ (n ≠ 0 ∨ 3 < aop.toNat) then t.trap 0x15 ad
      else if n ≠ 0 ∧ !t.tagsFree 1 then t.hold
      else
        let r : AmoReq := { aop := aop.toNat, word := w, scope := scope.toNat, x := t.src x, y := t.casNew x, ret := n != 0
                            id := t.me.loadId, host := pteHost p.word, pa := p.phys ad.toNat, done := false, old := 0
                            mis := false }
        let u := t.send [{ t.blank (.amo r) with rkind := 8, raddr := ad }]
        if n ≠ 0 then u.awaitLoad n.toNat 1 (.g .tr 0 true) ad else u

/-- ARMED cleared (R240). -/
def State.disarm (s : State) : State :=
  { s with me := { s.me with sp := { s.me.sp with aemuc := s.me.sp.aemuc &&& ~~~ 1#64 } } }

/-- AMO (R237, R240): at user level with ARMED set, the atomic clears ARMED, and at the recorded bundle it takes its
result from %aemu instead of memory. -/
def execAmo (x a : Src) (n : Byte) (w : Bool) (scope : U3) (aop : U4) (p : U3) (s : State) : Out :=
  .next (if s.pred p then
      if !s.me.priv && s.me.sp.aemuc.getLsbD 0 then
        if s.me.sp.aemuc.extractLsb' 4 60 = s.me.iss.bpc then
          if n ≠ 0 then s.disarm.issueLoad n.toNat (.g .tr s.me.sp.aemu true) (some (s.loadAt 0 0 .ready)) else s.disarm
        else
          let t := s.amoFar x a n w scope aop
          if t.me.iss.res = .issued then t.disarm else t
      else s.amoFar x a n w scope aop
    else if n ≠ 0 then s.suppressLoad n.toNat (.g .tr 0 false) else s)

end Sys2Proof.Machine
end

