-- ==== Sys2Proof/Machine/Sync.lean ====
section
/-! DEFINITION. Waiting and synchronisation (R227..R236, R241): flags, barrier objects, queue regions and fences. -/
namespace Sys2Proof.Machine

/-! ### Reported errors and held conditions -/

/-- An error response that is recorded makes a waiting instruction trap instead of completing (R227). -/
def State.reported (s : State) : Except Stop Unit :=
  if s.me.sp.rfault.getLsbD 63 then .error (.trap (s.me.sp.rfault.extractLsb' 8 8) s.me.sp.rfaddr) else .ok ()

/-- The value of %wstat (R230). -/
def wstatOf (value : U32) (outcome : Nat) : U64 := BitVec.ofNat 64 (value.toNat * 256 + outcome)

/-- %wstat written with L = 1 (R230). -/
def State.issueWstat (s : State) (value : U32) (outcome : Nat) : State :=
  s.issue 1 (.spr 0x011 0 (wstatOf value outcome) (BitVec.allOnes 64)) 0

/-- A bundle held on a condition, which every write to the watched bytes evaluates from now on (R228). -/
def State.watchFor (s : State) (key : Nat) (c : Await) : State :=
  let t := s.hold
  if t.me.watch.any fun w => w.key == key && w.cond == c then t
  else { t with me := { t.me with watch := some ⟨key, c, none⟩ } }

/-- What the first evaluation that held saw (R228): one made by a write while the bundle was held, else the one made
now. -/
def State.outcome (s : State) (key : Nat) (c : Await) : Option (U32 × Nat) :=
  match s.me.watch with
  | some w => if w.key = key ∧ w.cond = c ∧ w.hit.isSome then w.hit else c.holds s.mems key
  | none => c.holds s.mems key

/-- A wait on memory (R227, R228): it issues at the first evaluation that holds. -/
def State.await (s : State) (a : U64) (align n : Nat) (c : Await) : State :=
  let key := s.place.at a.toNat
  s.settleBad 2 (do
    s.splCheck a align n
    if s.me.drainPending a.toNat n || s.ownPending key n then .error .hold
    if (s.dev.failing .spl key n).isSome then .error (.trap 0x40 a)) fun _ =>
    match s.outcome key c with
    | none => s.watchFor key c
    | some v => s.settle s.reported fun _ => (s.correct .spl key n).issueWstat v.1 v.2

/-- FWAIT (R229). -/
def execFwait (a b : Src) (p : U3) (s : State) : Out :=
  .next (s.when (s.pred p) (s.await (s.src a) 4 4 (.ge (lo32 (s.src b)))))
/-- FWAITNE (R229). -/
def execFwaitne (a b : Src) (p : U3) (s : State) : Out :=
  .next (s.when (s.pred p) (s.await (s.src a) 4 4 (.ne (lo32 (s.src b)))))

/-! ### Barrier objects (R231, R232) -/

/-- A barrier object rewritten as one port operation (R232); its bytes keep R186, R255, R281 and R427 as a store does, with the
bundle held while an engine is still to read them (log 68). -/
def State.barrier (s : State) (a : U64) (f : Nat → Nat) : State :=
  let key := s.place.at a.toNat
  s.settleBad 2 (do
    s.splCheck a 8 8
    if s.me.drainPending a.toNat 8 || s.ownPending key 8 || s.readAhead a.toNat 8 then .error .hold
    if (s.dev.failing .spl key 8).isSome then .error (.trap 0x40 a)) fun _ =>
    runAct (fun _ => do
      Act.readCorrected .spl key 8
      Act.storeOwn s.place a.toNat (leBytes 8 (f (s.mems.nat .spl key 8)))) s

/-- BINIT (R232). -/
def execBinit (a b : Src) (p : U3) (s : State) : Out :=
  .next (s.when (s.pred p) (s.barrier (s.src a) fun _ => bitsOf (s.src b) 30 0 * 2 ^ 32))
/-- BARRIVE (R232). -/
def execBarrive (a : Src) (p : U3) (s : State) : Out :=
  .next (s.when (s.pred p) (s.barrier (s.src a) fun x => x / 2 ^ 32 * 2 ^ 32 + (x + 1) % 2 ^ 32))
/-- BWAIT (R232). -/
def execBwait (a : Src) (p : U3) (s : State) : Out := .next (s.when (s.pred p) (s.await (s.src a) 8 8 .barrier))
/-- BINVAL (R232). -/
def execBinval (a : Src) (p : U3) (s : State) : Out :=
  .next (s.when (s.pred p) (s.barrier (s.src a) fun x => x % 2 ^ 63 + 2 ^ 63))

/-! ### Queue regions (R233..R235) -/

/-- The pointers of a region as %qptr holds them (R233). -/
def QRegion.ptr (q : QRegion) : U64 := BitVec.ofNat 64 (q.full * 2 ^ 32 + q.pop * 2 ^ 16 + q.head)

/-- The pointers of region n replaced. -/
def Sprs.setRegion (r : Sprs) (n : Nat) (q : QRegion) : Sprs :=
  if h : n < 16 then { r with qptr := r.qptr.set n q.ptr } else r

/-- The first byte of the next entry to fill (R234). -/
def QRegion.next (q : QRegion) : Nat := q.base + (q.head + q.pop + q.full) % q.cap * q.entry

/-- QPUT (R234): one entry read at issue and sent to a region. -/
def execQput (a b : Src) (n : U4) (esz : U3) (tier : U2) (p : U3) (s : State) : Out :=
  .next (s.when (s.pred p) (
    let ad := s.src a
    let b := s.src b
    let sz := 16 * 2 ^ esz.toNat
    let key := s.place.at b.toNat
    s.settleBad 2 (do
      s.podCheck ad
      s.splCheck b 16 sz
      s.pathCheck tier.toNat 1
      if s.me.drainPending b.toNat sz || s.ownPending key sz then .error .hold
      if (s.dev.failing .spl key sz).isSome then .error (.trap 0x40 b)) fun _ =>
      (s.correct .spl key sz).send [{ s.podMsg .qput tier ad false (s.mems.read .spl key sz) 6 with region := n.toNat, esz := esz.toNat }]))

/-- Cause 0x12 for a region that is not enabled (R235), and 0x40 for pointers that fail (R426; log 20); they are a location that
a returning atomic orders (R277, R291). -/
def State.regionCheck (s : State) (n : U4) : Except Stop QRegion :=
  let q := s.me.sp.region n.toNat
  if !q.en then .error (.trap 0x12 (n.zeroExtend 64))
  else if s.acquiring then .error .hold
  else if s.dev.badTags.contains (regionKey (slotNo s.core.phys s.me.slot1) n.toNat) then .error (.trap 0x40 (arrayWord 3 n.toNat))
  else .ok q

/-- An effect on a region's pointers that its check may stop; pointers that fail write their log record (R426). -/
def State.settleRegion (s : State) (n : U4) (f : QRegion → State) : State :=
  match s.regionCheck n with
  | .error (.trap 0x40 info) => runAct (fun _ => Act.logBad s.core.phys 3 info (s.me.bound.elim 0 (·.job))) (s.trap 0x40 info)
  | c => s.settle c f

/-- QPOP (R235). -/
def execQpop (d : Dst) (n : U4) (nw : Bool) (p : U3) (s : State) : Out :=
  .next (if s.pred p then
      s.settleRegion n fun q =>
        if q.full = 0 then
          if nw then (s.issueWstat 0 2).issueG 2 d p (BitVec.allOnes 64) 0 else s.hold
        else
          let t := { s with me := { s.me with
            sp := s.me.sp.setRegion n.toNat { q with pop := q.pop + 1, full := q.full - 1 } } }
          (t.issueWstat (BitVec.ofNat 32 (q.full - 1)) 0).issueG 2 d p
            (BitVec.ofNat 64 (q.base + (q.head + q.pop) % q.cap * q.entry)) 0
    else s.issueG 2 d p 0 0)

/-- QDONE (R235): the oldest popped entry is done, and the region's refused writes are released (R218). -/
def execQdone (n : U4) (p : U3) (s : State) : Out :=
  .next (s.when (s.pred p) (s.settleRegion n fun q =>
    s.when (0 < q.pop)
      { s with
        me := { s.me with sp := s.me.sp.setRegion n.toNat { q with head := (q.head + 1) % q.cap, pop := q.pop - 1 } }
        dev := s.dev.release fun e => e.phys == s.core.phys && e.what == .region s.me.slot1 n.toNat }))

/-! ### Fences (R241) -/

/-- Whether a write of the slot's context lies within the scope of a fence (R241): for a group, the device and every
device of the named group. -/
def State.fenced (s : State) (scope : Nat) (grp : List Nat) (m : Msg) : Bool :=
  m.src == s.party && m.ctx == s.ctx && m.isWrite && m.owner == 0 &&
    match scope with
    | 3 => s.within 2 m.src m || (match m.kind with | .pod _ => grp.contains m.dev | _ => false)
    | _ => s.within scope m.src m

/-- FENCE (R227, R241). -/
def execFence (scope : U4) (grp : Byte) (p : U3) (s : State) : Out :=
  .next (s.when (s.pred p) (
    let g := (s.myJob.bind fun j => j.groups[grp.toNat]?)
    s.settle (do
      if scope = 3 ∧ (g.isNone ∨ 63 < grp.toNat) then .error (.trap 0x12 (grp.zeroExtend 64))
      if s.dev.net.any (s.fenced scope.toNat (g.getD [])) then .error .hold
      s.reported) fun _ => s))

end Sys2Proof.Machine
end

