-- ==== Sys2Proof/Machine/CopyEng.lean ====
section
/-! DEFINITION. The copy engine (R243..R256): the instructions that append transfers and chains, and the steps in which a
channel moves a row, reads a chain record and completes. -/
namespace Sys2Proof.Machine

/-- A channel of a cluster; one that nothing has used is idle (R275). -/
def Dev.chan (d : Dev) (cl ch : Nat) : Channel :=
  (d.chans.find? fun c => c.cl == cl && c.ch == ch).getD ⟨cl, ch, 0, false, []⟩

/-- A channel replaced. -/
def Dev.setChan (d : Dev) (c : Channel) : Dev :=
  { d with chans := c :: d.chans.filter fun x => !(x.cl == c.cl && x.ch == c.ch) }

/-- A transfer's identifier sequence (R253): the smallest incomplete identifier of a context on a channel, or its
NEXTID. -/
def State.cdone (s : State) (n : Nat) : U64 :=
  match (s.dev.chan (clusterOf s.core.phys) n).q.find? fun t => t.who.ctx == s.ctx with
  | some t => BitVec.ofNat 64 t.id
  | none => s.me.nextId.toList.getD n 1

/-! ### The checks of R246 -/

/-- A space as the checks take it: a scratchpad place for SPL and SPK. -/
def State.spacePlace (s : State) (sp : Nat) (a : U64) (n : Nat) : Except Stop Unit :=
  if sp = 0 then (if s.splSize < a.toNat + n then .error (.trap 0x12 a) else .ok ())
  else if sp = 1 then (s.spkCheck a n).map fun _ => ()
  else .ok ()

/-- The checks of a copy in their order, after R106 (R246). DESIGN CHOICE (log 99): a row offset carries out where the row's end
does. -/
def State.copyCheck (s : State) (sh : U128) (sa da : U64) (tag : Bool) (tier : Nat) (follow : Bool) (n : Nat) :
    Except Stop Unit := do
  let ssp := xsf sh 7
  let dsp := xsf sh 8
  let last := rowCount sh - 1
  let word := s.me.iss.word.zeroExtend 64
  if 6 ≤ ssp ∨ 6 ≤ dsp ∨ (tier ≠ 0 ∧ dsp ≠ 2 ∧ dsp ≠ 5) ∨ (tag ∧ 3 ≤ dsp) then .error (.trap 0x02 word)
  if follow ∧ isS s.core.phys then .error (.trap 0x01 word)
  if follow ∧ 1 < dsp then .error (.trap 0x02 word)
  if ssp = 2 ∨ ssp = 5 then .error (.trap 0x12 sa)
  if !s.me.sp.cmask.getLsbD n then .error (.trap 0x12 (BitVec.ofNat 64 n))
  s.spacePlace ssp sa (rowSrc sh last + rowLen sh)
  s.spacePlace dsp da (rowDst sh last + rowLen sh)
  if dsp = 2 ∧ (2 ^ 20 < podOff da + rowDst sh last + rowLen sh ∨ bitsOf da 45 20 ≠ 0) then .error (.trap 0x12 da)
  if dsp = 5 ∧ (2 ^ 48 < bitsOf da 47 0 + rowDst sh last + rowLen sh ∨ bitsOf da 53 48 ≠ 0) then .error (.trap 0x12 da)
  if (dsp = 2 ∨ dsp = 5) ∧ !s.devValid (podDev da) then .error (.trap 0x12 da)
  if tag ∧ (List.range (rowCount sh)).any (fun r => !inCell (podOff da + rowDst sh r) (rowLen sh)) then
    .error (.trap 0x10 da)

/-- The live and shadow copy shapes exchanged when the swap bit is set (R40). -/
def Regs.swapXs (r : Regs) (i : U2) (sw : Bool) : Regs :=
  if sw then { r with xsL := r.xsL.set i.toNat r.xsS[i.toNat] i.isLt, xsS := r.xsS.set i.toNat r.xsL[i.toNat] i.isLt }
  else r

/-- A binding for a slot that has none, so that engine work can name its issuer. -/
def Thread.who (t : Thread) : Bound := t.bound.getD ⟨0, 0, 0, 0, 0, 0, 0, 0, 0, 0, 0⟩

/-- A transfer or chain appended to a channel under the context's next identifier (R246, R251). -/
def State.appendTransfer (s : State) (n : Nat) (t : Transfer) : State :=
  let cl := clusterOf s.core.phys
  let id := (s.me.nextId.toList.getD n 1)
  let tr := { t with id := id.toNat, serial := s.dev.serial + 1, who := s.me.who, phys := s.core.phys,
                     slot1 := s.me.slot1, mark := s.dev.nextMsg }
  let c := s.dev.chan cl n
  { s with
    me := { s.me with
      nextId := if h : n < 16 then s.me.nextId.set n (id + 1) else s.me.nextId
      follows := if t.follow then s.me.follows ++ [(cl * 16 + n, s.dev.serial + 1)] else s.me.follows }
    dev := { s.dev with serial := s.dev.serial + 1 }.setChan { c with q := c.q ++ [tr] } }

/-- A transfer with nothing in it. -/
def Transfer.blank : Transfer :=
  ⟨0, 0, ⟨0, 0, 0, 0, 0, 0, 0, 0, 0, 0, 0⟩, 0, false, 0, 0, 0, false, 0, false, false, 0, 0, 0, true, 0, 0⟩

/-- COPY (R246). -/
def execCopy (x : U2) (sw : Bool) (a : U5) (d : Dst) (n : U4) (tier : U2) (tag follow : Bool) (p : U3) (s : State) :
    Out :=
  .next (if s.pred p then
      let sh := (s.me.regs.swapXs x sw).xsL[x.toNat]
      let sa := s.me.regs.readG a
      let da := s.me.regs.readG (a + 1)
      s.settle (s.copyCheck sh sa da tag tier.toNat follow n.toNat) fun _ =>
        let id := s.me.nextId[n.toNat]
        let t := s.appendTransfer n.toNat
          { Transfer.blank with shape := sh, sa := sa, da := da, tag := tag, tier := tier.toNat, follow := follow }
        { t with me := { t.me with regs := t.me.regs.swapXs x sw } }.issueG 1 d p id 0
    else s.issueG 1 d p 0 0)

/-- CCHAIN (R251). DESIGN CHOICE (log 86): the channel is checked before the address. -/
def execCchain (d : Dst) (a : Src) (n : U4) (p : U3) (s : State) : Out :=
  .next (if s.pred p then
      s.settle (do
        if !s.me.sp.cmask.getLsbD n.toNat then .error (.trap 0x12 (n.zeroExtend 64))
        if (s.src a).toNat % 64 ≠ 0 then .error (.trap 0x10 (s.src a))) fun _ =>
        let id := s.me.nextId[n.toNat]
        (s.appendTransfer n.toNat { Transfer.blank with chain := true, rows := false, next := s.src a }).issueG 1 d p id 0
    else s.issueG 1 d p 0 0)

/-- CWAIT (R227, R254). -/
def execCwait (n : U4) (b : Src) (p : U3) (s : State) : Out :=
  .next (s.when (s.pred p) (s.settle (do
    if !s.me.sp.cmask.getLsbD n.toNat then .error (.trap 0x12 (n.zeroExtend 64))
    if !(s.src b).ult (s.cdone n.toNat) then .error .hold
    s.reported) fun _ => s))

/-! ### What an engine does for a context -/

/-- The context that engine work belongs to, where it is now: bound to its slot, or suspended (R366). -/
def Act.ofContext {s0 : State} (phys : Nat) (slot1 : Bool) (ctx : Nat) (f : Thread → Thread) : Act s0 Unit := do
  let s ← Act.cur
  if (s.threadAt phys slot1).any fun t => t.bound.any fun b => b.ctx == ctx then Act.thread phys slot1 f
  else Act.dev fun d => { d with ctxs := d.ctxs.map fun c => if c.id = ctx then { c with thread := f c.thread, written := false } else c }

/-- An error response recorded with the context that issued the access (R226, R249, R366). -/
def Act.report {s0 : State} (phys : Nat) (slot1 : Bool) (ctx : Nat) (code : Byte) (kind : Nat) (addr : U64) :
    Act s0 Unit := do
  Act.dev fun d => d.countEv 22 (clusterOf phys) 1
  Act.ofContext phys slot1 ctx fun t => { t with sp := t.sp.recordError code kind addr }

/-- The slot state of a context, bound or suspended. -/
def State.contextThread (s : State) (phys : Nat) (slot1 : Bool) (ctx : Nat) : Option Thread :=
  match s.threadAt phys slot1 with
  | some t => if t.bound.any fun b => b.ctx == ctx then some t else (s.dev.ctxs.find? fun c => c.id == ctx).map (·.thread)
  | none => (s.dev.ctxs.find? fun c => c.id == ctx).map (·.thread)

/-- An engine's translation of one page (R247, R397): a leaf that allows the access, a cause, or a miss. -/
inductive EngPage where
  | leaf (p : Pte)
  | deny (code : Byte)
  | miss
  deriving DecidableEq, Repr

/-- An engine's translation through the cluster TLB, at user level (log 28). -/
def State.engPage (s : State) (cl ctx : Nat) (who : Party) (va : Nat) (write : Bool) (host : Option Bool) : EngPage :=
  if 2 ^ 48 ≤ va then .deny 0x11
  else
    match s.dev.walked.find? fun w => w.who == who && w.va == pageBase va with
    | some w => .deny w.code
    | none =>
      match s.dev.clusterHit cl ctx va with
      | some p => match p.denies ⟨false, write, false, host⟩ with
        | some c => .deny c
        | none => .leaf p
      | none => .miss

/-- The pages of an engine's access: every leaf, the first cause, or the first page that misses. -/
def State.engPages (s : State) (cl ctx : Nat) (who : Party) (write : Bool) (host : Option Bool) :
    List Nat → Except (Option Byte × Nat) (List Pte)
  | [] => .ok []
  | va :: vas =>
    match s.engPage cl ctx who va write host with
    | .leaf p => (s.engPages cl ctx who write host vas).map (p :: ·)
    | .deny c => .error (some c, va)
    | .miss => .error (none, va)

/-- A walk that an engine requests for a context (R397). -/
def Act.engWalk {s0 : State} (cl : Nat) (t : Thread) (who : Party) (va : Nat) : Act s0 Unit :=
  Act.dev fun d => d.request cl (bitsOf t.cx.ctxid 15 0) t.root va t.part [(who, false)]

/-- The failed walks that an engine has seen. -/
def Act.engSeen {s0 : State} (who : Party) : Act s0 Unit :=
  Act.dev fun d => { d with walked := d.walked.filter fun w => w.who != who }

/-- Bytes of memory pieces. -/
def Mems.pieces (m : Mems) (ps : List (Bool × Nat × Nat)) : List Byte :=
  ps.flatMap fun p => m.read (if p.1 then .host else .hbm) p.2.1 p.2.2

/-- Whether a piece of memory meets a failing word, or one of host memory a completion that is poisoned (R427). -/
def Dev.piecesFail (d : Dev) (ps : List (Bool × Nat × Nat)) : Bool :=
  ps.any fun p => (d.failing (if p.1 then .host else .hbm) p.2.1 p.2.2).isSome

/-! ### What a save still needs (R366) -/

/-- Whether an entry holds a table generation no longer current (R184, R205, R366). -/
def State.staleEntry (s : State) (e : MqEntry) : Bool :=
  match e.op with
  | .ins _ => e.tabs.gens != s.core.tabs.gens
  | .xfer _ _ => false

/-- The writes of the slot that an engine may hold back (R186, R255). -/
def State.ownWrites (s : State) : List Msg :=
  s.dev.net.filter fun m => m.src == s.party && m.ctx == s.ctx && m.isWrite && !m.performed

/-- Whether an entry keeps a write of the slot from being performed (R186). -/
def State.entryHolds (s : State) (e : MqEntry) : Bool :=
  s.ownWrites.any fun m => e.mark ≤ m.id && meets (s.entryIn e ++ s.entryOut e) (s.touches m)

/-- How many entries of the queue a suspension runs to completion (R366): the executing one, and every one up to the last
with an old table generation; an entry that holds back a write of the slot goes with them, since a gemma has no place for
the write (log 69). -/
def State.mandatory (s : State) : Nat :=
  s.me.mq.zipIdx.foldl (fun (n : Nat) p => if p.1.started || s.staleEntry p.1 || s.entryHolds p.1 then p.2 + 1 else n) 0

/-- Whether a save must wait for a transfer of the slot (R256, R366): an entry that runs to completion follows it, or it holds
back a write of the slot (log 69). -/
def State.saveNeeds (s : State) (t : Transfer) : Bool :=
  ((s.me.mq.take s.mandatory).any fun e => e.follow.any fun f => f.2 == t.serial) ||
    s.ownWrites.any fun m => t.mark ≤ m.id && meets (s.copyIn t) (s.touches m)

/-- Whether a channel may go on with its head (R366): a slot that is being saved starts no record but of a transfer that the
save needs, or of one ahead of it on the channel. -/
def State.copyOpen (s : State) (c : Channel) : Bool :=
  match c.q with
  | [] => false
  | t :: _ =>
    match s.asSlot t.phys t.slot1 with
    | some u =>
      match u.me.run with
      | .saving _ => u.ctx != t.who.ctx || c.q.any fun x => x.who.ctx == t.who.ctx && u.saveNeeds x
      | _ => true
    | none => true

/-! ### Records (R247..R250, R322, R325) -/

/-- What stops a record of a channel: energy or tokens park it (R250, R322, R325, R404). -/
def State.copyParked (s : State) (c : Channel) (t : Transfer) : Bool :=
  (s.dev.net.any fun m => m.src == .channel c.cl c.ch && m.stage == .tokens) ||
    match s.dev.part t.who.part with
    | some p =>
      let bal := ((p.bal.find? fun x => x.1 == c.cl).map (·.2)).getD p.sched.cap
      let extra := match p.reserve with
        | some (cl, cand) => if cl = c.cl then
            (match cand with
              | .fresh g n => ((p.graphs.find? fun x => x.serial == g).bind fun x => x.nodes[n]?).elim 0 fun n =>
                  p.sched.charge.toList.getD ((n.bytes.getD 4 0).toNat % 8) 0
              | .saved ctx => ((s.dev.ctxs.find? fun x => x.id == ctx).bind fun x =>
                  (p.graphs.find? fun g => g.serial == x.bound.graph).bind fun g => g.nodes[x.bound.node]?).elim 0 fun n =>
                    p.sched.charge.toList.getD ((n.bytes.getD 4 0).toNat % 8) 0)
            else 0
        | none => 0
      bal < p.sched.copychg + extra
    | none => false

/-- COPYCHG charged to a cluster (R322). -/
def Part.charge (p : Part) (cl n : Nat) : Part :=
  { p with bal := (cl, ((p.bal.find? fun x => x.1 == cl).map (·.2)).getD p.sched.cap - n) ::
      p.bal.filter fun x => x.1 != cl }

/-- A copy record that starts on a cluster is charged and counted (R322, R445). -/
def Dev.chargeRecord (d : Dev) (part cl : Nat) : Dev :=
  ((d.updPart part fun p => p.charge cl p.sched.copychg).countEv 23 cl 1).countEv 30 cl
    ((d.part part).elim 0 fun p => p.sched.copychg)

/-- A message of a channel for a row. -/
def Transfer.msg (t : Transfer) (s : State) (cl ch : Nat) (kind : MsgKind) (bs : List Byte) (addr : U64) : Msg :=
  { s.blank kind with src := .channel cl ch, ctx := t.who.ctx, job := t.who.job, part := t.who.part,
                      srcDev := (s.dev.job t.who.job).elim 0 (·.self), data := bs, tag := t.tag, rkind := 9,
                      raddr := addr, owner := t.serial }

/-- A row's bytes cut into writes of at most 1024 bytes (R247). -/
def chunks (bs : List Byte) : List (Nat × List Byte) :=
  (List.range ((bs.length + 1023) / 1024)).map fun i => (1024 * i, (bs.drop (1024 * i)).take 1024)

/-- Where the bytes of a row's source are, or what keeps it from being read: a cause, or a page to walk. -/
def State.rowSource (s : State) (t : Transfer) (cl ch : Nat) : Except (Option Byte × Nat) (List (Space × Nat × Nat)) :=
  let n := rowLen t.shape
  let so := rowSrc t.shape t.row
  let sp := xsf t.shape 7
  if sp ≤ 1 then
    match s.copyPlace t sp t.sa with
    | some (p, off) => .ok [(.spl, p.at (off + so), n)]
    | none => .error (some 0x41, 0)
  else
    let va := t.sa.toNat + so
    match s.engPages cl t.who.ctx (.channel cl ch) false (some (sp == 4)) (pagesOf va n) with
    | .error (some c, _) => .error (some (if c = 0x40 then 0x40 else 0x41), 0)
    | .error (none, w) => .error (none, w)
    | .ok ps => .ok ((piecesOf ps va 64 n).map fun x => (if x.1 then .host else .hbm, x.2.1, x.2.2))

/-- The array and the ADDR of the log record of a failing word of a row's source (R428, R431), and the core whose array it is: a
scratchpad's array form, or the virtual address of the row. A walk that fails has written its own record. -/
def State.rowBad (s : State) (t : Transfer) (cl ch : Nat) : Option (Nat × Nat × U64) :=
  match s.rowSource t cl ch with
  | .error _ => none
  | .ok rs => rs.findSome? fun x => (s.dev.failing x.1 x.2.1 x.2.2).map fun a =>
      if x.1 = .spl then (a / 2 ^ 20, 2, arrayWord 2 (a % 2 ^ 20))
      else (t.phys, arrayOf x.1, t.sa + BitVec.ofNat 64 (rowSrc t.shape t.row))

/-- The bytes of a row's source: cause 0x40 where a word of it fails (R427). -/
def State.rowBytes (s : State) (t : Transfer) (cl ch : Nat) : Except (Option Byte × Nat) (List Byte) :=
  match s.rowSource t cl ch with
  | .error e => .error e
  | .ok rs =>
    if rs.any fun x => (s.dev.failing x.1 x.2.1 x.2.2).isSome then .error (some 0x40, 0)
    else .ok (rs.flatMap fun x => s.mems.read x.1 x.2.1 x.2.2)

/-- The messages of a row once its bytes are read (R247): none when its destination must be walked first. -/
def State.rowMsgs (s : State) (t : Transfer) (cl ch : Nat) (bs : List Byte) : Except (Option Byte × Nat) (List Msg) :=
  let d := rowDst t.shape t.row
  let addr := t.da + BitVec.ofNat 64 d
  match xsf t.shape 8 with
  | 0 => .ok [{ t.msg s cl ch .spk bs addr with path := 3, core := t.phys, slot1 := t.slot1, addr := t.da.toNat + d }]
  | 1 =>
    let cidx := bitsOf t.da 23 20
    .ok [{ t.msg s cl ch .spk bs addr with
      path := 3, core := 5 * cl + cidx / 2, slot1 := cidx % 2 == 1, addr := podOff t.da + d }]
  | 2 => .ok ((chunks bs).map fun c =>
      { t.msg s cl ch (.pod .put) c.2 addr with
        path := t.tier, dev := podDev t.da, core := podCore t.da, addr := podOff t.da + d + c.1 })
  | 5 => .ok ((chunks bs).map fun c =>
      { t.msg s cl ch (.pod .phm) c.2 addr with
        path := t.tier, dev := podDev t.da, addr := bitsOf t.da 47 0 + d + c.1, tag := false })
  | sp =>
    let va := t.da.toNat + d
    match s.engPages cl t.who.ctx (.channel cl ch) true (some (sp == 4)) (pagesOf va bs.length) with
    | .error (some c, _) => .error (some (if c = 0x40 then 0x40 else 0x41), 0)
    | .error (none, w) => .error (none, w)
    | .ok ps => .ok [{ t.msg s cl ch (if sp = 4 then .hst else .hbm) [] addr with
        pieces := cutBytes (piecesOf ps va 64 bs.length) bs }]

/-- Whether a channel's read of bytes must wait (R255, R281): for an access that the issuer sent before the transfer, or for an
earlier access of the channel itself, to one of them. -/
def State.sourceBusy (s : State) (t : Transfer) (cl ch : Nat) (rs : List (Space × Nat × Nat)) : Bool :=
  s.dev.net.any fun m => m.isWrite && !m.performed && ((m.src == .slot t.phys t.slot1 && m.id < t.mark) || m.src == .channel cl ch) &&
    meets (s.touches m) rs

/-- Whether the next row's source bytes, as far as they are translated, must wait: also while those of a cluster address are those
of a context that is suspended (R368). -/
def State.copySourceBusy (s : State) (t : Transfer) (cl ch : Nat) : Bool :=
  (xsf t.shape 7 == 1 && (s.copyPlace t 1 t.sa).any fun p => s.spkHeld p.1.phys p.1.slot1 t.who.job) ||
    match s.rowSource t cl ch with
    | .ok rs => s.sourceBusy t cl ch rs
    | .error _ => false

/-- The path on which a transfer writes (R282): its tier, or the cluster network. -/
def Transfer.path (t : Transfer) : Nat := match xsf t.shape 8 with | 2 | 5 => t.tier | 0 | 1 => 3 | _ => 4

/-- The writes that a row of a transfer is sent as (R247). -/
def Transfer.rowWrites (t : Transfer) : Nat := match xsf t.shape 8 with | 2 | 5 => (rowLen t.shape + 1023) / 1024 | _ => 1

/-- The channel that a copy engine has served takes its turn last from now on (R245). -/
def Dev.served (d : Dev) (cl ch : Nat) : Dev := { d with turns := (cl, ch) :: d.turns.filter fun x => x.1 != cl }

/-- The head transfer with its next row sent, or passed over (R249). -/
def Act.nextRow {s0 : State} (cl ch : Nat) : Act s0 Unit :=
  Act.dev fun d =>
    let c := d.chan cl ch
    d.setChan { c with parked := false, q := match c.q with | t :: ts => { t with row := t.row + 1 } :: ts | [] => [] }

/-- Whether the channel can start its next record (R247..R250). -/
def State.copyReady (s : State) (cl ch : Nat) : Bool :=
  let c := s.dev.chan cl ch
  match c.q with
  | t :: _ => t.rows && t.row < rowCount t.shape && s.copyOpen c && !s.copySourceBusy t cl ch &&
      !(s.dev.net.any fun m => m.src == .channel cl ch && (m.stage == .parked || m.stage == .released)) &&
      (t.path = 4 || s.dev.unanswered (.channel cl ch) t.who.ctx t.path + t.rowWrites ≤ 256)
  | [] => false

/-- Whether a channel can start its next record and is not parked, or no longer. -/
def State.copyGoes (s : State) (cl ch : Nat) : Bool :=
  let c := s.dev.chan cl ch
  s.copyReady cl ch && !(c.parked && match c.q with | t :: _ => s.copyParked c t | [] => true)

/-- The channel of a cluster whose turn it is (R245): the first one behind the last one served that can go on. -/
def State.copyTurn (s : State) (cl : Nat) : Option Nat :=
  let last := ((s.dev.turns.find? fun x => x.1 == cl).map (·.2)).getD 15
  ((List.range 16).map fun i => (last + 1 + i) % 16).find? (s.copyGoes cl)

/-- COPY_RECORD (R247..R250, R322): the next row of a channel's head transfer is read and sent. It parks without energy
or tokens; a page that misses is walked first; a row that fails is recorded and passed over. -/
def execCopyRecord (cl ch : Nat) (s : State) : Out :=
  .next (s.when (s.copyReady cl ch) (
    let c := s.dev.chan cl ch
    match c.q with
    | [] => s
    | t :: _ =>
      if s.copyParked c t then { s with dev := (s.dev.setChan { c with parked := true }).served cl ch }
      else
        let who := Party.channel cl ch
        let addr := t.da + BitVec.ofNat 64 (rowDst t.shape t.row)
        match (s.rowBytes t cl ch).bind fun bs => s.rowMsgs t cl ch bs with
        | .ok ms =>
          runAct (fun _ => do
            Act.correctFor t.phys t.slot1 (match s.rowSource t cl ch with | .ok rs => rs | .error _ => [])
            Act.dev fun d => ((d.chargeRecord t.who.part cl).served cl ch).postAll ms
            Act.engSeen who
            Act.nextRow cl ch) s
        | .error (some code, _) =>
          runAct (fun _ => do
            Act.dev fun d => (d.chargeRecord t.who.part cl).served cl ch
            Act.report t.phys t.slot1 t.who.ctx code 9 addr
            match s.rowBad t cl ch with
            | some b => Act.logBad b.1 b.2.1 b.2.2 t.who.job
            | none => Act.done
            Act.engSeen who
            Act.nextRow cl ch) s
        | .error (none, va) =>
          match s.contextThread t.phys t.slot1 t.who.ctx with
          | some th => runAct (fun _ => do
              Act.engWalk cl th who va
              Act.dev fun d => d.served cl ch) s
          | none => s))

/-! ### Completion and chains (R249, R252) -/

/-- The head of a channel taken off its queue, with STOP as a chain leaves it. -/
def Act.popTransfer {s0 : State} (cl ch : Nat) (stop : Option U64) : Act s0 Unit :=
  Act.dev fun d =>
    let c := d.chan cl ch
    d.setChan { c with q := c.q.drop 1, stop := stop.getD c.stop, parked := false }

/-- The head of a channel changed. -/
def Act.updTransfer {s0 : State} (cl ch : Nat) (f : Transfer → Transfer) : Act s0 Unit :=
  Act.dev fun d =>
    let c := d.chan cl ch
    d.setChan { c with q := match c.q with | t :: ts => f t :: ts | [] => [] }

/-- Whether every row of the head transfer has been sent and answered (R249). -/
def State.copyDone (s : State) (cl ch : Nat) : Bool :=
  match (s.dev.chan cl ch).q with
  | t :: _ => t.rows && rowCount t.shape ≤ t.row && !(s.dev.net.any fun m => m.owner == t.serial)
  | [] => false

/-- A chain record's bytes by the page that holds it (R252): its piece, a cause, or a page to walk. -/
def State.chainPiece (s : State) (t : Transfer) (cl ch : Nat) (p : U64) (write : Bool) :
    Except (Option Byte × Nat) (Bool × Nat) :=
  match s.engPage cl t.who.ctx (.channel cl ch) p.toNat write none with
  | .leaf e => if pteFmt e.word ≠ 0 then .error (some 0x41, 0) else .ok (pteHost e.word, e.phys p.toNat)
  | .deny c => .error (some (if c = 0x40 then 0x40 else 0x41), 0)
  | .miss => .error (none, p.toNat)

/-- A chain that stops at a record with an error (R252); `bad`: a word of the record itself fails, which is logged (R426). -/
def Act.failChain {s0 : State} (t : Transfer) (cl ch : Nat) (code : Byte) (bad : Bool) (p : U64) : Act s0 Unit := do
  Act.report t.phys t.slot1 t.who.ctx code 9 p
  if bad then Act.logBad t.phys 12 p t.who.job
  Act.engSeen (.channel cl ch)
  Act.popTransfer cl ch (some p)

/-- The device once the write of a record's FLAGS has its token (R404): none while it waits, and no token for device memory. -/
def State.payOwn (s : State) (t : Transfer) (cl ch : Nat) (host : Bool) : Option Dev :=
  let m := t.msg s cl ch (if host then .hst else .hbm) [] t.here
  if host && s.dev.tokenQueue m then none else s.dev.pay m

/-- COPY_TRANSFER_COMPLETE (R249, R252, R253): a transfer whose rows are all answered completes; a chain record gives
its OWN bit back, and the chain goes on or ends. One whose page refuses the write, or whose word fails, stops it (R427;
log 96). The write to a host page takes its token first (R404). -/
def execCopyTransferComplete (cl ch : Nat) (s : State) : Out :=
  .next (s.when (s.copyDone cl ch) (
    match (s.dev.chan cl ch).q with
    | [] => s
    | t :: _ =>
      if !t.chain then runAct (fun _ => Act.popTransfer cl ch none) s
      else
        match s.chainPiece t cl ch t.here true with
        | .ok (host, pa) =>
          let sp := if host then Space.host else .hbm
          if (s.dev.partFailing sp (pa + 40) 1).isSome then runAct (fun _ => Act.failChain t cl ch 0x40 true t.here) s
          else match s.payOwn t cl ch host with
          | none => { s with dev := s.dev.setChan { s.dev.chan cl ch with parked := true } }
          | some d2 => runAct (fun _ => do
            Act.dev fun _ => { d2 with chans := d2.chans.map fun c => if c.cl = cl ∧ c.ch = ch then { c with parked := false } else c }
            Act.correctPart t.phys t.slot1 sp (pa + 40) 1
            Act.write sp (pa + 40) [t.flags &&& 0xFE]
            Act.engSeen (.channel cl ch)
            if t.next = 0 then Act.popTransfer cl ch (some 0)
            else Act.updTransfer cl ch fun t => { t with rows := false }) s
        | .error (some code, _) => runAct (fun _ => Act.failChain t cl ch code false t.here) s
        | .error (none, va) =>
          match s.contextThread t.phys t.slot1 t.who.ctx with
          | some th => runAct (fun _ => Act.engWalk cl th (.channel cl ch) va) s
          | none => s))

/-- Whether the head of a channel is a chain that is to read its next record, with nothing still to be written to it (R255). -/
def State.chainReady (s : State) (cl ch : Nat) : Bool :=
  match (s.dev.chan cl ch).q with
  | t :: _ => t.chain && !t.rows && s.copyOpen (s.dev.chan cl ch) && match s.chainPiece t cl ch t.next false with
    | .ok (host, pa) => !s.sourceBusy t cl ch [(if host then .host else .hbm, pa, 64)]
    | .error _ => true
  | [] => false

/-- The state as a channel's issuer sees it, for the checks of R246 on a chain record. -/
def State.asIssuer (s : State) (t : Transfer) : State := (s.asSlot t.phys t.slot1).getD s

/-- CHAIN_RECORD_READ (R252): the next record is read in one access; the chain stops at one that is not owned or fails a
check, and else its rows are executed. DESIGN CHOICE (log 100): a NEXT that is not a multiple of 64 fails the record. -/
def execChainRecordRead (cl ch : Nat) (s : State) : Out :=
  .next (s.when (s.chainReady cl ch) (
    match (s.dev.chan cl ch).q with
    | [] => s
    | t :: _ =>
      let p := t.next
      match s.chainPiece t cl ch p false with
      | .ok (host, pa) =>
        let sp := if host then Space.host else .hbm
        let bs := s.mems.read sp pa 64
        let flags : Byte := BitVec.ofNat 8 (bytesAt bs 40 1)
        let sh : U128 := BitVec.ofNat 128 (bytesAt bs 24 16)
        let sa : U64 := BitVec.ofNat 64 (bytesAt bs 8 8)
        let da : U64 := BitVec.ofNat 64 (bytesAt bs 16 8)
        let tier := bitsOf flags 3 2
        let bad := bitsOf flags 7 4 ≠ 0 ∨ bytesAt bs 41 23 ≠ 0 ∨ bytesAt bs 0 8 % 64 ≠ 0 ∨ tier = 3 ∨
          bitsOf sh 127 126 ≠ 0
        let rs := [(sp, pa, 64)]
        if (s.dev.failing sp pa 64).isSome then runAct (fun _ => Act.failChain t cl ch 0x40 true p) s
        else if !flags.getLsbD 0 then
          runAct (fun _ => do Act.correctFor t.phys t.slot1 rs; Act.engSeen (.channel cl ch); Act.popTransfer cl ch (some p)) s
        else if bad then runAct (fun _ => do Act.correctFor t.phys t.slot1 rs; Act.failChain t cl ch 0x41 false p) s
        else
          match (s.asIssuer t).copyCheck sh sa da (flags.getLsbD 1) tier false ch with
          | .error (.trap _ _) => runAct (fun _ => do Act.correctFor t.phys t.slot1 rs; Act.failChain t cl ch 0x41 false p) s
          | .error .hold => s
          | .ok () =>
            runAct (fun _ => do
              Act.correctFor t.phys t.slot1 rs
              Act.engSeen (.channel cl ch)
              Act.updTransfer cl ch fun t =>
                { t with shape := sh, sa := sa, da := da, tag := flags.getLsbD 1, tier := tier, flags := flags, here := p
                         next := BitVec.ofNat 64 (bytesAt bs 0 8), rows := true, row := 0 }) s
      | .error (some code, _) => runAct (fun _ => Act.failChain t cl ch code false p) s
      | .error (none, va) =>
        match s.contextThread t.phys t.slot1 t.who.ctx with
        | some th => runAct (fun _ => Act.engWalk cl th (.channel cl ch) va) s
        | none => s))

end Sys2Proof.Machine
end

