-- ==== Sys2Proof/Machine/SpecialReg.lean ====
section
/-! DEFINITION. The special registers (R43..R48, R134, R146, R242, R275, R361, R408, R440): who may access each, what a
read returns, and what a write does when it lands. -/
namespace Sys2Proof.Machine

/-! ### The map (R45) -/

/-- A special register's word count (0: not indexed), whether user code may read it, and who may write it (0 nobody,
1 supervisor, 2 user). -/
structure SprInfo where
  words : Nat
  userRead : Bool
  write : Nat
  deriving DecidableEq, Repr

/-- The words of `%pdisc` (R372). -/
def pdiscWords (c : Core) : Nat := if isS c.phys then 4 else if c.rsplit then 6 else 12

/-- The registers that stand alone in the map of R45. -/
def sprSingle (c : Core) (n : Nat) : Option SprInfo :=
  match n with
  | 0x000 | 0x002 | 0x003 | 0x011 | 0x013 | 0x014 => some ⟨0, true, 0⟩
  | 0x001 | 0x018 | 0x058 | 0x0D0 => some ⟨0, true, 1⟩
  | 0x008 | 0x010 | 0x012 | 0x033 | 0x038 | 0x039 => some ⟨0, true, 2⟩
  | 0x030 | 0x035 | 0x036 => some ⟨0, false, 1⟩
  | 0x031 => some ⟨if c.rsplit then 16 else 32, false, 1⟩
  | 0x032 | 0x037 => some ⟨0, false, 0⟩
  | 0x034 => some ⟨pdiscWords c, true, 2⟩
  | 0x060 | 0x061 | 0x062 | 0x063 => some ⟨0, true, 0⟩
  | 0x070 | 0x071 | 0x074 | 0x075 | 0x076 | 0x077 | 0x078 => some ⟨0, false, 1⟩
  | 0x072 | 0x073 | 0x079 => some ⟨0, false, 0⟩
  | 0x080 | 0x081 | 0x084 | 0x085 | 0x086 => some ⟨0, true, 2⟩
  | 0x082 | 0x083 => some ⟨0, true, 0⟩
  | 0x0B0 | 0x0B1 | 0x0D8 | 0x0D9 | 0x0E1 | 0x0E8 => some ⟨0, false, 1⟩
  | 0x0E0 => some ⟨0, false, 0⟩
  | 0x0E2 => some ⟨16, false, 0⟩
  | 0x0E9 => some ⟨145, true, 1⟩
  | 0x0EA | 0x0EB => some ⟨296, true, 0⟩
  | _ => none

/-- The map of R45: none for a number that it does not list. -/
def sprInfo (c : Core) (n : Nat) : Option SprInfo :=
  if 0x020 ≤ n ∧ n < 0x030 then some ⟨0, true, 0⟩
  else if 0x040 ≤ n ∧ n < 0x058 then some ⟨0, true, 2⟩
  else if 0x090 ≤ n ∧ n < 0x0B0 then some ⟨0, true, 1⟩
  else if 0x0C0 ≤ n ∧ n < 0x0D0 then some ⟨0, true, 0⟩
  else sprSingle c n

/-! ### Reads -/

/-- Element n of a register array. -/
def elem {k : Nat} (v : Vector U64 k) (n : Nat) : U64 := if h : n < k then v[n] else 0
/-- A register array with element n replaced. -/
def setElem {k : Nat} (v : Vector U64 k) (n : Nat) (x : U64) : Vector U64 k := if h : n < k then v.set n x else v

/-- A number placed at a bit. -/
def field (x lo : Nat) : Nat := x * 2 ^ lo
/-- A flag placed at a bit. -/
def flag (b : Bool) (lo : Nat) : Nat := if b then 2 ^ lo else 0

/-- %coreid (R46). -/
def State.coreId (s : State) : U64 :=
  BitVec.ofNat 64 (flag s.me.slot1 16 + field (s.core.phys % 5) 13 + field (clusterOf s.core.phys) 8 + s.core.phys)

/-- %mode (R47). -/
def State.mode (s : State) : U64 :=
  BitVec.ofNat 64 (flag (isS s.core.phys) 2 + flag s.me.priv 1 + flag s.core.rsplit 0)

/-- Whether an in-flight entry stands in the landing buffer (R51, R212): a timed load that holds store, or one suppressed by its
predicate, which takes none. -/
def Infl.landing (e : Infl) : Bool := e.load.any fun l => l.units != 0 || l.phase == .ready

/-- %rbstat (R147). -/
def Thread.rbstat (t : Thread) : U64 :=
  let f := t.top.elim [] (·.infl)
  let n := f.countP Infl.landing
  BitVec.ofNat 64 (field n 32 + field (f.length - n) 16 + flag t.f1.isSome 3 + flag (t.f0.any (·.tagS)) 1 +
    flag t.f0.isSome 0)

/-- %pctl (R361). -/
def CtxRegs.pctl (c : CtxRegs) : U64 := BitVec.ofNat 64 (field c.left.toNat 8 + flag c.req 1)

/-- %cstat (R275). -/
def Channel.stat (c : Channel) : U64 :=
  BitVec.ofNat 64 (flag (!c.q.isEmpty) 63 + flag c.parked 62 + flag ((c.q.head?).any (·.chain)) 61 +
    field (bitsOf c.stop 47 6) 6)

/-- %elogpos (R440). -/
def State.elogpos (s : State) : U64 :=
  match s.dev.part s.me.part with
  | some p => BitVec.ofNat 64 (field p.logLost 48 + field p.logRd 16 + p.logWr)
  | none => 0

/-- Counter c as a function that holds its bank reads it (R446): 0 for a bank that it does not hold, or a frozen one. -/
def Dev.counter (d : Dev) (fn c : Nat) : U64 :=
  (d.mgmt.banks.find? fun b => b.num == c / 8 && b.holder == some fn && !b.frozen).elim 0 fun b =>
    BitVec.ofNat 64 (b.counts.getD (c % 8) 0)

/-- Counter c as the slot reads it (R446). -/
def State.counter (s : State) (c : Nat) : U64 := s.me.bound.elim 0 fun b => s.dev.counter b.vf c

/-- %ctrhi (R422): the latch when it names the counter, else the live value. -/
def State.counterHi (s : State) (c : Nat) : U64 :=
  if s.me.sp.latch.1 = c then s.me.sp.latch.2.zeroExtend 64 else s.counter c >>> 32

/-- The trap registers by number (R146). -/
def Thread.trapReg (t : Thread) (n : Nat) : U64 :=
  match n with
  | 0x070 => t.trap.scause
  | 0x071 => t.trap.sepc
  | 0x072 => t.trap.sfpc
  | 0x073 => t.trap.sinfo
  | 0x074 => t.trap.svec
  | 0x075 => t.trap.sscratch
  | 0x076 => t.trap.sprev
  | 0x077 => t.trap.slact
  | 0x078 => t.trap.tdeleg
  | 0x079 => t.rbstat
  | 0x080 => t.trap.ucause
  | 0x081 => t.trap.uepc
  | 0x082 => t.trap.ufpc
  | 0x083 => t.trap.uinfo
  | 0x084 => t.trap.uvec
  | 0x085 => t.trap.uscratch
  | _ => t.trap.ulact

/-- A special register as it stands (R134). -/
def State.readSpr (s : State) (n x : Nat) : U64 :=
  if 0x020 ≤ n ∧ n < 0x030 then s.cdone (n - 0x020)
  else if 0x040 ≤ n ∧ n < 0x048 then elem s.me.loop.lcnt (n - 0x040)
  else if 0x048 ≤ n ∧ n < 0x050 then elem s.me.loop.lbeg (n - 0x048)
  else if 0x050 ≤ n ∧ n < 0x058 then elem s.me.loop.lend (n - 0x050)
  else if 0x070 ≤ n ∧ n < 0x090 then s.me.trapReg n
  else if 0x090 ≤ n ∧ n < 0x0A0 then elem s.me.sp.qcfg (n - 0x090)
  else if 0x0A0 ≤ n ∧ n < 0x0B0 then elem s.me.sp.qptr (n - 0x0A0)
  else if 0x0C0 ≤ n ∧ n < 0x0D0 then (s.dev.chan (clusterOf s.core.phys) (n - 0x0C0)).stat
  else match n with
    | 0x000 => s.coreId
    | 0x001 => s.mode
    | 0x002 => s.core.cycle
    | 0x003 => s.me.sp.bundle
    | 0x008 => s.me.sp.stat
    | 0x010 => s.me.sp.mmode
    | 0x011 => s.me.sp.wstat
    | 0x012 => s.me.sp.rfault
    | 0x013 => s.me.sp.rfaddr
    | 0x014 => s.me.sp.qcredit
    | 0x018 => s.me.sp.tcptr
    | 0x030 => s.me.cx.accown
    | 0x031 => elem s.me.cx.accdirty x
    | 0x032 => s.me.cx.ctxid
    | 0x033 => s.me.cx.pctl
    | 0x034 => elem s.me.cx.pdisc x
    | 0x035 => s.me.cx.accbase
    | 0x036 => s.me.cx.accxfer
    | 0x037 => s.me.cx.ptroot
    | 0x038 => s.me.sp.mfault
    | 0x039 => s.me.sp.mecc
    | 0x058 => s.me.loop.lact
    | 0x060 => s.me.mac.mpc
    | 0x061 => s.me.mac.spc
    | 0x062 => s.me.mac.mlc
    | 0x063 => s.me.mac.mlinit
    | 0x0B0 => s.me.sp.aemu
    | 0x0B1 => s.me.sp.aemuc
    | 0x0D0 => s.me.sp.cmask
    | 0x0D8 => s.me.sp.rngs0
    | 0x0D9 => s.me.sp.rngs1
    | 0x0E0 => if s.me.bound.isSome then BitVec.ofNat 64 Config.logVa else 0
    | 0x0E1 => s.elogpos
    | 0x0E2 => elem s.me.sp.eccnt x
    | 0x0E8 => s.me.sp.dstop
    | 0x0E9 => elem s.me.sp.lprof x
    | 0x0EA => s.counter x &&& 0xFFFFFFFF
    | 0x0EB => s.counterHi x
    | _ => 0

/-! ### Checks and the two instructions (R44, R106, R134) -/

/-- The index of an access (R100, R134). -/
def State.sprIndex (s : State) (x : U6) : Nat := (s.src (srcOf x)).toNat

/-- Steps 1 to 3 of R106 for an access: an unlisted number, an index out of range or a write of a read-only register;
then a reserved field; then the privilege. `dst` is a destination field to check, or none for a write. -/
def State.sprCheck (s : State) (n : U11) (x : U6) (e : Byte) (dst : Option U6) : Except Byte Unit :=
  match sprInfo s.core n.toNat with
  | none => .error 0x01
  | some i =>
    if i.words ≠ 0 ∧ i.words ≤ s.sprIndex x then .error 0x01
    else if dst.isNone ∧ i.write = 0 then .error 0x01
    else if (i.words = 0 ∧ x ≠ 0) ∨ e ≠ 0 ∨ dst.any fun d => (ckDst d).isSome then .error 0x02
    else if !s.me.priv ∧ (if dst.isSome then !i.userRead else i.write < 2) then .error 0x03
    else .ok ()

/-- CTRLO_READ (R446): a read of a counter's low half loads the latch of R422. -/
def State.latchCounter (s : State) (c : Nat) : State :=
  { s with me := { s.me with sp := { s.me.sp with latch := (c, (s.counter c >>> 32).setWidth 32) } } }

/-- CTRLO_READ (R446, R422). -/
def execCtrloRead (c : Nat) (s : State) : Out := .next (s.latchCounter c)

/-- MFSR (R134): the register as it stands at issue, with L = 1. -/
def execMfsr (d : U6) (spr : U11) (x : U6) (e : Byte) (p : U3) (s : State) : Out :=
  .next (match s.sprCheck spr x e (some d) with
    | .error code => s.trapWord code
    | .ok () =>
      let i := s.sprIndex x
      let v := s.readSpr spr.toNat i
      let t := if s.pred p ∧ spr = 0x0EA then s.latchCounter i else s
      t.issueG 1 (dstOf d) p v 0)

/-- An accepted order of active loops (R141): the first popcount(ACT) fields of ORDER name the loops of ACT. -/
def lactOk (v : U64) : Bool :=
  let o := loopOrder v
  o.Nodup && o.all fun n => v.getLsbD n

/-- An accepted write of %qptr (R233), its reserved bits ignored (R9, R134; log 89): to a region that is not enabled only the
value 0. -/
def qptrOk (cfg v : U64) : Bool :=
  let cap := bitsOf cfg 39 20 / (16 * 2 ^ bitsOf cfg 42 40)
  if cfg.getLsbD 63 then bitsOf v 15 0 < cap && bitsOf v 47 32 + bitsOf v 31 16 ≤ cap else bitsOf v 47 0 == 0

/-- The causes that a write itself raises at its bundle (R57, R141, R233, R382); an S-core has no granule that a transfer
could name (R17; log 27). -/
def State.sprWriteCheck (s : State) (n : Nat) (v : U64) : Except Stop Unit :=
  let word := s.me.iss.word.zeroExtend 64
  if n = 0x001 then
    if v.getLsbD 0 == s.core.rsplit then .ok ()
    else if isS s.core.phys || s.packed.slots.any (fun t => t.bound.isSome || !t.loads.isEmpty) then
      .error (.trap 0x01 word)
    else .ok ()
  else if n = 0x058 then (if lactOk v then .ok () else .error (.trap 0x02 word))
  else if 0x0A0 ≤ n ∧ n < 0x0B0 then
    (if qptrOk (elem s.me.sp.qcfg (n - 0x0A0)) v then .ok () else .error (.trap 0x02 word))
  else if n = 0x036 then
    if isS s.core.phys then .error (.trap 0x01 word)
    else if granuleCount s.core ≤ bitsOf v 10 0 + bitsOf v 26 16 then .error (.trap 0x22 (BitVec.ofNat 64 (bitsOf v 10 0)))
    else if 16 ≤ s.me.queueTaken then .error .hold
    else .ok ()
  else .ok ()

/-- MTSR (R134): the write lands with L = 1. -/
def execMtsr (v : Src) (spr : U11) (x : U6) (e : Byte) (p : U3) (s : State) : Out :=
  .next (match s.sprCheck spr x e none with
    | .error code => s.trapWord code
    | .ok () => s.when (s.pred p) (s.settle (s.sprWriteCheck spr.toNat (s.src v)) fun _ =>
        s.issue 1 (.spr spr (s.sprIndex x) (s.src v) (BitVec.allOnes 64)) 0))

/-! ### Landings of writes -/

/-- A slot as a change of RSPLIT leaves it (R57, R273): every register of R28 at its reset value and the random-bit
queue refilled; where the slot stands in its program stays. -/
def Thread.splitReset (t : Thread) (phys : Nat) (split : Bool) : Thread :=
  let r := if split then Thread.reset t.slot1 32 (BitVec.ofNat 64 (phys + 1 + if t.slot1 then 2 ^ 32 else 0))
    else Thread.reset t.slot1 64 (BitVec.ofNat 64 (phys + 1))
  { r with pc := t.pc, run := t.run, iss := t.iss, loadId := t.loadId }

/-- RSPLIT_WRITE (R57, R58): a change of RSPLIT lands. -/
def State.writeRsplit (s : State) (v : Bool) : State :=
  if v = s.core.rsplit then s
  else
    { s with
      me := s.me.splitReset s.core.phys v
      sib := s.sib.splitReset s.core.phys v
      core := { s.core with rsplit := v, turn1 := false }
      dev := (s.dev.slotReplaced (slotNo s.core.phys false)).slotReplaced (slotNo s.core.phys true) }

/-- RSPLIT_WRITE (R57). -/
def execRsplitWrite (v : Bool) (s : State) : Out := .next (s.writeRsplit v)

/-- A write of %lact lands (R141): the fields of ORDER behind those of the active loops are 0. -/
def State.writeLact (s : State) (v : U64) : State := s.setLoop { s.me.loop with lact := lactOf (loopOrder v) }

/-- LACT_WRITE (R141): a write that is not an order of the loops it sets raises cause 0x02 and does not land. -/
def execLactWrite (v : U64) (s : State) : Out := .next (if lactOk v then s.writeLact v else s.trapWord 0x02)

/-- A value of %qcfg as it lands (R233): EN is 0 where the region is not one that a queue can have. -/
def qcfgLand (v : U64) (size : Nat) : U64 :=
  let v := v &&& 0x800007FFFFFFFFFF
  let e := 16 * 2 ^ bitsOf v 42 40
  let base := bitsOf v 19 0
  let n := bitsOf v 39 20
  if bitsOf v 42 40 ≤ 6 ∧ base % e = 0 ∧ n % e = 0 ∧ 2 * e ≤ n ∧ base + n ≤ size then v
  else v &&& 0x7FFFFFFFFFFFFFFF

/-- A write of %qcfg.n lands (R233): %qptr.n becomes 0. -/
def State.writeQcfg (s : State) (n : Nat) (v : U64) : State :=
  { s with
    me := { s.me with sp := { s.me.sp with
      qcfg := setElem s.me.sp.qcfg n (qcfgLand v s.splSize), qptr := setElem s.me.sp.qptr n 0 } }
    dev := s.dev.pointersWritten (slotNo s.core.phys s.me.slot1) n }

/-- QCFG_WRITE (R233). -/
def execQcfgWrite (n : U4) (v : U64) (s : State) : Out := .next (s.writeQcfg n.toNat v)

/-- A write of %qptr.n lands (R233). -/
def State.writeQptr (s : State) (n : Nat) (v : U64) : State :=
  { s with
    me := { s.me with sp := { s.me.sp with qptr := setElem s.me.sp.qptr n (v &&& 0xFFFFFFFFFFFF) } }
    dev := s.dev.pointersWritten (slotNo s.core.phys s.me.slot1) n }

/-- QPTR_WRITE (R233): a value that the region cannot have raises cause 0x02 and does not land. -/
def execQptrWrite (n : U4) (v : U64) (s : State) : Out :=
  .next (if qptrOk s.me.sp.qcfg[n.toNat] v then s.writeQptr n.toNat v else s.trapWord 0x02)

/-- A write of %elogpos lands (R440): RD is written and LOST cleared. -/
def State.writeElogpos (s : State) (v : U64) : State :=
  { s with dev := s.dev.updPart s.me.part fun p => { p with logRd := bitsOf v 31 16, logLost := 0 } }

/-- ELOGPOS_WRITE (R432, R440). -/
def execElogposWrite (v : U64) (s : State) : Out := .next (s.writeElogpos v)

/-- The granules of a transfer, of the dirty bits d (R382). -/
def xferMask (d : Vector U64 32) (v : U64) : Vector U64 32 :=
  Vector.ofFn fun w : Fin 32 =>
    (List.range 64).foldl (fun (x : U64) b =>
      let g := 64 * w.val + b
      if bitsOf v 10 0 ≤ g && g ≤ bitsOf v 10 0 + bitsOf v 26 16 && d[w].getLsbD b then x ||| (1#64 <<< b) else x) 0

/-- The bits of a set of granules taken away. -/
def clearMask (d m : Vector U64 32) : Vector U64 32 := Vector.ofFn fun w : Fin 32 => d[w] &&& ~~~ m[w]
/-- The bits of a set of granules added. -/
def orMask (d m : Vector U64 32) : Vector U64 32 := Vector.ofFn fun w : Fin 32 => d[w] ||| m[w]

/-- A write of %accxfer lands (R382): its entry captures %accbase and, MASKED, the dirty bits of its range, which are
cleared; as the next entry of the queue it follows the FOLLOW copies before it (R256). -/
def State.writeAccxfer (s : State) (v : U64) : State :=
  let m := if v.getLsbD 62 then xferMask s.me.cx.accdirty v else Vector.replicate 32 0
  let e : MqEntry :=
    { op := .xfer (v &&& 0xC000000007FF07FF) m, clamp := false, gx := 0, shape := 0, w := 0, vec := 0,
      base := s.me.cx.accbase, tabs := s.core.tabs, follow := s.me.follows, mark := s.dev.nextMsg, started := false }
  { s with me := { s.me with
      mq := s.me.mq ++ [e]
      follows := []
      cx := { s.me.cx with accxfer := v &&& 0xC000000007FF07FF, accdirty := clearMask s.me.cx.accdirty m } } }

/-- ACCXFER_WRITE (R382): a range beyond the store raises cause 0x22, and a full queue holds the bundle; on an S-core the
write names no granule that exists (R17; log 27). -/
def execAccxferWrite (v : U64) (s : State) : Out :=
  .next (if isS s.core.phys then s.trapWord 0x01
    else if granuleCount s.core ≤ bitsOf v 10 0 + bitsOf v 26 16 then s.trap 0x22 (BitVec.ofNat 64 (bitsOf v 10 0))
    else if 16 ≤ s.me.mq.length then s.hold
    else s.writeAccxfer v)

/-- The trap registers after a write lands (R146, R147): reserved bits are ignored. -/
def TrapRegs.write (r : TrapRegs) (n : Nat) (v : U64) : TrapRegs :=
  let a := v &&& 0xFFFFFFFFFFFFFFF0
  match n with
  | 0x070 => { r with scause := v &&& 0xFFF }
  | 0x071 => { r with sepc := a }
  | 0x074 => { r with svec := a }
  | 0x075 => { r with sscratch := v }
  | 0x076 => { r with sprev := v &&& 1 }
  | 0x077 => { r with slact := v &&& 0xFFFFFFFF }
  | 0x078 => { r with tdeleg := v &&& 0x7F }
  | 0x080 => { r with ucause := v &&& 0xFFF }
  | 0x081 => { r with uepc := a }
  | 0x084 => { r with uvec := a }
  | 0x085 => { r with uscratch := v }
  | 0x086 => { r with ulact := v &&& 0xFFFFFFFF }
  | _ => r

/-- The loop registers after a write of a count or a bound lands (R140). -/
def LoopRegs.write (l : LoopRegs) (n : Nat) (v : U64) : LoopRegs :=
  if n < 0x048 then { l with lcnt := setElem l.lcnt (n - 0x040) v }
  else if n < 0x050 then { l with lbeg := setElem l.lbeg (n - 0x048) v }
  else { l with lend := setElem l.lend (n - 0x050) v }

/-- The slot's own registers after a write lands (R44): read-only and reserved fields stay. -/
def Thread.writeSpr (t : Thread) (n x : Nat) (v : U64) : Thread :=
  if 0x040 ≤ n ∧ n < 0x058 then { t with loop := t.loop.write n v }
  else if 0x070 ≤ n ∧ n < 0x090 then { t with trap := t.trap.write n v }
  else match n with
    | 0x008 => { t with sp := { t.sp with stat := (v &&& statMask) ||| t.iss.landed } }
    | 0x010 => { t with sp := { t.sp with mmode := v &&& 7 } }
    | 0x011 => { t with sp := { t.sp with wstat := v &&& 0xFFFFFFFF07 } }
    | 0x012 => { t with sp := { t.sp with rfault := v &&& 0xC00000000000FF0F } }
    | 0x018 => { t with sp := { t.sp with tcptr := v &&& 3 } }
    | 0x030 => { t with cx := { t.cx with accown := v &&& 0x800000000000FFFF } }
    | 0x031 => { t with cx := { t.cx with accdirty := setElem t.cx.accdirty x v } }
    | 0x034 => { t with cx := { t.cx with pdisc := setElem t.cx.pdisc x v } }
    | 0x035 => { t with cx := { t.cx with accbase := v &&& 0xFFFFFFFFFFFFF000 } }
    | 0x038 => { t with sp := { t.sp with mfault := v &&& 0x800000007FFFFFFF } }
    | 0x039 => { t with sp := { t.sp with mecc := v &&& 0xF8000000007FFFFF } }
    | 0x0B0 => { t with sp := { t.sp with aemu := v } }
    | 0x0B1 => { t with sp := { t.sp with aemuc := v &&& 0xFFFFFFFFFFFFFFF1 } }
    | 0x0D0 => { t with sp := { t.sp with cmask := v &&& 0xFFFF } }
    | 0x0D8 => { t with sp := { t.sp with rngs0 := v } }
    | 0x0D9 => { t with sp := { t.sp with rngs1 := v } }
    | 0x0E8 => { t with sp := { t.sp with dstop := v &&& 0x8000FFFFFFFFFFFF } }
    | 0x0E9 => { t with sp := { t.sp with lprof := setElem t.sp.lprof x v } }
    | _ => t

/-- A write of a special register lands, in the bits of the mask alone (R44, R173). READY of %pctl acts at the bundle
boundary (R364). -/
def State.landSpr (s : State) (n x : Nat) (val wr : U64) : State :=
  if wr = 0 then s
  else
    let v := (val &&& wr) ||| (s.readSpr n x &&& ~~~ wr)
    if n = 0x001 then s.writeRsplit (v.getLsbD 0)
    else if n = 0x058 then s.writeLact v
    else if n = 0x036 then s.writeAccxfer v
    else if n = 0x0E1 then s.writeElogpos v
    else if 0x090 ≤ n ∧ n < 0x0A0 then s.writeQcfg (n - 0x090) v
    else if 0x0A0 ≤ n ∧ n < 0x0B0 then s.writeQptr (n - 0x0A0) v
    else { s with me := s.me.writeSpr n x v }

end Sys2Proof.Machine
end

