-- ==== Sys2Proof/Machine/Landing.lean ====
section
/-! DEFINITION. Landings at a bundle boundary (R24, R26, R38, R50..R53), the random-bit queue (R72, R273, R274), the macro
sequencer's steps (R269, R270) and the fetch of a bundle (R22, R135, R427). -/
namespace Sys2Proof.Machine

/-! ### Landings -/

/-- Whether an entry is due at this bundle boundary and a load that failed (R53). -/
def Infl.faulty (e : Infl) : Bool :=
  e.rem == 0 && e.load.any fun l => match l.phase with | .failed _ _ => true | _ => false

/-- Whether an entry is due and a load whose data has not arrived (R50). -/
def Infl.late (e : Infl) : Bool := e.rem == 0 && e.load.any fun l => l.phase == .waiting

/-- Whether an entry is due and can land. -/
def Infl.lands (e : Infl) : Bool := e.rem == 0 && !e.faulty && !e.late

/-- One result takes effect (R26, R34, R48): its register, which no longer fails where it is written, its queue entry, and its
flags, which a write of %stat that lands at the same boundary does not lose. -/
def State.landEntry (s : State) (e : Infl) : State :=
  let t := match e.res with
    | .spr n x val wr => s.landSpr n.toNat x val wr
    | r => { s with me := { s.me with regs := s.me.regs.land e.noq r }
                    dev := s.dev.resLanded (slotNo s.core.phys s.me.slot1) e.noq r }
  if e.stat = 0 then t else { t with me := t.me.setStat e.stat }

/-- Every entry that is due and can land takes effect, oldest first (R26, R38). -/
def State.landDue (s : State) : State :=
  (s.me.infl.filter Infl.lands).foldl State.landEntry
    { s with me := { s.me with infl := s.me.infl.filter fun e => !e.lands } }

/-- A table load takes effect (R204, R205): the table's next generation. -/
def Tables.load (b : Tables) (l : TabLoad) : Tables :=
  { b with
    gens := if h : l.t < 17 then b.gens.set l.t (b.gens[l.t] + 1) else b.gens
    cb := if h : l.t < 16 then b.cb.set l.t ⟨l.typ, l.ents⟩ else b.cb
    scale := if l.t = 16 then l.ents else b.scale }

/-- The table loads of the slot that are due take effect (R204). -/
def State.landTables (s : State) : State :=
  let due := s.me.tabq.filter fun l => l.rem == 0
  { s with
    core := { s.core with tabs := due.foldl Tables.load s.core.tabs }
    me := { s.me with tabq := s.me.tabq.filter fun l => l.rem != 0 }
    dev := if due.isEmpty then s.dev else s.dev.tablesReplaced s.core.phys (due.map (·.t)) }

/-- Everything due at this bundle boundary takes effect (R26, R38, R204). -/
def State.land (s : State) : State := s.landDue.landTables

/-- Whether the next bundle is a macro step (R269, R270): ACTIVE is 1 and the program counter stands at the macro's bundle,
where it stays until the macro ends. Behind a trap the sequencer waits for the return to that bundle: a handler that
branches there issues the bundle as it stands. -/
def Thread.inMacro (t : Thread) : Bool := t.mac.mpc.getLsbD 63 && !t.mac.away && pcAddr t.pc == t.mac.addr

/-- The trap of the oldest due load that failed (R38, R53): its entry is gone, and the others that fail land again with
the first bundle after the return. -/
def State.landFault (s : State) : State :=
  match s.me.infl.find? Infl.faulty with
  | some e =>
    match e.load with
    | some l =>
      match l.phase with
      | .failed code info =>
        let t := { s.me with infl := s.me.infl.erase e }
        { s with me := t.takeTrap { code := code, slot := e.slot, land := true, async := false, resume := t.pc,
                                    faulting := l.pc, info := info } }
      | _ => s
    | none => s
  | none => s

/-- The oldest entry that is due. -/
def Thread.due (t : Thread) : Option Infl := t.infl.find? fun e => e.rem == 0

/-- RESULT_LANDING (R24, R26, R27, R34): the oldest due entry, when it is a slot result, takes effect. -/
def execResultLanding (s : State) : Out :=
  .next (match s.me.due with
    | some e => if e.load.isNone then { s with me := { s.me with infl := s.me.infl.erase e } }.landEntry e else s
    | none => s)

/-- LOAD_LANDING (R50, R51, R53): the oldest due entry, when it is a load, lands and gives its tag and store back; while
its data is outstanding the core is frozen under LATE; a load that failed traps once every other due result has taken
effect. -/
def execLoadLanding (s : State) : Out :=
  .next (match s.me.due with
    | some e =>
      if e.load.isNone then s
      else if e.late then s.hold
      else if e.faulty then s.landDue.landFault
      else { s with me := { s.me with infl := s.me.infl.erase e } }.landEntry e
    | none => s)

/-- What an entry counts for in the register files' limits (R52): scalar-class and vector-class writes. -/
def Infl.ports (e : Infl) : Nat × Nat :=
  match e.res with
  | .g _ _ _ => (1, 0)
  | .v _ _ _ => (0, 1)
  | .m _ _ _ => (0, 2)
  | _ => (0, 0)

/-- The frozen cycles under PORTS before a bundle (R52): one for each batch beyond the first. DESIGN CHOICE (log 79): the batches
of both classes drain side by side, each class as many a cycle as its limit, so that a moment write may stand in two batches. -/
def Thread.portCycles (t : Thread) : Nat :=
  let c := (t.infl.filter Infl.lands).foldl (fun (a : Nat × Nat) e => (a.1 + e.ports.1, a.2 + e.ports.2)) (0, 0)
  Nat.max ((c.1 + 5) / 6) ((c.2 + 3) / 4) - 1

/-! ### The random-bit queue (R72, R273, R274) -/

/-- The words that a slot's random-bit queue holds. -/
def State.rngCap (s : State) : Nat := if s.core.rsplit then 32 else 64

/-- RNG_APPEND (R72, R273): one word is appended while the queue is not full. -/
def State.rngAppend (s : State) : State :=
  if s.rngCap ≤ s.me.rnq.length then s
  else
    let r := rngNext s.me.sp.rngs0 s.me.sp.rngs1
    { s with me := { s.me with
        rnq := s.me.rnq ++ [r.2], sp := { s.me.sp with rngs0 := r.1.1, rngs1 := r.1.2 } } }

/-- RNG_APPEND (R72, R273). -/
def execRngAppend (s : State) : Out := .next s.rngAppend

/-- RNGSEED (R274): with `.flush` the queue is emptied. The bundle's own word, if it needs one, has been popped from the
queue as it stood. -/
def execRngseed (a b : Src) (flush : Bool) (p : U3) (s : State) : Out :=
  .next (s.when (s.pred p) (
    let zero := s.src a = 0 ∧ s.src b = 0
    { s with me := { s.me with
        sp := { s.me.sp with rngs0 := if zero then rngSeed0 else s.src a, rngs1 := s.src b }
        rnq := if flush then [] else s.me.rnq } }))

/-- RNGPOP (R274): the word that the bundle draws. -/
def execRngpop (d : Dst) (p : U3) (s : State) : Out :=
  .next (if s.pred p then s.withW true fun w s => s.issueG 1 d p w 0 else s.issueG 1 d p 0 0)

/-! ### Macros (R269, R270) -/

/-- Four 16-bit counts, a count of 0 taken as 1 (R269). -/
def macroCounts (a : U64) : U64 :=
  let c (n : Nat) : U16 := let x := a.extractLsb' (16 * n) 16; if x = 0 then 1 else x
  c 3 ++ c 2 ++ c 1 ++ c 0

/-- MACRO (R269): the sequencer starts after this bundle. -/
def execMacroRun (a : Src) (idx : BitVec 10) (p : U3) (s : State) : Out :=
  .next (s.when (s.pred p)
    (if s.me.mac.mpc.getLsbD 63 then s.trapWord 0x01
     else { s with me := { s.me with mac :=
        { mpc := 1#1 ++ 0#53 ++ idx, spc := 0, mlc := macroCounts (s.src a), mlinit := s.src a,
          addr := pcAddr s.me.iss.bpc, next := s.me.iss.bpc + 1, marked := false
          lset := (loopOrder s.me.loop.lact).headD 8, away := false } } }))

/-- The control-store entry of the next macro step. -/
def State.macroEntry (s : State) : U128 := s.mems.ctl (s.core.phys * 1024 + bitsOf s.me.mac.mpc 9 0)

/-- The sequencer after a step that has issued (R269): the loop test, END and MARK. DESIGN CHOICE (log 87): a counter whose
%mlinit count is 0 is reloaded with 1, as that count stands for at its start. -/
def MacroRegs.advance (m : MacroRegs) (e : U128) : MacroRegs :=
  let idx : BitVec 10 := m.mpc.extractLsb' 0 10
  let sel := bitsOf e 90 89
  let cnt := bitsOf m.mlc (16 * sel + 15) (16 * sel)
  let m := { m with spc := m.spc + 1, marked := e.getLsbD 77 }
  if e.getLsbD 88 ∧ 1 < cnt then
    { m with mlc := setField m.mlc (16 * sel) 16 (cnt - 1), mpc := 1#1 ++ 0#53 ++ e.extractLsb' 78 10 }
  else
    let init := bitsOf (macroCounts m.mlinit) (16 * sel + 15) (16 * sel)
    let m := if e.getLsbD 88 then { m with mlc := setField m.mlc (16 * sel) 16 init } else m
    if e.getLsbD 76 then { m with mpc := m.mpc &&& 0x7FFFFFFFFFFFFFFF }
    else { m with mpc := 1#1 ++ 0#53 ++ (idx + 1) }

/-- The register step of a macro step (R269): L = 1, to the named register only. -/
def State.macroReg (s : State) (e : U128) : State :=
  let r : U5 := e.extractLsb' 91 5
  if r = 0 then s
  else
    let v := s.me.regs.readG r + (e.extractLsb' 96 16).signExtend 64
    { s with me := s.me.push { rem := 1, noq := true, slot := 3, stat := 0, res := .g (.reg r) v true, load := none } }

/-! ### Fetch (R22, R135, R392, R427) -/

/-- What stands at the program counter: a bundle, the cause of a failed fetch, or nothing yet. -/
inductive Fetch where
  | bundle (b : U128)
  | fault (code : Byte) (info : U64)
  | wait
  deriving DecidableEq, Repr

/-- The bundle at a physical address, when the instruction cache holds it. -/
def Core.cached (c : Core) (pa : Nat) : Option U128 := (c.icache.find? fun x => x.1 == pa).map (·.2)

/-- A fetch at the program counter (R22, R394, R397): its page is translated, and the bundle comes from the instruction
cache. A page that misses is walked and a bundle that misses is read. -/
def State.fetch (s : State) : Fetch × State :=
  let a := pcAddr s.me.pc
  match s.me.fetchFault with
  | some (code, info) => (.fault code info, s)
  | none =>
    if a.extractLsb' 48 16 ≠ 0 then (.fault 0x11 a, s)
    else
      match s.failedWalk true a.toNat with
      | some code => (.fault code a, s)
      | none =>
        match s.dev.find s.core.phys s.ctx a.toNat with
        | none =>
          let d := s.dev.request (clusterOf s.core.phys) s.ctx s.me.root a.toNat s.me.part [(s.party, true)]
          (.wait, { s with dev := d })
        | some (p, d) =>
          match p.denies ⟨s.me.priv, false, true, none⟩ with
          | some code => (.fault code a, { s with dev := d })
          | none =>
            match s.core.cached (p.phys a.toNat) with
            | some b => (.bundle b, { s with dev := d })
            | none =>
              let line := (p.phys a.toNat, s.party)
              (.wait, { s with dev := { d with
                  fetches := if d.fetches.contains line then d.fetches else d.fetches ++ [line] } })

/-- A core's instruction cache with a bundle added: 64 KiB, the oldest replaced (R16; log 24). -/
def Core.fill (c : Core) (pa : Nat) (b : U128) : Core :=
  { c with icache := ((c.icache.filter fun x => x.1 != pa) ++ [(pa, b)]).drop (c.icache.length - 4095) }

/-- FETCH_FILL (R22, R424, R427): the oldest bundle asked for is read from memory into the instruction cache of the core that
waits; a failing word gives cause 0x40 there instead, with the bundle's address. -/
def execFetchFill (s : State) : Out :=
  .next (match s.dev.fetches with
    | [] => s
    | (pa, who) :: ls =>
      let t := { s with dev := { s.dev with fetches := ls } }
      match who with
      | .slot phys slot1 =>
        if (s.dev.failing .hbm pa 16).isSome then
          runAct (fun _ => do
            Act.thread phys slot1 fun x => { x with fetchFault := some (0x40, pcAddr x.pc) }
            Act.logBad phys 12 ((s.threadAt phys slot1).elim 0 fun x => pcAddr x.pc)
              ((s.threadAt phys slot1).elim 0 fun x => x.bound.elim 0 (·.job))) t
        else runAct (fun _ => do
          Act.correctFor phys slot1 [(.hbm, pa, 16)]
          Act.coreOf phys fun c => c.fill pa (BitVec.ofNat 128 (s.mems.nat .hbm pa 16))) t
      | _ => t)

end Sys2Proof.Machine
end

