-- ==== Sys2Proof/Machine/System.lean ====
section
/-! DEFINITION. The header and the no-operation (R103, R107), the replay records of `rbsave` and `rbload` (R151, R373), and
translation maintenance (R152, R398). -/
namespace Sys2Proof.Machine

/-- NOP (R107). -/
def execNop (s : State) : Out := .next s

/-- HDR (R103, R35): GROUP clears the queue and the latches before the bundle reads; the extension bytes go to the other
slots as they are decoded. -/
def execHdr (group : Bool) (_e3 _e2 _e1 : Byte) (s : State) : Out :=
  .next (s.when group
    { s with
      me := { s.me with
        regs := s.me.regs.clearQ
        infl := noQueue s.me.infl
        iss := { s.me.iss with cleared := some ⟨s.me.infl, s.me.regs.q, s.me.regs.b⟩ } }
      dev := s.dev.latchesReplaced (slotNo s.core.phys s.me.slot1) })

/-! ### Replay records (R373) -/

/-- A destination field as R373 writes it. -/
def dstField (d : Dst) : Nat := (dstBits d).toNat

/-- What a result entry holds in a record (R373): class, destination, payload size and payload. The record has no place
for a result that writes only in part: it holds what the destination would hold (log 30). -/
def State.resRecord (s : State) (r : Res) : Nat × Nat × Nat × Nat :=
  match r with
  | .g d v wr => (0, dstField d, 8, (s.me.regs.landValG d v wr).toNat)
  | .v d v wr => (1, dstField d, 256, (s.me.regs.landValV d v wr).toNat)
  | .m d v wr =>
    let old := s.me.regs.m[d.toNat]
    (2, d.toNat, 512, (mergeLanes wr (v.extractLsb' 2048 2048) (old.extractLsb' 2048 2048) ++
      mergeLanes wr (v.extractLsb' 0 2048) (old.extractLsb' 0 2048)).toNat)
  | .p d v wr => (3, d.toNat, 8, if (if wr then v else s.me.regs.readP d) then 1 else 0)
  | .k d v wr => (4, d.toNat, 8, ((v &&& wr) ||| (s.me.regs.readK d &&& ~~~ wr)).toNat)
  | .spr n x v wr => (5, n.toNat + 2048 * (x % 32), 8, ((v &&& wr) ||| (s.readSpr n.toNat x &&& ~~~ wr)).toNat)
  | .shp xs reg fld v wr =>
    let old := if xs then s.me.regs.xsS[reg.toNat] else s.me.regs.msS[reg.toNat]
    let f := if xs then xsField fld else msField fld
    (6, ((if xs then 4 else 0) + reg.toNat) * 32 + fld.toNat, 8,
      if wr then v.toNat else old.toNat / 2 ^ f.1 % 2 ^ f.2)
  | .tc r v => (7, r.toNat, 8, v.toNat)

/-- A result entry's bytes (R373). -/
def State.resEntry (s : State) (ord : Nat) (e : Infl) : List Byte :=
  let r := s.resRecord e.res
  leBytes 2 ord ++ leBytes 1 (e.rem + 1) ++ leBytes 1 r.1 ++ leBytes 2 r.2.1 ++ leBytes 2 r.2.2.1 ++ zeroBytes 8 ++
    leBytes r.2.2.1 r.2.2.2

/-- The landing entries' bytes and their data (R373), data offsets from `off` on. -/
def State.landEntries (s : State) : List (Infl × Nat) → Nat → List Byte × List Byte
  | [], _ => ([], [])
  | (e, ord) :: es, off =>
    let r := s.resRecord e.res
    let t := s.landEntries es (off + (r.2.2.1 + 31) / 32 * 32)
    (leBytes 2 ord ++ leBytes 1 (e.rem + 1) ++ leBytes 1 r.1 ++ leBytes 2 r.2.1 ++ leBytes 2 r.2.2.1 ++
        leBytes 4 off ++ zeroBytes 4 ++ t.1,
      leBytes ((r.2.2.1 + 31) / 32 * 32) r.2.2.2 ++ t.2)

/-- A frame as a replay record (R373); the tag is 0 U, 1 S or 2 live. -/
def State.replayRecord (s : State) (tag : Nat) (f : Frame) : List Byte :=
  let es := f.infl.zipIdx
  let res := es.filter fun e => !e.1.landing
  let land := s.landEntries (es.filter fun e => e.1.landing) 0
  let body := res.flatMap (fun e => s.resEntry e.2 e.1) ++ land.1 ++ land.2
  leBytes 4 0xFAE10001 ++ leBytes 1 tag ++ leBytes 1 0 ++ leBytes 2 res.length ++ leBytes 2 (land.1.length / 16) ++
    leBytes 2 0 ++ leBytes 4 land.2.length ++ leBytes 8 (1024 + body.length) ++ zeroBytes 40 ++
    f.q.toList.flatMap (fun x => leBytes 8 x.toNat) ++ f.b.toList.flatMap (fun x => leBytes 256 x.toNat) ++
    zeroBytes 64 ++ body

/-- A result by its class, destination and payload (R373), when the payload's size suits the class. -/
def resOf (cls dst size v : Nat) : Option Res :=
  let d := dstOf (BitVec.ofNat 6 dst)
  if size ≠ (match cls with | 1 => 256 | 2 => 512 | _ => 8) then none
  else match cls with
    | 0 => some (.g d (BitVec.ofNat 64 v) true)
    | 1 => some (.v d (BitVec.ofNat 2048 v) (BitVec.allOnes 64))
    | 2 => some (.m (BitVec.ofNat 4 dst) (BitVec.ofNat 4096 v) (BitVec.allOnes 64))
    | 3 => some (.p (BitVec.ofNat 3 dst) (v % 2 == 1) true)
    | 4 => some (.k (BitVec.ofNat 3 dst) (BitVec.ofNat 64 v) (BitVec.allOnes 64))
    | 5 => some (.spr (BitVec.ofNat 11 dst) (dst / 2048) (BitVec.ofNat 64 v) (BitVec.allOnes 64))
    | 6 => some (.shp (128 ≤ dst) (BitVec.ofNat 2 (dst / 32)) (BitVec.ofNat 5 dst) (BitVec.ofNat 64 v) true)
    | 7 => some (.tc (BitVec.ofNat 2 dst) (BitVec.ofNat 64 v))
    | _ => none

/-- An entry of the frame with its rank. -/
def entryOf (ord rem : Nat) (r : Res) (l : Option Load) : Nat × Infl :=
  (ord, { rem := rem - 1, noq := false, slot := 0, stat := 0, res := r, load := l })

/-- n result entries read from bytes: the entries, and the bytes that follow them. -/
def parseResults : Nat → List Byte → Option (List (Nat × Infl) × List Byte)
  | 0, bs => some ([], bs)
  | n + 1, bs =>
    let rem := bytesAt bs 2 1
    let size := bytesAt bs 6 2
    let r := resOf (bytesAt bs 3 1) (bytesAt bs 4 2) size (bytesAt bs 16 size)
    if bs.length < 16 + size ∨ rem = 0 ∨ bytesAt bs 8 8 ≠ 0 then none
    else
      match r, parseResults n (bs.drop (16 + size)) with
      | some r, some t => some (entryOf (bytesAt bs 0 2) rem r none :: t.1, t.2)
      | _, _ => none

/-- n landing entries read from bytes, their data standing in `data`. -/
def parseLandings : Nat → List Byte → List Byte → Option (List (Nat × Infl))
  | 0, _, _ => some []
  | n + 1, bs, data =>
    let rem := bytesAt bs 2 1
    let cls := bytesAt bs 3 1
    let size := bytesAt bs 6 2
    let off := bytesAt bs 8 4
    let sizeOk := if cls = 0 then 1 ≤ size ∧ size ≤ 8 else size = (if cls = 1 then 256 else 512)
    if 2 < cls ∨ ¬sizeOk ∨ rem = 0 ∨ bytesAt bs 12 4 ≠ 0 ∨ data.length < off + size then none
    else
      match resOf cls (bytesAt bs 4 2) (if cls = 0 then 8 else size) (bytesAt data off size),
          parseLandings n (bs.drop 16) data with
      | some r, some t => some (entryOf (bytesAt bs 0 2) rem r (some ⟨0, (size + 31) / 32, 0, .ready, none⟩) :: t)
      | _, _ => none

/-- Entries in the order of their ranks, when the ranks are 0 .. n − 1, each used once. -/
def ranked (es : List (Nat × Infl)) : Option (List Infl) :=
  let out := (List.range es.length).filterMap fun n => (es.find? fun e => e.1 == n).map (·.2)
  if out.length = es.length then some out else none

/-- Whether n bytes from an offset are zero. -/
def zeroAt (bs : List Byte) (off n : Nat) : Bool := ((bs.drop off).take n).all (· == 0)

/-- The header of a record (R373): its fields in range and its reserved bytes zero. -/
def headerOk (h : List Byte) : Bool :=
  bytesAt h 0 4 == 0xFAE10001 && bytesAt h 4 1 ≤ 2 && zeroAt h 5 1 && bytesAt h 6 2 ≤ 96 && bytesAt h 8 2 ≤ 1024 &&
    zeroAt h 10 2 && bytesAt h 12 4 % 32 == 0 && bytesAt h 12 4 ≤ 131072 && zeroAt h 24 40 && zeroAt h 960 64

/-- A frame read from a record (R373), tagged S; none when the record is malformed. -/
def parseRecord (bs : List Byte) : Option Frame :=
  let nland := bytesAt bs 8 2
  let dlen := bytesAt bs 12 4
  match parseResults (bytesAt bs 6 2) (bs.drop 1024) with
  | none => none
  | some (res, rest) =>
    if rest.length ≠ 16 * nland + dlen then none
    else
      match parseLandings nland rest (rest.drop (16 * nland)) with
      | none => none
      | some land =>
        (ranked (res ++ land)).map fun es =>
          ⟨true, es, Vector.ofFn fun i : Fin 16 => BitVec.ofNat 64 (bytesAt bs (64 + 8 * i.val) 8),
            Vector.ofFn fun i : Fin 3 => BitVec.ofNat 2048 (bytesAt bs (192 + 256 * i.val) 256)⟩

/-- RBSAVE (R151): held until every request in the top frame has delivered. DESIGN CHOICE: its checks go in the order 0x10, 0x01,
0x12 (log 81), and an entry whose load has failed counts as delivered, its fault being lost with the frame (log 30). -/
def execRbsave (a : Src) (p : U3) (s : State) : Out :=
  .next (s.supervisor (s.when (s.pred p) (
    let ad := s.src a
    match s.me.top with
    | none => if ad.toNat % 1024 ≠ 0 then s.trap 0x10 ad else s.trapWord 0x01
    | some f =>
      let bs := s.replayRecord (if f.tagS then 1 else 0) f
      s.settleBad 2 (do
        if ad.toNat % 1024 ≠ 0 then .error (.trap 0x10 ad)
        if s.splSize < ad.toNat + bs.length then .error (.trap 0x12 ad)
        if f.infl.any fun e => e.load.any fun l => l.phase == .waiting then .error .hold
        if s.me.drainPending ad.toNat bs.length || s.ownPending (s.place.at ad.toNat) bs.length ||
          s.readAhead ad.toNat bs.length then .error .hold
        if (s.dev.partFailing .spl (s.place.at ad.toNat) bs.length).isSome then .error (.trap 0x40 ad)) fun _ =>
        runAct (fun _ => do
          Act.storeOwn s.place ad.toNat bs
          Act.me Thread.freeTop) s)))

/-- RBLOAD (R151): a record becomes frame 0, tagged S. DESIGN CHOICE (log 81): its checks go in the order 0x10, 0x01, 0x12,
0x02. -/
def execRbload (a : Src) (p : U3) (s : State) : Out :=
  .next (s.supervisor (s.when (s.pred p) (
    let ad := s.src a
    let key := s.place.at ad.toNat
    let size := s.mems.nat .spl (key + 16) 8
    let n := Nat.min size 199168
    let bs := s.mems.read .spl key n
    s.settleBad 2 (do
      if ad.toNat % 1024 ≠ 0 then .error (.trap 0x10 ad)
      if s.me.f0.isSome then .error (.trap 0x01 (s.me.iss.word.zeroExtend 64))
      if s.splSize < ad.toNat + 1024 then .error (.trap 0x12 ad)
      if s.me.drainPending ad.toNat n || s.ownPending key n then .error .hold
      if !headerOk (s.mems.read .spl key 1024) ∨ size < 1024 ∨ 199168 < size then
        .error (.trap 0x02 (s.me.iss.word.zeroExtend 64))
      if s.splSize < ad.toNat + size then .error (.trap 0x12 ad)
      if (s.dev.failing .spl key n).isSome then .error (.trap 0x40 ad)
      match parseRecord bs with
      | none => .error (.trap 0x02 (s.me.iss.word.zeroExtend 64))
      | some f => .ok f) fun f =>
        let r := s.correct .spl key n
        { r with me := { r.me with f0 := some f } })))

/-! ### Translation maintenance (R152, R398) -/

/-- Whether a removal names a translation. -/
def Removal.names (r : Removal) (p : Pte) : Bool :=
  match r.target with
  | none => true
  | some (ctx, none) => p.ctx == ctx
  | some (ctx, some va) => p.covers ctx va

/-- A TLB without the translations that a removal names. -/
def tlbDrop (l : List (Nat × List Pte)) (which : Nat → Bool) (r : Removal) : List (Nat × List Pte) :=
  l.map fun x => if which x.1 then (x.1, x.2.filter fun p => !r.names p) else x

/-- A removal as it issues (R152): the core's own TLB at once; the cluster's when it takes effect there. -/
def State.remove (s : State) (target : Option (Nat × Option Nat)) : State :=
  let r : Removal := ⟨clusterOf s.core.phys, s.core.phys, s.me.slot1, target⟩
  { s with dev := { s.dev with
      tlb := tlbDrop s.dev.tlb (· == s.core.phys) r, removals := s.dev.removals ++ [r] } }

/-- TLBINV (R152). -/
def execTlbinv (a : Src) (p : U3) (s : State) : Out :=
  .next (s.supervisor (s.when (s.pred p) (s.remove (some (s.ctx, some (s.src a).toNat)))))
/-- TLBINVCTX (R152). -/
def execTlbinvctx (a : Src) (p : U3) (s : State) : Out :=
  .next (s.supervisor (s.when (s.pred p) (s.remove (some ((s.src a).toNat, none)))))
/-- TLBINVALL (R152). -/
def execTlbinvall (p : U3) (s : State) : Out := .next (s.supervisor (s.when (s.pred p) (s.remove none)))
/-- TLBSYNC (R152): held until every removal of the core has taken effect. -/
def execTlbsync (p : U3) (s : State) : Out :=
  .next (s.supervisor (s.when (s.pred p)
    (if s.dev.removals.any fun r => r.phys == s.core.phys then s.hold else s)))

/-- TLB_REMOVAL_TAKES_EFFECT (R152, R398): the oldest removal of a cluster takes effect in the cluster's TLB and in those
of its cores; a walk still in flight reads its entries afterwards. -/
def execTlbRemovalTakesEffect (cl : Nat) (s : State) : Out :=
  .next (match s.dev.removals.find? fun r => r.cl == cl with
    | some r =>
      { s with dev := { s.dev with
          removals := s.dev.removals.erase r
          ctlb := tlbDrop s.dev.ctlb (· == cl) r
          tlb := tlbDrop s.dev.tlb (fun p => clusterOf p == cl) r } }
    | none => s)

end Sys2Proof.Machine
end

