-- ==== Sys2Proof/Machine/LoadArrive.lean ====
section
/-! DEFINITION. The data of timed loads (R50, R76..R78, R212, R213), the page walks (R394, R397), atomics at the memory port
(R238, R239, R291, R292), and the repair of HBM words (R424). -/
namespace Sys2Proof.Machine

/-! ### Delivery into the landing buffer -/

/-- An entry whose load is the one named takes its data or its fault (R50). -/
def Infl.deliver (e : Infl) (id : Nat) (ph : Phase) (r : Res) : Infl :=
  match e.load with
  | some l => if l.id = id ∧ l.phase = .waiting then { e with load := some { l with phase := ph }, res := r } else e
  | none => e

/-- A landing entry finds its data wherever it is: in flight, captured in a frame, cleared aside by a header, or discarded
(R62, R151). -/
def Thread.deliver (t : Thread) (id : Nat) (ph : Phase) (r : Res → Res) : Thread :=
  let f (es : List Infl) := es.map fun e => e.deliver id ph (r e.res)
  { t with
    infl := f t.infl
    iss := { t.iss with cleared := t.iss.cleared.map fun c => { c with infl := f c.infl } }
    f0 := t.f0.map fun x => { x with infl := f x.infl }
    f1 := t.f1.map fun x => { x with infl := f x.infl }
    orphans := t.orphans.filter fun l => l.id != id }

/-- Data written into the destination that an entry records, its class unchanged. -/
def Res.data (r : Res) (v : Nat) : Res :=
  match r with
  | .g d _ wr => .g d (BitVec.ofNat 64 v) wr
  | .v d _ wr => .v d (BitVec.ofNat 2048 v) wr
  | .m d _ wr => .m d (BitVec.ofNat 4096 v) wr
  | r => r

/-- A core or slot and context that a party stands for. -/
def Msg.slot (m : Msg) : Nat × Bool := match m.src with | .slot p s => (p, s) | _ => (0, false)

/-- A load's data delivered, and its message gone. -/
def Act.deliver {s0 : State} (m : Msg) (id : Nat) (ph : Phase) (v : Nat) : Act s0 Unit := do
  Act.ofContext m.slot.1 m.slot.2 m.ctx fun t => t.deliver id ph fun r => r.data v
  Act.dev fun d => d.dropMsg m.id

/-- A load that failed, and its message gone (R53, R427). -/
def Act.failLoad {s0 : State} (m : Msg) (id : Nat) (code : Byte) (info : U64) : Act s0 Unit := do
  Act.ofContext m.slot.1 m.slot.2 m.ctx fun t => t.deliver id (.failed code info) fun r => r
  Act.dev fun d => d.dropMsg m.id

/-! ### Formatted loads (R76..R78, R213) -/

/-- What stops a formatted load: a page to walk, or a cause. -/
inductive LoadStop where
  | need (va : Nat)
  | cause (code : Byte)
  | bad (code : Byte)
  deriving DecidableEq, Repr

/-- The translation that a load holds for an address: its leaf, the page to walk, or the walk's cause; an address of more than
48 bits has none (R392). -/
def LoadReq.page (r : LoadReq) (va : Nat) : Except LoadStop Pte :=
  if 2 ^ 48 ≤ va then .error (.cause 0x11)
  else match r.got.find? fun g => g.1 == pageBase va with
  | some (_, .leaf p) => .ok p
  | some (_, .fail c) => .error (.cause c)
  | none => .error (.need (pageBase va))

/-- A leaf that the load may use (R394). -/
def LoadReq.leaf (r : LoadReq) (va : Nat) : Except LoadStop Pte := do
  let p ← r.page va
  match p.denies ⟨r.priv, false, false, some (r.space == 4)⟩ with
  | some c => .error (.cause c)
  | none => return p

/-- The bytes of a page's data area (R76): the whole page when it is not block-scaled. -/
def Pte.area (p : Pte) : Nat := if pteBgeo p.word = 0 then p.size else p.size / 32 * 31

/-- The exact value of the element of a formatted page at nibble `pos` of the address space (R74, R76..R78), and whether it is
stated: a block whose scale nibble lies beyond the page's scale area has none. -/
def LoadReq.element (r : LoadReq) (m : Mems) (p : Pte) (pos : Nat) : Option FV :=
  let f := pteFmt p.word
  let a := p.phys (pos / 2)
  let off := pos / 2 - p.va
  let raw := m.nat p.space a (Nat.max 1 (fmtNibbles f / 2))
  let v := if f = 8 then
      cbValue (r.tabs.cb.toList.getD (pteCbt p.word) ⟨0, Vector.replicate 16 0⟩) (raw / 16 ^ (pos % 2) % 16)
    else elemValue (fmtET f) raw
  if pteBgeo p.word = 0 then some v
  else
    let k := off / (8 * 2 ^ pteBgeo p.word)
    if p.size ≤ p.area + k / 2 then none
    else
      let nib := (m.byte p.space (p.phys (p.va + p.area + k / 2))).toNat / 16 ^ (k % 2) % 16
      some (v.mul (fdecode bf16 (r.tabs.scale.toList.getD nib 0).toNat))

/-- A decoded value delivered in the destination type (R78). -/
def loadConvert (et : Nat) (v : FV) : Nat :=
  if et ≤ 4 then (froundV (fmtOf et) 0 (et == 3 || et == 4) 0 v).bits else (realToInt et 0 0 v).bits

/-- The half bytes that an element takes on a page, the destination's elements being w bits wide (R77, R78): on a RAW page as
many as the destination's. -/
def Pte.step (p : Pte) (w : Nat) : Nat := if pteFmt p.word = 0 then w / 4 else fmtNibbles (pteFmt p.word)

/-- The bytes that the element at nibble `pos` is made of: its own, and its block's scale nibble. -/
def Pte.spots (p : Pte) (w pos : Nat) : List (Space × Nat × Nat) :=
  let k := (pos / 2 - p.va) / (8 * 2 ^ pteBgeo p.word)
  (p.space, p.phys (pos / 2), Nat.max 1 (p.step w / 2)) ::
    if pteBgeo p.word = 0 ∨ p.size ≤ p.area + k / 2 then [] else [(p.space, p.phys (p.va + p.area + k / 2), 1)]

/-- The nibble at which the element after the one at `pos` stands: the scale area is passed over (R78). DESIGN CHOICE (log
91): from an address in the scale area on, the elements follow one another to the page's end. -/
def Pte.nextPos (p : Pte) (w pos : Nat) : Nat :=
  let next := pos + p.step w
  if pteBgeo p.word ≠ 0 ∧ pos / 2 < p.va + p.area ∧ p.va + p.area ≤ next / 2 then 2 * (p.va + p.size) else next

/-- Elements of a `.v` load from nibble `pos` on, of type et (R78, R213): each through the entry of the page on which it stands,
a RAW page's unchanged (log 74). -/
def LoadReq.elements (r : LoadReq) (m : Mems) (d : Dev) (isSCore : Bool) (et free : Nat) :
    Nat → Nat → Except LoadStop (List Nat)
  | 0, _ => .ok []
  | n + 1, pos => do
    let p ← r.leaf (pos / 2)
    let f := pteFmt p.word
    let w := etWidth et
    if isSCore && (f == 8 || pteBgeo p.word != 0) then .error (.cause 0x12)
    if (p.spots w pos).any fun x => (d.failing x.1 x.2.1 x.2.2).isSome then .error (.bad 0x40)
    let x :=
      if f = 0 then m.nat p.space (p.phys (pos / 2)) (w / 8)
      else match r.element m p pos with
        | some v => loadConvert et v
        | none => Config.freeBits free n % 2 ^ w
    let xs ← r.elements m d isSCore et free n (p.nextPos w pos)
    return x :: xs

/-- The bytes that the elements of a `.v` load are made of. -/
def LoadReq.spots (r : LoadReq) (w : Nat) : Nat → Nat → List (Space × Nat × Nat)
  | 0, _ => []
  | n + 1, pos =>
    match r.leaf (pos / 2) with
    | .ok p => p.spots w pos ++ r.spots w n (p.nextPos w pos)
    | .error _ => []

/-- The leaves of every page of n bytes (R394). -/
def LoadReq.leaves (r : LoadReq) : List Nat → Except LoadStop (List Pte)
  | [] => .ok []
  | va :: vas => do
    let p ← r.leaf va
    let ps ← r.leaves vas
    return p :: ps

/-- A far load's value (R210, R212, R213): its first page, the page's format, then the alignment, then its bytes or
elements (log 25). A scalar or moment load takes its bytes from RAW pages alone. -/
def State.farValue (s : State) (r : LoadReq) (phys : Nat) : Except LoadStop Nat := do
  let va := r.addr.toNat
  let p ← r.leaf va
  let f := pteFmt p.word
  if r.sz ≠ 7 ∨ r.wide then
    if f ≠ 0 then .error (.cause 0x12)
    if va % (if r.sz ≠ 7 then szBytes r.sz else 32) ≠ 0 then .error (.cause 0x10)
    let ps ← r.leaves (pagesOf va r.bytes)
    if ps.any fun p => pteFmt p.word != 0 then .error (.cause 0x12)
    let pcs := piecesOf ps va 64 r.bytes
    if s.dev.piecesFail pcs then .error (.bad 0x40)
    let bs := s.mems.pieces pcs
    return if r.sz ≠ 7 then (szExtend r.sz (leNat bs)).toNat else leNat bs
  else
    if isS phys && (f == 8 || pteBgeo p.word != 0) then .error (.cause 0x12)
    if va % farAlign 32 f ≠ 0 then .error (.cause 0x10)
    let et := convType r.t r.u
    let w := etWidth et
    let xs ← r.elements s.mems s.dev (isS phys) et s.free (2048 / w) (2 * va)
    return (xs.zipIdx.map fun x => x.1 * 2 ^ (w * x.2)).foldl (· + ·) 0

/-- The bytes that a far load reads (R424). -/
def LoadReq.farReads (r : LoadReq) : List (Space × Nat × Nat) :=
  let va := r.addr.toNat
  if r.sz ≠ 7 ∨ r.wide then
    match r.leaves (pagesOf va r.bytes) with
    | .ok ps => (piecesOf ps va 64 r.bytes).map fun x => (if x.1 then .host else .hbm, x.2.1, x.2.2)
    | .error _ => []
  else
    let w := etWidth (convType r.t r.u)
    r.spots w (2048 / w) (2 * va)

/-- LOAD_DATA_ARRIVAL (R50, R212, R213, R281): a load reads its bytes and its data reaches the landing buffer; one whose
next page is not translated asks for the walk. A cluster load that finds no task at its place any more fails as R208 has it
(log 92). -/
def execLoadDataArrival (n : Nat) (s : State) : Out :=
  .next (match s.dev.msg n with
    | none => s
    | some m =>
      match m.kind with
      | .load r =>
        let job := m.job
        if !r.need.isEmpty || m.stage != .flying || !s.ordered m then s
        else if r.space = 1 then
          match s.placeAt m.core m.slot1 with
          | none => s
          | some p =>
            if s.spkHeld m.core m.slot1 job then s
            else if !s.spkOpen m.core m.slot1 then runAct (fun _ => Act.failLoad m r.id 0x12 r.addr) s
            else if (s.dev.failing .spl (p.at m.addr) r.bytes).isSome then
              runAct (fun _ => do
                Act.logBad m.slot.1 2 r.addr job
                Act.failLoad m r.id 0x40 r.addr) s
            else
              let bs := s.mems.read .spl (p.at m.addr) r.bytes
              runAct (fun _ => do
                Act.correctFor m.core m.slot1 [(.spl, p.at m.addr, r.bytes)]
                Act.deliver m r.id .ready (if r.sz ≠ 7 then (szExtend r.sz (leNat bs)).toNat else leNat bs)) s
        else
          let t := { s with free := s.free + 1 }
          match s.farValue r m.slot.1 with
          | .ok v =>
            runAct (fun _ => do
              Act.correctFor m.slot.1 m.slot.2 r.farReads
              Act.deliver m r.id .ready v) t
          | .error (.cause c) => runAct (fun _ => Act.failLoad m r.id c r.addr) t
          | .error (.bad c) =>
            runAct (fun _ => do
              if r.space ≠ 4 then Act.logBad m.slot.1 12 r.addr job
              Act.failLoad m r.id c r.addr) t
          | .error (.need va) =>
            match s.contextThread m.slot.1 m.slot.2 m.ctx with
            | none => s
            | some th =>
              let cl := clusterOf m.slot.1
              match s.dev.find m.slot.1 m.ctx va with
              | some (p, d) => { s with dev := d.updMsg n fun m =>
                  { m with kind := .load { r with got := (va, .leaf p) :: r.got } } }
              | none => { s with dev := (s.dev.request cl m.ctx th.root va m.part []).updMsg n fun m =>
                  { m with kind := .load { r with need := [va] } } }
      | _ => s)

/-! ### Walks (R394, R397) -/

/-- A load that waits for a page of a walk takes its result. -/
def Msg.walked (m : Msg) (w : Walk) (res : PageRes) : Msg :=
  match m.kind with
  | .load r =>
    if m.ctx = w.ctx ∧ clusterOf m.slot.1 = w.cl ∧ r.need.contains w.va then
      { m with kind := .load { r with need := r.need.filter (· != w.va), got := (w.va, res) :: r.got } }
    else m
  | _ => m

/-- A leaf put into the cluster's TLB and into those of the cores that wait for it (R396, R397). -/
def Dev.fillTlbs (d : Dev) (w : Walk) (p : Pte) : Dev :=
  let cores := (w.who.filterMap fun x => match x.1 with | .slot c _ => some c | _ => none) ++
    d.net.filterMap fun m => match m.kind with
      | .load r => if m.ctx = w.ctx ∧ clusterOf m.slot.1 = w.cl ∧ r.need.contains w.va then some m.slot.1 else none
      | _ => none
  { d with ctlb := tlbAdd d.ctlb w.cl 4096 p, tlb := cores.foldl (fun l c => tlbAdd l c 256 p) d.tlb }

/-- The core and slot for which a walk is made: the first that waits for it, or the S-core of its cluster. -/
def Walk.reader (w : Walk) : Nat × Bool :=
  (w.who.findSome? fun x => match x.1 with | .slot p b => some (p, b) | _ => none).getD (5 * w.cl + 4, false)

/-- The log record of a walk that meets a failing word (R426, R427): with the page's address, for the first core that waits
for it. -/
def Act.logWalk {s0 : State} (w : Walk) : Act s0 Unit := do
  let s ← Act.cur
  let bound := ((s.packed :: s.rest).flatMap fun c => [c.t0, c.t1]).filterMap (·.bound)
  Act.log w.part 4 0x40 12 w.reader.1 (BitVec.ofNat 64 w.va) ((bound.find? fun b => b.ctx == w.ctx).elim 0 (·.job)) 0

/-- PAGE_WALK_COMPLETE (R394, R396..R398, R424, R427): a walk reads its levels; a leaf fills the TLBs, and a failure reaches
each access that waits for it. -/
def execPageWalkComplete (n : Nat) (s : State) : Out :=
  .next (match s.dev.walks[n]? with
    | none => s
    | some w =>
      let res := walkTables s.mems s.dev w.part w.ctx w.root w.va
      let d1 := match res with | .leaf p => s.dev.fillTlbs w p | .fail _ => s.dev
      let failed := match res with
        | .leaf _ => []
        | .fail c => w.who.map fun x => { who := x.1, fetch := x.2, va := w.va, code := c : WalkDone }
      let t := { s with dev := { d1.countEv 17 w.cl 1 with
          walks := d1.walks.eraseIdx n
          net := d1.net.map fun m => m.walked w res
          walked := d1.walked ++ failed } }
      runAct (fun _ => do
        Act.correctFor w.reader.1 w.reader.2 (walkReads s.mems s.dev w.part w.ctx w.root w.va)
        if res = .fail 0x40 then Act.logWalk w) t)

/-! ### Atomics (R237..R239, R291, R292) -/

/-- The new value of an atomic (R237), of w bits. -/
def amoNew (aop w : Nat) (old x y : Nat) : Nat :=
  let sgn (v : Nat) : Int := if 2 ^ (w - 1) ≤ v then (v : Int) - (2 ^ w : Nat) else v
  let x := x % 2 ^ w
  match aop with
  | 0 => (old + x) % 2 ^ w
  | 1 => old &&& x
  | 2 => old ||| x
  | 3 => old ^^^ x
  | 4 => if sgn x < sgn old then x else old
  | 5 => if sgn old < sgn x then x else old
  | 6 => Nat.min old x
  | 7 => Nat.max old x
  | 8 => x
  | 9 => if old = x then y % 2 ^ w else old
  | _ => accumulate 0 old (fv x)

/-- Whether an earlier write of the party within the scope is still unanswered (R291). -/
def State.unreleased (s : State) (m : Msg) (r : AmoReq) : Bool :=
  (ahead m.id s.dev.net).any fun x => x.src == m.src && x.ctx == m.ctx && x.isWrite && s.within r.scope m.src x

/-- ATOMIC_PERFORM (R238, R291, R292): one indivisible read, modify and write, after the earlier writes within its scope
are answered; at a line whose requester lies outside the scope, at once. DESIGN CHOICE (log 85): an atomic that meets a failing word
sets SCOPEMIS all the same when its scope missed the line's requester. -/
def execAtomicPerform (n : Nat) (s : State) : Out :=
  .next (match s.dev.msg n with
    | none => s
    | some m =>
      match m.kind with
      | .amo r =>
        let mis := s.dev.scopeMiss m r
        if r.done || m.stage != .flying || !s.ordered m || (!mis && s.unreleased m r) then s
        else
          let sp := if r.host then Space.host else .hbm
          let w := if r.word then 4 else 8
          if !r.host && (s.dev.failing .hbm r.pa w).isSome then
            runAct (fun _ => do
              Act.logBad m.slot.1 12 m.raddr m.job
              Act.dev fun d => d.updMsg n fun m => { m with
                stage := .answered 0x40 0, kind := .amo { r with done := true, mis := mis } }) s
          else
            let old := s.mems.nat sp r.pa w
            runAct (fun _ => do
              Act.correctFor m.slot.1 m.slot.2 [(sp, r.pa, w)]
              Act.write sp r.pa (leBytes w (amoNew r.aop (8 * w) old r.x.toNat r.y.toNat))
              Act.dev fun d => { d with lines := (r.line, m.src) :: d.lines.filter fun x => x.1 != r.line }
              Act.dev fun d => d.updMsg n fun m => { m with
                stage := .answered 0 0
                kind := .amo { r with done := true, mis := mis, old := BitVec.ofNat 64 old } }) s
      | _ => s)

/-- ATOMIC_ANSWER (R225, R239): the answer reaches the issuer: the old value, an error response, and SCOPEMIS when the
scope missed the line's requester. -/
def execAtomicAnswer (n : Nat) (s : State) : Out :=
  .next (match s.dev.msg n with
    | none => s
    | some m =>
      match m.kind, m.stage with
      | .amo r, .answered code _ =>
        runAct (fun _ => do
          if r.mis then Act.ofContext m.slot.1 m.slot.2 m.ctx fun t => t.setStat flSCOPEMIS
          if r.ret then
            if code = 0 then
              Act.deliver m r.id .ready (if r.word then (szExtend 1 r.old.toNat).toNat else r.old.toNat)
            else Act.failLoad m r.id code m.raddr
          else do
            if code ≠ 0 then Act.report m.slot.1 m.slot.2 m.ctx code m.rkind m.raddr
            Act.dev fun d => d.dropMsg m.id) s
      | _, _ => s)

/-- ECC_WRITEBACK (R424): a queued write-back of a corrected HBM word is performed. -/
def execEccWriteback (n : Nat) (s : State) : Out :=
  .next (match s.dev.writebacks[n]? with
    | none => s
    | some w => { s with dev := { s.dev with
        writebacks := s.dev.writebacks.eraseIdx n
        weak := s.dev.weak.filter fun x => !(x.1 == 12 && x.2 == w) } })

end Sys2Proof.Machine
end

