-- ==== Sys2Proof/Machine/Fabric.lean ====
section
/-! DEFINITION. Writes at the port that performs them (R215, R217, R218, R222..R226, R234, R277, R298..R303, R305, R368) and
their answers. -/
namespace Sys2Proof.Machine

/-! ### The receiving port agent (R298..R302) -/

/-- A pod or peer address as a log record or a refusal names it (R209, R296). -/
def Msg.podAddr (m : Msg) : U64 :=
  if m.kind = .pod .phm then BitVec.ofNat 64 (m.dev % 1024 * 2 ^ 54 + m.addr % 2 ^ 48)
  else BitVec.ofNat 64 (m.dev % 1024 * 2 ^ 54 + m.core % 256 * 2 ^ 46 + m.addr % 2 ^ 20)

/-- The UNIT of a log record for a write that reaches no core (R431): the core that issued it, or for one from another device the
fabric port through which it came, + 256. -/
def Dev.unitOf (d : Dev) (m : Msg) : Nat :=
  match m.src with
  | .slot phys _ => phys
  | .outside dev _ => 256 + ((d.job m.job).bind fun j => j.devs[dev]?).elim 0 (·.port)
  | _ => 0

/-- The bytes that a write covers at its destination: an addition covers its word. -/
def Msg.size (m : Msg) : Nat :=
  match m.kind with
  | .pod .radd | .pod .flag => 4
  | .pod .seal => 1
  | _ => m.data.length

/-- The right that a write needs (R224, R265, R266): 0 `w`, 1 `a`, 2 `t`. -/
def Msg.right (m : Msg) : Nat :=
  match m.kind with
  | .pod .radd | .pod .flag => 1
  | .pod .route | .pod .seal => 2
  | .pod .qput | .pod .phm => 0
  | _ => if m.tag then 2 else 0

/-- A segment entry holds a right. -/
def Segment.allows (e : Segment) (right : Nat) : Bool := match right with | 0 => e.w | 1 => e.a | _ => e.t

/-- Whether an entry matches a write of n bytes at o (R301); a PHM put matches the device range alone. -/
def Segment.admits (e : Segment) (m : Msg) (o n : Nat) : Bool :=
  e.valid && e.dlo ≤ m.srcDev && m.srcDev ≤ e.dhi && e.allows m.right &&
    (m.kind == .pod .phm || (e.clo ≤ m.core && m.core ≤ e.chi && e.olo ≤ o && o + n ≤ e.ohi + 1))

/-- Whether some segment entry of the job matches (R301). -/
def Dev.segmentOk (d : Dev) (m : Msg) (o n : Nat) : Bool := (d.job m.job).any fun j => j.segs.any fun e => e.2.admits m o n

/-- What the receiving port agent does with a write (R302, R368): rejects it, fails it, finds its context suspended, or
delivers it to a place. -/
inductive Verdict where
  | reject
  | fail
  | suspended (ctx : Nat)
  | deliver (p : Place)
  deriving DecidableEq, Repr

/-- The core map steps (R299, R302 steps 3 and 4, R368). -/
def State.locate (s : State) (m : Msg) (bounded : Bool) : Verdict :=
  match s.dev.mapped m.job m.core with
  | none => .fail
  | some e =>
    match s.placeAt e.phys e.slot1 with
    | none => .fail
    | some p =>
      if bounded && p.size < m.addr + m.size then .fail
      else if s.present e then .deliver p
      else .suspended e.ctx

/-- The steps of R302 for a write that names its own offsets. -/
def State.judge (s : State) (m : Msg) : Verdict :=
  if (s.dev.job m.job).isNone ∨ !s.dev.segmentOk m m.addr m.size then .reject else s.locate m true

/-- The steps of R302 for a queue entry or a seal: the segment is matched later. -/
def State.admitRegion (s : State) (m : Msg) : Verdict := if (s.dev.job m.job).isNone then .reject else s.locate m false

/-- The answer to a message starts on its way (R225, R285). -/
def Act.answer {s0 : State} (n : Nat) (code : Byte) (free : Nat) : Act s0 Unit :=
  Act.dev fun d => d.updMsg n fun m => { m with stage := .answered code free }

/-- A message reaches the port that performs it. -/
def Act.arrived {s0 : State} (n : Nat) : Act s0 Unit := Act.dev fun d => d.updMsg n fun m => { m with stage := .atPort }

/-- A log record in the partition that owns the destination core, or the device's when no partition does (R431). -/
def Act.logAt {s0 : State} (phys : Option Nat) (kind : Nat) (cause : Byte) (addr : U64) (job src : Nat) : Act s0 Unit := do
  let s ← Act.cur
  match phys.bind s.dev.partOf with
  | some p => Act.log p.num kind cause 0xFF (phys.getD 0) addr job src
  | none => Act.logDevice kind cause 0xFF (phys.getD 0) job

/-- A rejection (R302, R431, R433): error response 0x13. At step 1 no job on this device is named, and the device logs it; at step
2 it is logged with the pod address and the job, in the partition of the destination core, or of the job where the write
names none. -/
def Act.reject {s0 : State} (m : Msg) : Act s0 Unit := do
  let s ← Act.cur
  Act.answer m.id 0x13 0
  match s.dev.job m.job with
  | none => Act.logDevice 1 0x13 0xFF (s.dev.unitOf m) m.job
  | some j =>
    let core := if m.kind = .pod .phm then none else (s.dev.mapped m.job m.core).map (·.phys)
    Act.log (((core.bind s.dev.partOf).map (·.num)).getD j.part) 1 0x13 0xFF (core.getD (s.dev.unitOf m)) m.podAddr m.job m.srcDev

/-- The cell address that the log record of a dropped write names (R218): the pod address, or for a cluster store, which has
none, the array form of R428 (log 71). -/
def Msg.cellAddr (m : Msg) (s : State) : U64 :=
  match m.kind with
  | .spk => arrayWord 2 ((s.placeAt m.core m.slot1).elim m.addr fun p => p.first + m.addr)
  | _ => m.podAddr

/-- A refusal (R218): an entry on the core's list and the write parked; with the list full the write is dropped with a
presence overrun. -/
def Act.refuse {s0 : State} (m : Msg) (phys : Nat) (what : Refused) : Act s0 Unit := do
  let s ← Act.cur
  if 64 ≤ s.dev.refs.countP fun e => e.phys == phys then do
    Act.answer m.id 0x14 0
    Act.logAt (some phys) 2 0x14 (m.cellAddr s) m.job m.srcDev
  else
    Act.dev fun d => { ((d.updMsg m.id fun m => { m with stage := .parked }).countEv 20 (clusterOf phys) 1) with
      refs := d.refs ++ [⟨phys, what, m.id⟩] }

/-- An uncorrectable error met at the destination (R426, R427, R431): error response 0x40, logged with the array and the offset
at which the write meets it. -/
def Act.failBad {s0 : State} (m : Msg) (p : Place) (arr off : Nat) : Act s0 Unit := do
  Act.answer m.id 0x40 0
  Act.logBad p.phys arr (arrayWord arr (p.first + off)) m.job

/-- A queue region's pointers that fail (R423, R426; log 20): error response 0x40, logged with the region's number. -/
def Act.failPointers {s0 : State} (m : Msg) (p : Place) : Act s0 Unit := do
  Act.answer m.id 0x40 0
  Act.logBad p.phys 3 (arrayWord 3 m.region) m.job

/-- A write from another device as a message of its own (R298). -/
def outsideMsg (w : OutsideWrite) (s : State) : Msg :=
  { s.blank (.pod w.kind) with
    id := s.dev.nextMsg, src := .outside w.srcDev w.srcParty, ctx := 0, job := w.job, part := 0, srcDev := w.srcDev
    path := w.tier.toNat, dev := (s.dev.job w.job).elim 0 (·.self), core := w.core, addr := w.off, tag := w.tag
    region := w.off % 16, esz := w.esz, data := w.data }

/-- A write handled by the receiving port agent (R302, R305): rejected, failed, refused for a suspended context, performed
at once when it is plain and its party's order allows it (R281), or left at the port for its own operation. -/
def State.arrive (s : State) (m : Msg) : State :=
  let n := m.id
  match m.kind with
  | .pod .phm =>
    if (s.dev.job m.job).isNone ∨ !s.dev.segmentOk m m.addr m.size then runAct (fun _ => Act.reject m) s
    else runAct (fun _ => Act.arrived n) s
  | .pod .qput =>
    match s.admitRegion m with
    | .reject => runAct (fun _ => Act.reject m) s
    | .fail => runAct (fun _ => Act.answer n 0x41 0) s
    | .suspended c => runAct (fun _ => Act.refuse m ((s.dev.mapped m.job m.core).elim 0 (·.phys)) (.context c)) s
    | .deliver _ => runAct (fun _ => Act.arrived n) s
  | .pod .route | .pod .seal => runAct (fun _ => Act.arrived n) s
  | _ =>
    match s.judge m with
    | .reject => runAct (fun _ => Act.reject m) s
    | .fail => runAct (fun _ => Act.answer n 0x41 0) s
    | .suspended c => runAct (fun _ => Act.refuse m ((s.dev.mapped m.job m.core).elim 0 (·.phys)) (.context c)) s
    | .deliver p =>
      if m.tag || m.right = 1 then runAct (fun _ => Act.arrived n) s
      else if (s.dev.partFailing .spl (p.at m.addr) m.data.length).isSome then runAct (fun _ => Act.failBad m p 2 m.addr) s
      else runAct (fun _ => do
        Act.correctPart p.phys p.slot1 .spl (p.at m.addr) m.data.length
        Act.write .spl (p.at m.addr) m.data
        Act.answer n 0 0) s

/-- Whether nothing on its way here goes before a message that comes behind all of it (R282). -/
def State.nothingBefore (s : State) (m : Msg) : Bool := s.dev.net.all fun x => !s.before x m

/-- WRITE_ARRIVAL (R282, R302, R303, R305): a pod write on its way, or one from another device, reaches its receiving port
agent; one from another device waits behind its party's earlier writes to the same core on the same tier. -/
def execWriteArrival (w : Arrival) (s : State) : Out :=
  .next (match w with
    | .queued n =>
      match s.dev.msg n with
      | some m =>
        match m.kind with
        | .pod _ => if m.stage = .flying ∧ !s.dev.leaves m ∧ s.ordered m then s.arrive m else s
        | _ => s
      | none => s
    | .outside w =>
      let m := outsideMsg w s
      let t := { s with dev := { s.dev with net := s.dev.net ++ [m], nextMsg := s.dev.nextMsg + 1 } }
      if s.nothingBefore m then t.arrive m else t)

/-! ### The port's operations -/

/-- An operation of the port on a message that stands at it (R302, R305, R368): it finds the destination as it is now, so that a
write whose context has been suspended or has ended meanwhile is refused or answered, and none stays at the port. -/
def State.atPort (s : State) (n : Nat) (kind : Msg → Bool) (f : Msg → Place → State) : State :=
  match s.dev.msg n with
  | none => s
  | some m =>
    if m.stage ≠ .atPort ∨ !kind m then s
    else
      match if m.byRegion then s.admitRegion m else s.judge m with
      | .reject => runAct (fun _ => Act.reject m) s
      | .fail => runAct (fun _ => Act.answer n 0x41 0) s
      | .suspended c => runAct (fun _ => Act.refuse m ((s.dev.mapped m.job m.core).elim 0 (·.phys)) (.context c)) s
      | .deliver p => f m p

/-- A tagged write at its cell (R217, R218). -/
def State.taggedAt (s : State) (m : Msg) (p : Place) : State :=
  let c := p.cell m.addr
  let t := s.mems.tag c
  let size := m.data.length
  if s.dev.badTags.contains c then runAct (fun _ => Act.failBad m p 3 m.addr) s
  else if t.full || (!m.retry && s.dev.refs.any fun e => e.phys == p.phys && e.what == .cell c) then
    runAct (fun _ => Act.refuse m p.phys (.cell c)) s
  else if (s.dev.partFailing .spl (p.at m.addr) size).isSome then runAct (fun _ => Act.failBad m p 2 m.addr) s
  else
    let count := t.count.toNat + size
    runAct (fun _ => do
      Act.correctPart p.phys p.slot1 .spl (p.at m.addr) size
      Act.write .spl (p.at m.addr) m.data
      Act.tag c { t with count := BitVec.ofNat 11 count, full := t.exp.toNat ≤ count }
      Act.dev fun d => d.countEv 19 (clusterOf p.phys) 1
      Act.answer m.id 0 0) s

/-- TAGGED_WRITE (R217, R218, R427). -/
def execTaggedWrite (n : Nat) (s : State) : Out :=
  .next (s.atPort n (fun m => m.tag && m.kind == .pod .put) s.taggedAt)

/-- RELEASE (R218): the sender of a released write sends it again. -/
def execRelease (n : Nat) (s : State) : Out :=
  .next { s with dev := s.dev.updMsg n fun m => if m.stage = .released then { m with stage := .flying, retry := true } else m }

/-- An addition at a word (R222, R232): one operation of the port. -/
def State.addAt (s : State) (m : Msg) (p : Place) (x : Nat) : State :=
  let k := p.at m.addr
  if (s.dev.partFailing .spl k 4).isSome then runAct (fun _ => Act.failBad m p 2 m.addr) s
  else runAct (fun _ => do
    Act.correctFor p.phys p.slot1 [(.spl, k, 4)]
    Act.write .spl k (leBytes 4 ((s.mems.nat .spl k 4 + x) % 2 ^ 32))
    Act.answer m.id 0 0) s

/-- RADD_PERFORM (R222). -/
def execRaddPerform (n : Nat) (s : State) : Out :=
  .next (s.atPort n (fun m => m.kind == .pod .radd) fun m p => s.addAt m p (leNat m.data))

/-- FLAG_INCREMENT (R222, R283). -/
def execFlagIncrement (n : Nat) (s : State) : Out :=
  .next (s.atPort n (fun m => m.kind == .pod .flag) fun m p => s.addAt m p 1)

/-- The pointers of a region of any slot replaced. -/
def Act.setRegion {s0 : State} (p : Place) (n : Nat) (q : QRegion) : Act s0 Unit :=
  Act.thread p.phys p.slot1 fun t => { t with sp := t.sp.setRegion n q }

/-- A region of the slot at a place. -/
def State.regionAt (s : State) (p : Place) (n : Nat) : QRegion :=
  (s.threadAt p.phys p.slot1).elim ⟨false, 0, 16, 0, 0, 0, 0, 0⟩ fun t => t.sp.region n

/-- QPUT_ARRIVAL (R234, R302, R427). -/
def execQputArrival (n : Nat) (s : State) : Out :=
  .next (s.atPort n (fun m => m.kind == .pod .qput) fun m p =>
    let q := s.regionAt p m.region
    if !q.en ∨ q.esz ≠ m.esz then runAct (fun _ => Act.answer n 0x41 0) s
    else if s.dev.badTags.contains (regionKey (slotNo p.phys p.slot1) m.region) then runAct (fun _ => Act.failPointers m p) s
    else if !s.dev.segmentOk m q.next q.entry then runAct (fun _ => Act.reject m) s
    else if q.pop + q.full = q.cap ∨ (!m.retry ∧ s.dev.refs.any fun e => e.phys == p.phys && e.what == .region p.slot1 m.region) then
      runAct (fun _ => Act.refuse m p.phys (.region p.slot1 m.region)) s
    else if (s.dev.partFailing .spl (p.at q.next) q.entry).isSome then runAct (fun _ => Act.failBad m p 2 q.next) s
    else runAct (fun _ => do
      Act.write .spl (p.at q.next) m.data
      Act.setRegion p m.region { q with full := q.full + 1 }
      Act.answer n 0 (q.cap - q.pop - q.full - 1)) s)

/-- A store that the slot's own port has held (R186, R255) is performed: nothing answers it. A word of it that has come to fail
in part meanwhile takes the store's bytes no more, and is recorded as an error response is (R427; log 68). -/
def execOwnStore (n : Nat) (s : State) : Out :=
  .next (match s.dev.msg n with
    | some m =>
      match s.placeAt m.core m.slot1 with
      | some p =>
        if m.kind ≠ .own ∨ !s.ordered m then s
        else if (s.dev.partFailing .spl (p.at m.addr) m.data.length).isSome then
          runAct (fun _ => do
            Act.report m.core m.slot1 m.ctx 0x40 0 m.raddr
            Act.logBad m.core 2 (arrayWord 2 (p.first + m.addr)) m.job
            Act.dev fun d => d.dropMsg n) s
        else runAct (fun _ => do
          Act.correctPart p.phys p.slot1 .spl (p.at m.addr) m.data.length
          Act.write .spl (p.at m.addr) m.data
          Act.dev fun d => d.dropMsg n) s
      | none => s
    | none => s)

/-- SPK_STORE_PERFORM (R215, R217, R281, R282): held while the only task at its place is suspended (R368), and answered with
error response 0x41 when no task of the job stands there any more (R305; log 92). -/
def execSpkStorePerform (n : Nat) (s : State) : Out :=
  .next (match s.dev.msg n with
    | some m =>
      match s.placeAt m.core m.slot1 with
      | some p =>
        if m.kind ≠ .spk ∨ m.stage ≠ .flying ∨ !s.ordered m ∨ s.spkHeld m.core m.slot1 m.job then s
        else if !s.spkOpen m.core m.slot1 then runAct (fun _ => Act.answer n 0x41 0) s
        else if m.tag then s.taggedAt m p
        else if (s.dev.partFailing .spl (p.at m.addr) m.data.length).isSome then runAct (fun _ => Act.failBad m p 2 m.addr) s
        else runAct (fun _ => do
          Act.correctPart p.phys p.slot1 .spl (p.at m.addr) m.data.length
          Act.write .spl (p.at m.addr) m.data
          Act.answer n 0 0) s
      | none => s
    | none => s)

/-- Pieces of a store written. -/
def Act.pieces {s0 : State} (ps : List (Bool × Nat × List Byte)) : Act s0 Unit :=
  Act.each ps fun x => Act.write (if x.1 then .host else .hbm) x.2.1 x.2.2

/-- Whether a store covers part of a failing word (R427). -/
def Dev.storeFails (d : Dev) (ps : List (Bool × Nat × List Byte)) : Bool :=
  ps.any fun x => !x.1 && (d.partFailing .hbm x.2.1 x.2.2.length).isSome

/-- A copy transfer by its number: on its channel, or among those saved with a suspended context (R366). -/
def Dev.transfer (d : Dev) (cl ch serial : Nat) : Option Transfer :=
  ((d.chan cl ch).q.find? fun t => t.serial == serial).or
    (d.ctxs.findSome? fun c => (c.copies.find? fun x => x.2.serial == serial).map (·.2))

/-- The slot and context that a write's outcome is recorded with: the slot that issued it, or the issuer of the copy that
sent it (R249), suspended or not (R366). -/
def State.issuer (s : State) (m : Msg) : Option (Nat × Bool) :=
  match m.src with
  | .slot p b => some (p, b)
  | .channel cl ch => (s.dev.transfer cl ch m.owner).map fun t => (t.phys, t.slot1)
  | _ => none

/-- What a write's port reads is corrected (R424): counted with the slot that the write is of, or with the device when it came
from another. -/
def Act.correctOf {s0 : State} (m : Msg) (reads : List (Space × Nat × Nat)) : Act s0 Unit := do
  let s ← Act.cur
  match s.issuer m with
  | some (p, b) => Act.correctFor p b reads
  | none => Act.correctHere reads

/-- The table entries that the walks of a peer write read (R223, R394). -/
def State.peerReads (s : State) (m : Msg) : List (Space × Nat × Nat) :=
  match s.jobTables m.job with
  | some t => (pagesOf m.addr m.data.length).flatMap (walkReads s.mems s.dev t.part (bitsOf t.cx.ctxid 15 0) t.root)
  | none => []

/-- PHM_PUT_ARRIVAL (R223): translated for the job on this device; any failure is error response 0x41. -/
def execPhmPutArrival (n : Nat) (s : State) : Out :=
  .next (match s.dev.msg n with
    | some m =>
      if m.kind ≠ .pod .phm ∨ m.stage ≠ .atPort then s
      else
        let part := (s.dev.job m.job).elim 0 (·.part)
        let unit := s.dev.unitOf m
        let leafs := (pagesOf m.addr m.data.length).map (s.peerPage m.job)
        let ps := leafs.filterMap fun x => match x with
          | .leaf p => if pteFmt p.word = 0 ∧ p.denies ⟨false, true, false, some false⟩ = none then some p else none
          | .fail _ => none
        if ps.length ≠ leafs.length ∨ 2 ^ 48 < m.addr + m.data.length then
          runAct (fun _ => do
            Act.correctOf m (s.peerReads m)
            Act.answer n 0x41 0
            if leafs.contains (.fail 0x40) then Act.log part 4 0x40 12 unit (BitVec.ofNat 64 m.addr) m.job 0) s
        else
          let pcs := cutBytes (piecesOf ps m.addr 64 m.data.length) m.data
          if s.dev.storeFails pcs then
            runAct (fun _ => do
              Act.correctOf m (s.peerReads m)
              Act.answer n 0x40 0
              Act.log part 4 0x40 12 unit (BitVec.ofNat 64 m.addr) m.job 0) s
          else runAct (fun _ => do
            Act.correctOf m (s.peerReads m ++ pcs.flatMap fun x => partWords (if x.1 then .host else .hbm) x.2.1 x.2.2.length)
            Act.pieces pcs
            Act.answer n 0 0) s
    | none => s)

/-- HBM_STORE_PERFORM (R215, R281, R426). -/
def execHbmStorePerform (n : Nat) (s : State) : Out :=
  .next (match s.dev.msg n with
    | some m =>
      if m.kind ≠ .hbm ∨ m.stage ≠ .flying ∨ !s.ordered m then s
      else if s.dev.storeFails m.pieces then
        runAct (fun _ => do
          Act.answer n 0x40 0
          Act.logBad m.slot.1 12 m.raddr m.job) s
      else runAct (fun _ => do
        Act.each m.pieces fun x => Act.correctPart m.slot.1 m.slot.2 .hbm x.2.1 x.2.2.length
        Act.pieces m.pieces
        Act.answer n 0 0) s
    | none => s)

/-- HST_STORE_EMIT (R289): the host port emits the stores of each party in issue order. -/
def execHstStoreEmit (n : Nat) (s : State) : Out :=
  .next (match s.dev.msg n with
    | some m =>
      if m.kind ≠ .hst ∨ m.stage ≠ .flying ∨ !s.ordered m ∨
          (ahead n s.dev.net).any (fun x => x.src == m.src && x.kind == .hst && !x.performed) then s
      else runAct (fun _ => do
        Act.pieces m.pieces
        Act.answer n 0 0) s
    | none => s)

/-! ### Answers (R225, R226, R236, R249) -/

/-- The free-entry count of an acknowledged `qput` (R236). -/
def creditOf (m : Msg) (free : Nat) : U64 :=
  BitVec.ofNat 64 (bitsOf m.raddr 63 46 * 2 ^ 46 + m.region * 2 ^ 16 + free % 2 ^ 16)

/-- A peer's answer to a write of a collective (R261): a rejection asks for STATUS 4, any other error for STATUS 5. -/
def Dev.collHears (d : Dev) (m : Msg) (code : Byte) : Dev :=
  match m.src with
  | .collective die => { d.countEv 22 (32 + die) (if code = 0 then 0 else 1) with colls := d.colls.map fun c =>
      if c.serial = m.owner ∧ code ≠ 0 ∧ c.fail = 0 then { c with fail := if code = 0x13 then 4 else 5 } else c }
  | _ => d

/-- A write's answer reaches its sender (R225, R226, R236). -/
def State.answered (s : State) (m : Msg) (code : Byte) (free : Nat) : State :=
  runAct (fun _ => do
    match s.issuer m with
    | some (p, b) =>
      if code ≠ 0 then Act.report p b m.ctx code m.rkind m.raddr
      else if m.kind = .pod .qput then Act.ofContext p b m.ctx fun t => { t with sp := { t.sp with qcredit := creditOf m free } }
    | none => Act.done
    Act.dev fun d => (d.collHears m code).dropMsg m.id) s

/-- Whether a write belongs to a routing batch, whose answers ROUTE_SEND_ANSWER takes. -/
def Msg.routed (m : Msg) : Bool := m.kind == .pod .route || m.kind == .pod .seal

/-- WRITE_ANSWER (R225, R226): an acknowledgement or error response reaches the sender; the answer to a write that left the
device comes from outside. -/
def execWriteAnswer (n : Nat) (outside : Option RemoteAnswer) (s : State) : Out :=
  .next (match s.dev.msg n with
    | some m =>
      match m.kind with
      | .amo _ | .load _ => s
      | _ =>
        if m.routed then s
        else match m.stage, outside with
          | .answered code free, _ => s.answered m code free
          | .away, some a => s.answered m a.code a.free.toNat
          | _, _ => s
    | none => s)

end Sys2Proof.Machine
end

