-- ==== Sys2Proof/Machine/MatrixEng.lean ====
section
/-! DEFINITION. The matrix engine at work (R185, R187, R195, R256, R366, R382, R429): how the entry at the head of a slot's
queue begins and completes, accumulator transfers among them. -/
namespace Sys2Proof.Machine

/-! ### What an entry reads (R429) -/

/-- The words of the tables that an entry decodes with (R75, R182): an operand of codebook format has its own table, and a
scaled one the scale table. -/
def State.entryTables (s : State) (e : MqEntry) (i : Instr) : List (Nat × Nat) :=
  let words (typ : U16) (t : Nat) := (List.range (if typ.getLsbD 0 then 2 else 4)).map fun w => (t, w)
  let of (o : Operand) (t : Nat) := (if o.fmt = 5 then words o.tab.typ t else []) ++ if o.scaled then words 0 16 else []
  let a := of (s.opA e.shape e.gx e.tabs false) (shf e.shape 11)
  let b := of (s.opB e.shape e.gx e.tabs false) (shf e.shape 12)
  match i with
  | .mma _ _ _ _ _ _ _ _ _ | .mmasa _ _ _ _ _ _ _ _ _ | .mmasb _ _ _ _ _ _ _ _ _ | .mmam _ _ _ _ _ _ => a ++ b
  | .arsum _ _ _ _ _ _ _ _ => a
  | .acsum _ _ _ _ _ _ _ _ => b
  | _ => []

/-- Consecutive writes joined, so that a word that they cover together is covered whole. -/
def joinWrites : List (Space × Nat × List Byte) → List (Space × Nat × List Byte)
  | [] => []
  | w :: ws =>
    match joinWrites ws with
    | [] => [w]
    | x :: xs => if w.1 = x.1 ∧ w.2.1 + w.2.2.length = x.2.1 then (w.1, w.2.1, w.2.2 ++ x.2.2) :: xs else w :: x :: xs

/-- The value of %mecc for a failing byte (R428, R429): its array and its place in the array. -/
def meccOf (sp : Space) (a : Nat) : U64 :=
  BitVec.ofNat 64 (2 ^ 63 + arrayOf sp * 2 ^ 59 + (if sp = .acc then a % 2 ^ 23 else a % 2 ^ 20))

/-- The value of %mecc for a failing word of a table (R428, R429). -/
def meccTable (t w : Nat) : U64 := BitVec.ofNat 64 (2 ^ 63 + 9 * 2 ^ 59 + 32 * t + 8 * w)

/-- The first failing byte that an entry meets: among those it reads, its tables after them, or in a word that it would
write in part (log 33). -/
def State.entryBad (s : State) (reads : List (Space × Nat × Nat)) (tabs : List (Nat × Nat))
    (ws : List (Space × Nat × List Byte)) : Option U64 :=
  if s.dev.bad.isEmpty then none
  else
    let read := reads.findSome? fun r => (s.dev.failing r.1 r.2.1 r.2.2).map (meccOf r.1)
    let tab := (tabs.find? fun x => s.dev.bad.contains (9, tableWord s.core.phys x.1 x.2)).map fun x => meccTable x.1 x.2
    match read.or tab with
    | some x => some x
    | none => ws.findSome? fun w => (s.dev.partFailing w.1 w.2.1 w.2.2.length).map (meccOf w.1)

/-- Bytes that the spec leaves open (log 7). -/
def openBytes (free lo n : Nat) : List Byte := (List.range n).map fun x => BitVec.ofNat 8 (Config.freeBits free (lo + x))

/-- What a stopped entry leaves (R429): unspecified bytes in every granule that it writes, or in its output. -/
def State.openWrites (s : State) (e : MqEntry) (i : Instr) : List (Space × Nat × List Byte) :=
  let x := entryGranules i e.shape
  match e.drainRows with
  | some (b, st, len, rows) => (List.range rows).map fun r => (.spl, s.splAt (b + st * r), openBytes s.free (len * r) len)
  | none =>
    if x.2.2 then (List.range x.2.1).map fun n => (.acc, s.accAt (x.1 + n) 0 0, openBytes s.free (4096 * n) 4096) else []

/-- Writes of an entry performed. -/
def Act.writes {s0 : State} (ws : List (Space × Nat × List Byte)) : Act s0 Unit :=
  Act.each ws fun w => Act.write w.1 w.2.1 w.2.2

/-- A fault of a moment product recorded while none is (R195). -/
def Sprs.recordMfault (r : Sprs) (x : Option U64) : Sprs :=
  match x with
  | some v => if r.mfault.getLsbD 63 then r else { r with mfault := v }
  | none => r

/-- An uncorrectable read recorded while none is (R429). -/
def Sprs.recordMecc (r : Sprs) (v : U64) : Sprs := if r.mecc.getLsbD 63 then r else { r with mecc := v }

/-- An instruction's entry completes (R185, R195, R429). -/
def State.completeIns (s : State) (e : MqEntry) (i : Instr) : State :=
  let out := s.runEntry e i
  let ws := joinWrites out.writes
  let reads := s.entryReads e i
  match s.entryBad reads (s.entryTables e i) ws with
  | some v =>
    runAct (fun _ => do
      Act.writes (s.openWrites e i)
      Act.me fun t => { t with sp := t.sp.recordMecc v }
      Act.logBad s.core.phys (bitsOf v 62 59) v (s.me.bound.elim 0 (·.job))
      Act.upd fun t => { t with free := t.free + 1 }) s
  | none =>
    runAct (fun _ => do
      Act.each reads fun r => Act.readCorrected r.1 r.2.1 r.2.2
      Act.each ws fun w => Act.correctPart s.core.phys s.me.slot1 w.1 w.2.1 w.2.2.length
      Act.writes ws
      Act.me fun t => { t.setStat out.stat with sp := (t.setStat out.stat).sp.recordMfault out.mfault }) s

/-! ### Accumulator transfers (R382) -/

/-- The page of a transfer's granule: at supervisor level, RAW, device memory, and writable for a spill. -/
def State.xferPage (s : State) (va : Nat) (write : Bool) : EngPage :=
  let check (p : Pte) : EngPage :=
    match p.denies ⟨true, write, false, some false⟩ with
    | some c => .deny c
    | none => if pteFmt p.word ≠ 0 then .deny 0x12 else .leaf p
  if 2 ^ 48 ≤ va then .deny 0x11
  else
    match s.failedWalk false va with
    | some c => .deny c
    | none =>
      match s.dev.clusterHit (clusterOf s.core.phys) s.ctx va with
      | some p => check p
      | none => .miss

/-- How a transfer ends: every granule moved, a page to walk first, or the failing granule and its cause, with the array and
the ADDR of the log record where a word of the granule fails (R426, R428). -/
inductive XferEnd where
  | whole
  | miss (va : Nat)
  | fail (g : Nat) (code : Byte) (bad : Option (Nat × U64))
  deriving DecidableEq, Repr

/-- The moves of a transfer up to its end (R382): from and to. -/
def State.xferMoves (s : State) (spill : Bool) (base : Nat) : List Nat → List (Nat × Nat) × XferEnd
  | [] => ([], .whole)
  | g :: gs =>
    let va := base + 4096 * g
    match s.xferPage va spill with
    | .miss => ([], .miss va)
    | .deny c => ([], .fail g c none)
    | .leaf p =>
      let acc := s.accAt g 0 0
      let pa := p.phys va
      let bad := if spill then (s.dev.failing .acc acc 4096).map fun a => (4, arrayWord 4 (a % 2 ^ 23))
        else (s.dev.failing .hbm pa 4096).map fun a => (12, BitVec.ofNat 64 (va + (a - pa)))
      if bad.isSome then ([], .fail g 0x40 bad)
      else
        let r := s.xferMoves spill base gs
        ((acc, pa) :: r.1, r.2)

/-- %accxfer after a failure at granule f (R382). -/
def xferFailed (v : U64) (f : Nat) (code : Byte) : U64 :=
  BitVec.ofNat 64 (bitsOf v 63 62 * 2 ^ 62 + 2 ^ 61 + code.toNat * 2 ^ 27 +
    (bitsOf v 10 0 + bitsOf v 26 16 - f) * 2 ^ 16 + f)

/-- The dirty bits that a failure sets again: those of the captured granules from f on. -/
def xferRemark (d mask : Vector U64 32) (f : Nat) : Vector U64 32 :=
  Vector.ofFn fun w : Fin 32 =>
    (List.range 64).foldl (fun (x : U64) b =>
      if f ≤ 64 * w.val + b ∧ mask[w].getLsbD b then x ||| (1#64 <<< b) else x) d[w]

/-- A transfer's granules moved, what is read of them corrected (R424). -/
def Act.moveGranules {s0 : State} (spill : Bool) (ms : List (Nat × Nat)) : Act s0 Unit :=
  Act.each ms fun m => do
    let s ← Act.cur
    Act.correctFor s.core.phys s.me.slot1 [if spill then (.acc, m.1, 4096) else (.hbm, m.2, 4096)]
    if spill then Act.write .hbm m.2 (s.mems.read .acc m.1 4096) else Act.write .acc m.1 (s.mems.read .hbm m.2 4096)

/-- A transfer is carried out (R382): none when a page must be walked first. -/
def State.completeXfer (s : State) (e : MqEntry) (v : U64) (mask : Vector U64 32) : Option State :=
  let spill := !v.getLsbD 63
  let r := s.xferMoves spill e.base.toNat (xferGranules v mask)
  match r.2 with
  | .miss _ => none
  | .whole => some (runAct (fun _ => Act.moveGranules spill r.1) s)
  | .fail f code bad =>
    some (runAct (fun _ => do
      Act.moveGranules spill r.1
      match bad with
      | some b => Act.logBad s.core.phys b.1 b.2 (s.me.bound.elim 0 (·.job))
      | none => Act.done
      Act.me fun t => { t with cx := { t.cx with
        accxfer := xferFailed v f code
        accfail := e.base + BitVec.ofNat 64 (4096 * f)
        accdirty := if v.getLsbD 62 then xferRemark t.cx.accdirty mask f else t.cx.accdirty } }) s)

/-! ### Steps of the queue -/

/-- The head entry off the queue. -/
def State.popEntry (s : State) : State := { s with me := { s.me with mq := s.me.mq.drop 1 } }

/-- The head entry completes, when nothing keeps it from completing. -/
def State.completeEntry (s : State) : Option State :=
  match s.me.mq with
  | [] => none
  | e :: _ =>
    (match e.op with
      | .ins i => some (s.popEntry.completeIns e i)
      | .xfer v mask => (s.completeXfer e v mask).map State.popEntry).map fun (t : State) => t.countEv 10 1

/-- Whether a FOLLOW copy has written every row (R256). -/
def Dev.copied (d : Dev) (serial : Nat) : Bool :=
  !(d.chans.any fun c => c.q.any fun t => t.serial == serial && !(t.rows && rowCount t.shape ≤ t.row)) &&
    !(d.net.any fun m => m.owner == serial && !m.performed)

/-- Whether an operand is that of a core on which no context is bound and one of the job is suspended (R368). -/
def State.neighbourHeld (s : State) (code : Nat) : Bool :=
  code != 0 &&
    (let p := 5 * clusterOf s.core.phys + (code - 1)
     p != s.core.phys && !((s.coreAt p).any fun c => c.slots.any fun t => t.bound.isSome) &&
       s.dev.ctxs.any fun c => c.phys == p && s.me.bound.any fun b => b.job == c.bound.job)

/-- Whether an earlier access of the slot keeps an entry from beginning (R186, R281, R291): an access to bytes that it writes, a
write to bytes that it reads, or a returning atomic. -/
def State.entryBehind (s : State) (e : MqEntry) : Bool :=
  s.dev.net.any fun m => m.src == s.party && m.id < e.mark && !m.performed &&
    (s.dev.acquires m || e.unsure m || meets (s.touches m) (s.entryOut e) || (m.isWrite && meets (s.touches m) (s.entryIn e)))

/-- Whether an entry can begin (R186, R256, R291, R368). -/
def State.canStart (s : State) (e : MqEntry) : Bool :=
  e.follow.all (fun f => s.dev.copied f.2) && !s.entryBehind e &&
    match e.op with
    | .ins (.mma _ _ _ _ _ _ _ _ _) | .ins (.mmasa _ _ _ _ _ _ _ _ _) | .ins (.mmasb _ _ _ _ _ _ _ _ _)
    | .ins (.mmam _ _ _ _ _ _) => !s.neighbourHeld (shf e.shape 15) && !s.neighbourHeld (shf e.shape 16)
    | .ins (.arsum _ _ _ _ _ _ _ _) => !s.neighbourHeld (shf e.shape 15)
    | .ins (.acsum _ _ _ _ _ _ _ _) => !s.neighbourHeld (shf e.shape 16)
    | _ => true

/-- MATRIX_ENTRY_START (R185, R256): the head of the queue begins. -/
def execMatrixEntryStart (s : State) : Out :=
  .next (match s.me.mq with
    | e :: es =>
      if !e.started && s.canStart e then { s with me := { s.me with mq := { e with started := true } :: es } } else s
    | [] => s)

/-- MATRIX_ENTRY_COMPLETE (R185, R195, R382, R429): the entry that has begun completes; a transfer whose next page misses
asks for its walk. -/
def execMatrixEntryComplete (s : State) : Out :=
  .next (match s.me.mq with
    | [] => s
    | e :: _ =>
      if !e.started then s
      else
        match s.completeEntry with
        | some t => t
        | none =>
          match e.op with
          | .ins _ => s
          | .xfer v mask =>
            match (s.xferMoves (!v.getLsbD 63) e.base.toNat (xferGranules v mask)).2 with
            | .miss va => { s with dev := s.dev.request (clusterOf s.core.phys) s.ctx s.me.root va s.me.part [(s.party, false)] }
            | _ => s)

/-! ### Accumulator reads (R196, R197) -/

/-- The bytes of the 64 mapped elements of a granule (R196). -/
def State.tileBytes (s : State) (g : Nat) (col : Bool) (row : U4) : List Nat :=
  (List.range 64).map fun l => (fun p : Nat × Nat => s.accAt g p.1 p.2) (laneElement col row.toNat l)

/-- A read of accumulator elements at issue, once its checks are passed: the first that lies in a failing word raises cause 0x40
with its place in the array (R426, R428; log 20), and writes its log record; single-bit errors are corrected (R424). -/
def State.readAcc (s : State) (c : Except Stop Unit) (as : List Nat) (f : State → State) : State :=
  s.settle c fun _ =>
    match if s.dev.bad.isEmpty then none else as.find? fun a => (s.dev.failing .acc a 4).isSome with
    | some a =>
      let info := arrayWord 4 (a % 2 ^ 23)
      runAct (fun _ => Act.logBad s.core.phys 4 info (s.me.bound.elim 0 (·.job))) (s.trap 0x40 info)
    | none => f (if s.dev.weak.isEmpty then s else as.foldl (fun s a => s.correct .acc a 4) s)

/-- AGET (R196, R197). -/
def execAget (acc : U11) (v : U5) (row : U4) (col : Bool) (p : U3) (s : State) : Out :=
  .next (if s.pred p then s.readAcc (s.waitRead acc.toNat 1 false) (s.tileBytes acc.toNat col row) fun s =>
      s.issue 4 (.v (.reg v) (s.tileLanes acc.toNat col row) (BitVec.allOnes 64)) 0
    else s.issue 4 (.v (.reg v) 0 0) 0)

/-- The bytes of the mapped pairs of a granule pair (R196). -/
def State.pairBytes (s : State) (g : Nat) (row : U4) : List Nat := s.tileBytes g true row ++ s.tileBytes (g + 1) true row

/-- AMGET (R196, R197). -/
def execAmget (acc : U11) (md row : U4) (p : U3) (s : State) : Out :=
  .next (if s.pred p then s.readAcc (s.waitRead acc.toNat 2 true) (s.pairBytes acc.toNat row) fun s =>
      s.issue 6 (.m md (s.tilePairs acc.toNat row) (BitVec.allOnes 64)) 0
    else s.issue 6 (.m md 0 0) 0)

/-! ### No-wait reads (R198) -/

/-- The state now and the states that the next entries of the queue lead to, one after another, as far as they can be executed
now. -/
def State.progress (s : State) : Nat → List State
  | 0 => [s]
  | n + 1 =>
    s :: match s.me.mq with
      | e :: _ => if e.started || s.canStart e then s.completeEntry.elim [] fun t => t.progress n else []
      | [] => []

/-- The states that a no-wait read of n granules from g on may show elements of (R198): with no entry queued that writes one,
the state now alone. -/
def State.shownStates (s : State) (g n : Nat) : List State :=
  if s.me.mq.any fun e => (List.range n).any fun x => e.writesGranule (g + x) then s.progress s.me.mq.length else [s]

/-- How many of the entries the engine has completed by the end of a no-wait read: it is left open. -/
def State.shownUpTo (s : State) (ss : List State) : Nat := Config.freeBits s.free 0 % ss.length

/-- The mapped elements of granule g as a no-wait read delivers them (R198): each as it stands in one of the states up to J;
which is left open. -/
def State.peekLanes (s : State) (ss : List State) (J g : Nat) (col : Bool) (row : U4) : Vec :=
  lanes32 fun l =>
    let p := laneElement col row.toNat l
    let k := s.accAt g p.1 p.2
    (ss.getD (Config.freeBits s.free (k + 1) % (J + 1)) s).accWord k

/-- The state behind a no-wait read: what it has shown is done, so that a later read shows no less. -/
def State.afterPeek (s : State) (ss : List State) (J : Nat) : State :=
  let t := ss.getD J s
  { t with free := t.free + 1 }

/-- AGET_NW (R196, R198). -/
def execAgetNw (acc : U11) (v : U5) (row : U4) (col : Bool) (p : U3) (s : State) : Out :=
  .next (if s.pred p then s.readAcc (s.namedCheck acc.toNat 1 false) (s.tileBytes acc.toNat col row) fun s =>
      let ss := s.shownStates acc.toNat 1
      let J := s.shownUpTo ss
      (s.afterPeek ss J).issue 4 (.v (.reg v) (s.peekLanes ss J acc.toNat col row) (BitVec.allOnes 64)) 0
    else s.issue 4 (.v (.reg v) 0 0) 0)

/-- AMGET_NW (R196, R198). -/
def execAmgetNw (acc : U11) (md row : U4) (p : U3) (s : State) : Out :=
  .next (if s.pred p then s.readAcc (s.namedCheck acc.toNat 2 true) (s.pairBytes acc.toNat row) fun s =>
      let ss := s.shownStates acc.toNat 2
      let J := s.shownUpTo ss
      (s.afterPeek ss J).issue 6 (.m md (s.peekLanes ss J (acc.toNat + 1) true row ++ s.peekLanes ss J acc.toNat true row)
        (BitVec.allOnes 64)) 0
    else s.issue 6 (.m md 0 0) 0)

end Sys2Proof.Machine
end

