-- ==== Sys2Proof/Machine/Engines.lean ====
section
/-! DEFINITION. The collective engine (R257..R261) and the routing engine (R262..R266). -/
namespace Sys2Proof.Machine

/-- Bytes of a scratchpad written by an engine: not performed where they cover part of a failing word, which is logged
(R266, R427). -/
def Act.engineWrite {s0 : State} (p : Place) (off job : Nat) (bs : List Byte) : Act s0 Unit := do
  let s ← Act.cur
  if (s.dev.partFailing .spl (p.at off) bs.length).isSome then
    Act.logBad p.phys 2 (BitVec.ofNat 64 (2 ^ 63 + 2 * 2 ^ 59 + p.first + off)) job
  else do
    Act.correctPart p.phys p.slot1 .spl (p.at off) bs.length
    Act.write .spl (p.at off) bs

/-- One added to a word of a scratchpad by an engine. -/
def Act.engineAdd {s0 : State} (p : Place) (off job : Nat) : Act s0 Unit := do
  let s ← Act.cur
  Act.engineWrite p off job (leBytes 4 ((s.mems.nat .spl (p.at off) 4 + 1) % 2 ^ 32))

/-! ### Collectives (R257..R261) -/

/-- A field of n bytes of a collective's descriptor (R258). -/
def Coll.fld (c : Coll) (off n : Nat) : Nat := bytesAt c.desc off n

/-- The member devices of a collective: the group that GROUP names (R258). -/
def State.members (s : State) (c : Coll) : List Nat :=
  ((s.dev.job c.who.job).bind fun j => j.groups[c.fld 3 1]?).getD []

/-- Whether a descriptor is well formed (R258, R261). -/
def State.descOk (s : State) (c : Coll) (size : Nat) : Bool :=
  let P := (s.members c).length
  let op := c.fld 0 1
  let unit := if op = 0 ∨ op = 3 then 256 * P else 256
  op ≤ 3 && (c.fld 1 1 == 0 || c.fld 1 1 == 1 || c.fld 1 1 == 5) && (op == 2 || c.fld 2 1 ≤ 2) && 1 ≤ P && P ≤ 64 &&
    (s.members c).contains ((s.dev.job c.who.job).elim 1024 (·.self)) && 1 ≤ c.fld 4 2 && c.fld 4 2 ≤ 4096 &&
    c.fld 7 1 == 0 && c.fld 8 4 % unit == 0 && 1 ≤ c.fld 12 1 && c.fld 13 1 ≤ 2 && c.fld 14 2 == 0 &&
    c.fld 32 4 % 4 == 0 && c.fld 32 4 + 4 ≤ size && c.fld 36 4 % 4 == 0 && c.fld 36 4 + 4 ≤ size &&
    (c.desc.drop 44).all (· == 0)

/-- A collective replaced. -/
def Dev.updColl (d : Dev) (n : Nat) (f : Coll → Coll) : Dev :=
  { d with colls := d.colls.map fun c => if c.serial = n then f c else c }

/-- A collective off the engine's list. -/
def Dev.dropColl (d : Dev) (n : Nat) : Dev := { d with colls := d.colls.filter fun c => c.serial != n }

/-- A write of the engine into the member's scratchpad (R261), or held while its context is suspended (R366): a value of a
word of STATUS (1 byte) or DONE (4 bytes), or an increment of DONE. -/
def Act.collWrite {s0 : State} (c : Coll) (off : Nat) (v : Option Nat) : Act s0 Unit := do
  let s ← Act.cur
  if s.dev.ctxs.any fun x => x.id == c.who.ctx then
    Act.dev fun d => d.updColl c.serial fun c => { c with held := c.held ++ [(off, v)] }
  else
    match s.placeAt c.phys c.slot1, v with
    | some p, some x => Act.engineWrite p off c.who.job (leBytes (if off = c.addr + 6 then 1 else 4) x)
    | some p, none => Act.engineAdd p off c.who.job
    | none, _ => Act.done

/-- COLL_STATUS (R261): the status becomes final; a failure sets DONE to all ones where DONE is a word of the
scratchpad. -/
def Act.collStatus {s0 : State} (c : Coll) (size status : Nat) : Act s0 Unit := do
  Act.dev fun d => d.updColl c.serial fun c => { c with status := status }
  Act.collWrite c (c.addr + 6) (some status)
  if status ≠ 1 ∧ c.fld 36 4 % 4 = 0 ∧ c.fld 36 4 + 4 ≤ size then Act.collWrite c (c.fld 36 4) (some 0xFFFFFFFF)

/-- The source bytes and the first destination byte of bucket b (R258). -/
def Coll.bucket (c : Coll) (P b : Nat) : Nat × Nat :=
  let n := c.fld 8 4
  (c.fld 16 8 + b * n, c.fld 24 8 + (match c.fld 0 1 with | 2 => b * P * n | 3 => b * n / P | _ => b * n))

/-- Whether a collective's elements are BF16 (R258). -/
def Coll.short (c : Coll) : Bool := c.fld 1 1 == 1

/-- The elements of a bucket: FP32 or INT32 patterns, and BF16 ones as FP32 (R260). -/
def Coll.elements (c : Coll) (bs : List Byte) : List Nat :=
  if c.short then (List.range (bs.length / 2)).map fun x => 65536 * bytesAt bs (2 * x) 2
  else (List.range (bs.length / 4)).map fun x => bytesAt bs (4 * x) 4

/-- An element of a result: BF16 is rounded once, at the end (R260). -/
def Coll.elementBytes (c : Coll) (x : Nat) : List Byte :=
  if c.short then leBytes 2 (froundV bf16 0 false 0 (fdecode fp32 x)).bits else leBytes 4 x

/-- Two elements combined (R260): one addition, maximum or minimum of FP32, or of 32-bit integers. -/
def Coll.combine (c : Coll) (x y : Nat) : Nat :=
  let rop := c.fld 2 1
  if c.fld 1 1 = 5 then
    if rop = 0 then (x + y) % 2 ^ 32
    else if (if rop = 1 then intVal 5 x < intVal 5 y else intVal 5 y < intVal 5 x) then y else x
  else if rop = 0 then (fadd fp32 0 0 x y).bits
  else (fminmax fp32 (rop == 1) x y).bits

/-- The values of all ranks combined from one rank on, in rank order (R260: ring). -/
def Coll.ring (c : Coll) (vals : List Nat) (first : Nat) : Nat :=
  match vals.rotateLeft first with
  | [] => 0
  | x :: xs => xs.foldl c.combine x

/-- One level of the tree: adjacent results combined, the lower rank on the left, an unpaired one passed up (R260). -/
def Coll.level (c : Coll) : List Nat → List Nat
  | x :: y :: xs => c.combine x y :: c.level xs
  | xs => xs

/-- The levels of the tree (R260). -/
def Coll.tree (c : Coll) : Nat → List Nat → Nat
  | 0, vals => vals.headD 0
  | fuel + 1, vals => c.tree fuel (c.level vals)

/-- The result bytes of a bucket from the bucket of every rank, at the member of one rank (R260). -/
def Coll.result (c : Coll) (rank : Nat) (parts : List (List Byte)) : List Byte :=
  let P := parts.length
  let els := parts.map c.elements
  let E := (els.headD []).length
  let vals (k : Nat) : List Nat := els.map fun l => l.getD k 0
  let chunk (k : Nat) : Nat := k / (E / P)
  let ring (k : Nat) : List Byte := c.elementBytes (c.ring (vals k) (chunk k + 1))
  match c.fld 0 1 with
  | 0 => (List.range E).flatMap ring
  | 1 => (List.range E).flatMap fun k => c.elementBytes (c.tree P (vals k))
  | 2 => parts.flatten
  | _ => ((List.range E).filter fun k => chunk k == rank).flatMap ring

/-- The bucket of every rank (R260): the own one, and those of the other members, whose memory is not in the model
(log 35). -/
def collParts (members : List Nat) (self free : Nat) (src : List Byte) : List (List Byte) :=
  members.zipIdx.map fun m => if m.1 = self then src else openBytes free (m.2 * src.length) src.length

/-- The engine of a collective as a party (R257, R276). -/
def Coll.party (c : Coll) : Party := .collective (clusterOf c.phys / 8)

/-- A bucket's bytes as writes to the peers' HBM, on the descriptor's TIER (R260). Where they go there is open (log 35). -/
def State.collSends (s : State) (c : Coll) (src : List Byte) : List Msg :=
  let self := (s.dev.job c.who.job).elim 0 (·.self)
  ((s.members c).filter (· != self)).flatMap fun dev =>
    (List.range ((src.length + 255) / 256)).map fun k =>
      { id := 0, src := c.party, ctx := c.who.ctx, job := c.who.job, part := c.who.part, srcDev := self, kind := .pod .phm
        path := c.fld 13 1, stage := .unsent, retry := false, dev := dev, core := 0, slot1 := false
        addr := Config.freeBits s.free dev % 2 ^ 48 + 256 * k, tag := false, region := 0, esz := 0
        data := (src.drop (256 * k)).take 256, pieces := [], rkind := 0, raddr := 0, owner := c.serial }

/-- Whether writes of a collective to its peers are unanswered. -/
def Dev.collBusy (d : Dev) (c : Coll) : Bool := d.net.any fun m => m.src == c.party && m.owner == c.serial

/-- The pages of a collective's access (R261). DESIGN CHOICE (log 101): a page whose format is not RAW is a translation
failure. `walk` reads the tables at once. -/
def State.collPages (s : State) (c : Coll) (ctx : Nat) (write walk : Bool) (va n : Nat) :
    Except (Option Byte × Nat) (List Pte) :=
  let raw (p : Pte) : Except (Option Byte × Nat) Pte := if pteFmt p.word ≠ 0 then .error (some 0x12, 0) else .ok p
  let who := c.party
  if n = 0 then .ok []
  else if walk then
    match s.contextThread c.phys c.slot1 ctx with
    | none => .error (some 0x11, 0)
    | some t => (pagesOf va n).mapM fun a =>
      match walkTables s.mems s.dev t.part ctx t.root a with
      | .fail x => .error (some x, 0)
      | .leaf p => match p.denies ⟨false, write, false, some false⟩ with
        | some x => .error (some x, 0)
        | none => raw p
  else (s.engPages (clusterOf c.phys) ctx who write (some false) (pagesOf va n)).bind fun ps => ps.mapM raw

/-- The bytes that bucket b's source is read from, as far as their pages are translated (R424). -/
def State.bucketReads (s : State) (c : Coll) (walk : Bool) : List (Space × Nat × Nat) :=
  let at_ := c.bucket (s.members c).length c.done
  let n := c.fld 8 4
  match s.collPages c c.who.ctx false walk at_.1 n with
  | .ok ps => (piecesOf ps at_.1 (n + 1) n).map fun x => (if x.1 then .host else .hbm, x.2.1, x.2.2)
  | .error _ => []

/-- The source bytes of the next bucket, a failure, or a page to walk. -/
def State.bucketSource (s : State) (c : Coll) (walk : Bool) : Except (Option Byte × Nat) (List Byte) := do
  let at_ := c.bucket (s.members c).length c.done
  let n := c.fld 8 4
  let src ← s.collPages c c.who.ctx false walk at_.1 n
  let pcs := piecesOf src at_.1 (n + 1) n
  if s.dev.piecesFail pcs then throw (some 0x40, 0)
  return s.mems.pieces pcs

/-- The destination writes of the next bucket, a failure, or a page to walk. -/
def State.bucketWrites (s : State) (c : Coll) (walk : Bool) : Except (Option Byte × Nat) (List (Bool × Nat × List Byte)) := do
  let ms := s.members c
  let self := (s.dev.job c.who.job).elim 0 (·.self)
  let va := (c.bucket ms.length c.done).2
  let src ← s.bucketSource c walk
  let out := c.result ((ms.findIdx? (· == self)).getD 0) (collParts ms self s.free src)
  let dst ← s.collPages c c.who.ctx true walk va out.length
  return cutBytes (piecesOf dst va (out.length + 1) out.length) out

/-- A bucket's destination is written and DONE counts it (R259); the last one makes STATUS 1 (R261). -/
def State.completeBucket (s : State) (c : Coll) (size : Nat) (walk : Bool) (ps : List (Bool × Nat × List Byte)) : State :=
  runAct (fun _ => do
    Act.correctFor c.phys c.slot1 (s.bucketReads c walk)
    Act.pieces ps
    Act.dev fun d => { (d.updColl c.serial fun c => { c with done := c.done + 1 }) with
      walked := d.walked.filter fun w => w.who != c.party }
    if !c.gone then do
      Act.collWrite c (c.fld 36 4) none
      if c.done + 1 = c.fld 4 2 then Act.collStatus c size 1
    Act.upd fun t => { t with free := t.free + 1 }) s

/-- A bucket's bytes go to the other members (R260). -/
def State.sendBucket (s : State) (c : Coll) (src : List Byte) : State :=
  { s with
    free := s.free + 1
    dev := (s.dev.postAll (s.collSends c src)).updColl c.serial fun c => { c with sent := c.done + 1 } }

/-- The members of a collective agree (R261): SIG is evaluated, unless the context is away or its word is failing. -/
def State.agree (s : State) (c : Coll) (size : Nat) : State :=
  let t := { s with dev := s.dev.updColl c.serial fun c => { c with agreed := true } }
  if !s.collBound c then t
  else if (s.dev.failing .spl c.sig 4).isSome then
    runAct (fun _ => do
      Act.collStatus c size 5
      Act.logBad c.phys 2 (arrayWord 2 (c.sig % 1048576)) c.who.job) t
  else
    runAct (fun _ => do
      Act.correctFor c.phys c.slot1 [(.spl, c.sig, 4)]
      Act.dev fun d => d.updColl c.serial fun c => c.start s.mems) t

/-- COLL (R257, R258, R261): the descriptor is read at issue, STATUS becomes 0, and a malformed descriptor or a failing
word ends the collective at once. A member alone agrees with itself. -/
def execColl (a : Src) (s : State) : Out :=
  .next (
    let ad := s.src a
    let key := s.place.at ad.toNat
    let size := s.splSize
    s.settle (do
      if ad.toNat % 64 ≠ 0 then .error (.trap 0x10 ad)
      if size < ad.toNat + 64 then .error (.trap 0x12 ad)
      if s.me.drainPending ad.toNat 64 || s.ownPending key 64 then .error .hold) fun _ =>
      let desc := s.mems.read .spl key 64
      let n := s.dev.serial + 1
      let c : Coll :=
        { serial := n, who := s.me.who, phys := s.core.phys, slot1 := s.me.slot1, addr := ad.toNat, desc := desc
          sig := s.place.at (bytesAt desc 32 4), agreed := false, started := 0, sent := 0, done := 0, fail := 0, status := 0
          gone := false, held := [] }
      let bad := (s.dev.failing .spl key 64).isSome
      let good := !bad && s.descOk c size
      let t := runAct (fun _ => do
        Act.readCorrected .spl key 64
        Act.dev fun d => { d with serial := n, colls := d.colls ++ [c] }
        Act.engineWrite s.place (ad.toNat + 6) s.me.who.job [0]
        if bad then do
          Act.collStatus c size 5
          Act.logBad s.core.phys 2 (arrayWord 2 (s.place.first + ad.toNat)) s.me.who.job
        else if !good then Act.collStatus c size 2) s
      if good && (s.members c).length == 1 then t.agree c size else t)

/-- The other members' part in whether they agree on the matched fields (R261): not known yet, yes, or no. They are outside
the model (log 35). -/
def State.peersAgree (s : State) : Option Bool :=
  match Config.freeBits s.free 1 % 4 with
  | 1 => some true
  | 2 => some false
  | _ => none

/-- A collective that cannot go on ends with STATUS 5 (R261), with the record of an uncorrectable word (R426), or a page of it
is walked. -/
def State.collFails (s : State) (c : Coll) (size : Nat) (x : Option Byte × Nat) : State :=
  match x with
  | (some code, _) =>
    runAct (fun _ => do
      Act.collStatus c size 5
      if code = 0x40 then Act.logBad c.phys 12 (BitVec.ofNat 64 (c.bucket (s.members c).length c.done).1) c.who.job) s
  | (none, va) =>
    match s.contextThread c.phys c.slot1 c.who.ctx with
    | some t => runAct (fun _ => Act.engWalk (clusterOf c.phys) t c.party va) s
    | none => s

/-- COLL_BUCKET_COMPLETE (R259..R261): a collective goes on at this member. The members find whether they agree; the next bucket
that has started goes to the other members, and once they have answered it is combined and written; or the collective ends
with a failure, that of an answer among them. -/
def execCollBucketComplete (n : Nat) (s : State) : Out :=
  .next (match s.dev.colls.find? fun c => c.serial == n with
    | none => s
    | some c =>
      let size := (s.placeAt c.phys c.slot1).elim 0 (·.size)
      if c.status ≠ 0 then (if c.held.isEmpty then { s with dev := s.dev.dropColl n } else s)
      else if c.fail ≠ 0 then runAct (fun _ => Act.collStatus c size c.fail) s
      else if !c.agreed then
        let t := { s with free := s.free + 1 }
        match s.peersAgree with
        | some true => t.agree c size
        | some false => runAct (fun _ => Act.collStatus c size 3) t
        | none => t
      else if c.started ≤ c.done then s
      else if c.sent ≤ c.done ∧ 1 < (s.members c).length then
        match s.bucketSource c false with
        | .ok src => s.sendBucket c src
        | .error x => s.collFails c size x
      else if s.dev.collBusy c then s
      else
        match s.bucketWrites c false with
        | .ok ps =>
          if s.dev.storeFails ps then
            runAct (fun _ => do
              Act.collStatus c size 5
              Act.logBad c.phys 12 (BitVec.ofNat 64 (c.bucket (s.members c).length c.done).2) c.who.job) s
          else s.completeBucket c size false ps
        | .error x => s.collFails c size x)

/-- The buckets that an abandoned collective has started finish their writes to HBM (R261): at once (log 34). -/
def State.finishBuckets (fuel n : Nat) (s : State) : State :=
  match fuel with
  | 0 => s
  | fuel + 1 =>
    match s.dev.colls.find? fun c => c.serial == n with
    | none => s
    | some c =>
      if c.started ≤ c.done ∨ c.status ≠ 0 then s
      else match s.bucketSource c true, s.bucketWrites c true with
        | .ok src, .ok ps =>
          let t := if c.sent ≤ c.done then s.sendBucket c src else s
          (t.completeBucket { c with gone := true } 0 true ps).finishBuckets fuel n
        | _, _ => s

/-- COLL_ABANDON (R261): the collectives of a context end at this member. -/
def State.abandonAll (s : State) : List Coll → State
  | [] => s
  | c :: cs =>
    let t := s.finishBuckets (c.started - c.done) c.serial
    { t with dev := t.dev.dropColl c.serial }.abandonAll cs

/-- COLL_ABANDON (R261) for the slot's context. -/
def State.abandonColls (s : State) : State :=
  s.abandonAll (s.dev.colls.filter fun c => c.who.ctx == s.ctx && c.phys == s.core.phys && c.slot1 == s.me.slot1)

/-! ### Routing: the dispatch record (R262, R263) -/

/-- The offsets, counts and flags of a dispatch record (R263). -/
structure Dispatch where
  sel : Nat
  pay : Nat
  map : Nat
  ntok : Nat
  nexp : Nat
  tok0 : Nat
  esz : Nat
  flags : Nat
  cnt : Nat
  done : Nat
  zeros : Bool
  deriving DecidableEq, Repr

/-- The record that 64 bytes hold. -/
def dispatchOf (bs : List Byte) : Dispatch :=
  ⟨bytesAt bs 0 4, bytesAt bs 4 4, bytesAt bs 8 4, bytesAt bs 12 2, bytesAt bs 14 2, bytesAt bs 16 4, bytesAt bs 20 1,
    bytesAt bs 21 1, bytesAt bs 24 4, bytesAt bs 28 4, bytesAt bs 22 2 == 0 && (bs.drop 32).all (· == 0)⟩

/-- NTOK, NEXP and ESZ in their ranges. -/
def Dispatch.ranged (r : Dispatch) : Bool := 1 ≤ r.ntok && r.ntok ≤ 4096 && 1 ≤ r.nexp && r.esz ≤ 6

/-- A record that is dispatched (R263). -/
def Dispatch.ok (r : Dispatch) : Bool := r.ranged && r.zeros && r.flags % 4 ≠ 3 && r.flags < 8

/-- The bytes of an entry. -/
def Dispatch.size (r : Dispatch) : Nat := 16 * 2 ^ r.esz

/-- The bytes checked against the scratchpad, in order: first byte and length (R262). -/
def Dispatch.spans (r : Dispatch) : List (Nat × Nat) :=
  [(r.cnt, 16), (r.done, 4)] ++
    (if r.ranged then [(r.sel, 8 * r.ntok), (r.pay, r.ntok * (r.size - 16)), (r.map, 8 * r.nexp)] else [])

/-- The first byte outside the scratchpad (R262). DESIGN CHOICE (log 72): of several areas that lie outside the first in the rule's
own list is named: CNT, DONE, SEL, PAY, MAP. -/
def Dispatch.beyond (r : Dispatch) (size : Nat) : Option Nat :=
  r.spans.findSome? fun x => if x.2 ≠ 0 ∧ size < x.1 + x.2 then some (Nat.max size x.1) else none

/-- The offset of the first byte of the slot's scratchpad that meets a failing word. -/
def State.splBad (s : State) (off n : Nat) : Option Nat :=
  if n = 0 then none else (s.dev.failing .spl (s.place.at off) n).map (· - s.place.at 0)

/-- The expert that a choice names (R263, R265): its map entry must have its reserved bits zero and no failing word. -/
def State.expert (s : State) (r : Dispatch) (e : Nat) : Expert :=
  if e = 0xFFFF then .nobody
  else if r.nexp ≤ e then .invalid
  else if let some x := s.splBad (r.map + 8 * e) 8 then .failing x
  else
    let w : U64 := BitVec.ofNat 64 (s.mems.nat .spl (s.place.at (r.map + 8 * e)) 8)
    if bitsOf w 45 4 ≠ 0 then .invalid else .region (podDev w) (podCore w) (bitsOf w 3 0)

/-- Token t's entry (R264). -/
def State.tokenBytes (s : State) (r : Dispatch) (t : Nat) : List Byte :=
  let sel := s.mems.read .spl (s.place.at (r.sel + 8 * t)) 8
  leBytes 4 ((r.tok0 + t) % 2 ^ 32) ++ sel ++ leBytes 2 t ++ [0, 0] ++
    s.mems.read .spl (s.place.at (r.pay + t * (r.size - 16))) (r.size - 16)

/-- What is made of token t (R265): skipped, an error with the offset of the failing word that it meets, or a send. -/
def State.token (s : State) (r : Dispatch) (t : Nat) : Option (Except (Option Nat) Send) :=
  match s.splBad (r.sel + 8 * t) 8 with
  | some x => some (.error (some x))
  | none =>
    let sel := s.place.at (r.sel + 8 * t)
    match s.expert r (s.mems.nat .spl sel 2) with
    | .nobody => none
    | .invalid => some (.error none)
    | .failing x => some (.error (some x))
    | x =>
      match s.splBad (r.pay + t * (r.size - 16)) (r.size - 16) with
      | some y => some (.error (some y))
      | none => some (.ok ⟨t, x, s.expert r (s.mems.nat .spl (sel + 2) 2), false, s.tokenBytes r t⟩)

/-! ### Routing: sends (R265) -/

/-- A batch changed. -/
def Dev.updBatch (d : Dev) (n : Nat) (f : Batch → Batch) : Dev :=
  { d with batches := d.batches.map fun b => if b.serial = n then f b else b }

/-- A batch by its number. -/
def Dev.batch (d : Dev) (n : Nat) : Option Batch := d.batches.find? fun b => b.serial == n

/-- A message of a batch. -/
def Batch.msg (b : Batch) (d : Dev) (k : PodKind) (path dev core region : Nat) (data : List Byte) : Msg :=
  { id := 0, src := .router (clusterOf b.phys / 8), ctx := b.who.ctx, job := b.who.job, part := b.who.part
    srcDev := (d.job b.who.job).elim 0 (·.self), kind := .pod k, path := path, stage := .flying, retry := false, dev := dev
    core := core, slot1 := false, addr := 0, tag := true, region := region, esz := b.esz, data := data, pieces := []
    rkind := 0, raddr := 0, owner := b.serial }

/-- One send of a batch: to a device without a valid entry it is an error before it is sent (R265). -/
def Dev.sendToken (d : Dev) (b : Batch) (x : Send) : Dev :=
  let err := d.updBatch b.serial fun b => { b with err := b.err + 1 }
  match (if x.redir then x.alt else x.dest) with
  | .region dev core n =>
    if (d.job b.who.job).any fun j => (j.devs[dev]?).any fun e => e.valid then
      let data := if x.redir then x.data.set 14 1 else x.data
      let m := b.msg d .route b.tier dev core n data
      (d.post { m with stage := d.roomStage m.src m.ctx m.path }).updBatch b.serial fun b =>
        { b with out := b.out ++ [(d.nextMsg, x)] }
    else err
  | _ => err

/-- Whether a send may go: a redirected one waits for every earlier token that the same region may still be given as its
second choice, so that redirected entries are added in ascending order (R265). -/
def Batch.mayGo (b : Batch) (x : Send) : Bool :=
  !x.redir || !((b.todo.any fun y => y.tok < x.tok && y.alt == x.alt) ||
    b.out.any fun y => !y.2.redir && y.2.tok < x.tok && y.2.alt == x.alt)

/-- The entries of all batches that the routing engine of a die has in flight (R265). -/
def Dev.inFlight (d : Dev) (die : Nat) : Nat :=
  ((d.batches.filter fun b => clusterOf b.phys / 8 == die && !b.sealing).map fun b => b.out.length).foldl (· + ·) 0

/-- Sends of a batch while the engine has fewer than 64 entries in flight. DESIGN CHOICE (log 98): R265's limit is the engine's,
over all its batches. -/
def Dev.fillBatch (d : Dev) (fuel n : Nat) : Dev :=
  match fuel with
  | 0 => d
  | fuel + 1 =>
    match d.batch n with
    | none => d
    | some b =>
      match b.todo.find? b.mayGo with
      | none => d
      | some x =>
        if 64 ≤ d.inFlight (clusterOf b.phys / 8) then d
        else ((d.updBatch n fun b => { b with todo := b.todo.erase x }).sendToken b x).fillBatch fuel n

/-- RSEND (R262, R263): a record that passes its checks goes to the engine; one that is not dispatched counts its tokens as
errors. Which offset is the first outside, when several areas lie outside, is the order of the rule's own list (log 72). -/
def execRsend (a : Src) (s : State) : Out :=
  .next (
    let ad := s.src a
    let key := s.place.at ad.toNat
    let size := s.splSize
    let bs := s.mems.read .spl key 64
    let r := dispatchOf bs
    s.settleBad 2 (do
      if ad.toNat % 64 ≠ 0 then .error (.trap 0x10 ad)
      if size < ad.toNat + 64 then .error (.trap 0x12 ad)
      if s.me.drainPending ad.toNat 64 || s.ownPending key 64 then .error .hold
      match s.dev.failing .spl key 64 with
      | some k => .error (.trap 0x40 (ad + BitVec.ofNat 64 (k - key)))
      | none => .ok ()
      if r.cnt % 4 ≠ 0 then .error (.trap 0x10 (BitVec.ofNat 64 r.cnt))
      if r.done % 4 ≠ 0 then .error (.trap 0x10 (BitVec.ofNat 64 r.done))
      match r.beyond size with
      | some x => .error (.trap 0x12 (BitVec.ofNat 64 x))
      | none => .ok ()) fun _ =>
      let n := s.dev.serial + 1
      let b : Batch :=
        { serial := n, who := s.me.who, phys := s.core.phys, slot1 := s.me.slot1, unread := if r.ok then some bs else none
          mark := s.dev.nextMsg, esz := r.esz, tier := r.flags % 4, wantSeal := r.ok && 4 ≤ r.flags, cnt := r.cnt
          done := r.done, todo := [], out := [], sent1 := 0, sent2 := 0, dropped := 0, err := if r.ok then 0 else r.ntok
          took := [], sealing := false }
      runAct (fun _ => do
        Act.readCorrected .spl key 64
        Act.dev fun d => { d with serial := n, batches := d.batches ++ [b] }) s)

/-- The bytes that the engine reads of the arrays of a record (R262). -/
def State.batchReads (s : State) (r : Dispatch) : List (Space × Nat × Nat) :=
  (r.spans.drop 2).map fun x => (.spl, s.place.at x.1, x.2)

/-- Whether the arrays of a batch may be read (R262): every store of the core before the `rsend` to them has been performed, and
every drain that is to write them. -/
def State.arraysOpen (s : State) (b : Batch) (r : Dispatch) : Bool :=
  let rs := s.batchReads r
  !(s.dev.net.any fun m => m.src == s.party && m.id < b.mark && m.isWrite && !m.performed && meets (s.touches m) rs) &&
    !s.me.mq.any fun e => e.mark ≤ b.mark && meets (s.entryOut e) rs

/-- The arrays of a batch are read, and its tokens go out (R262..R265): each failing word that a token meets writes its log
record (R426). -/
def routeArraysStep (n : Nat) (s : State) : Out :=
  .next (match s.dev.batch n with
    | some b =>
      match b.unread, s.asSlot b.phys b.slot1 with
      | some bs, some v =>
        let r := dispatchOf bs
        if !v.arraysOpen b r then s
        else
          let toks := (List.range r.ntok).filterMap fun t => v.token r t
          let errs := toks.filterMap fun x => match x with | .error e => some e | .ok _ => none
          runAct (fun _ => do
            Act.correctFor b.phys b.slot1 (v.batchReads r)
            Act.each (errs.filterMap id) fun x => Act.logBad b.phys 2 (arrayWord 2 (v.place.first + x)) b.who.job
            Act.dev fun d => (d.updBatch n fun b => { b with
              unread := none, err := errs.length
              todo := toks.filterMap fun x => match x with | .ok y => some y | .error _ => none }).fillBatch 4096 n) s
      | _, _ => s
    | none => s)

/-- The answer FULL of a region (R265), as the model codes it. -/
def answerFull : Byte := 1

/-- A batch after an answer to one of its sends (R265). -/
def Batch.answered (b : Batch) (n : Nat) (x : Send) (code : Byte) : Batch :=
  let b := { b with out := b.out.filter fun o => o.1 != n }
  if code = 0 then
    let at_ := match (if x.redir then x.alt else x.dest) with | .region d c q => [(d, c, q)] | _ => []
    let b := { b with took := b.took ++ at_.filter fun q => !b.took.contains q }
    if x.redir then { b with sent2 := b.sent2 + 1 } else { b with sent1 := b.sent1 + 1 }
  else if code = answerFull then
    if x.redir then { b with dropped := b.dropped + 1 }
    else match x.alt with
      | .nobody => { b with dropped := b.dropped + 1 }
      | .invalid | .failing _ => { b with err := b.err + 1 }
      | .region _ _ _ => { b with todo := { x with redir := true } :: b.todo }
  else { b with err := b.err + 1 }

/-- A batch after the answer to a message of it: a seal's answer counts for nothing (R266). -/
def Batch.heard (b : Batch) (m : Msg) (code : Byte) : Batch :=
  match b.out.find? fun o => o.1 == m.id with
  | some o => if b.sealing then { b with out := b.out.filter fun o => o.1 != m.id } else b.answered m.id o.2 code
  | none => b

/-- The offset of the failing word that a token meets at the map entry of its second choice, when a full region turns it there
(R265). -/
def Batch.turnedBad (b : Batch) (m : Msg) (code : Byte) : Option Nat :=
  (b.out.find? fun o => o.1 == m.id).bind fun o =>
    match o.2.alt with
    | .failing x => if code = answerFull && !b.sealing && !o.2.redir then some x else none
    | _ => none

/-- The answer to a message of the routing engine reaches it (R265, R266, R426). -/
def State.routeAnswered (s : State) (m : Msg) (code : Byte) : State :=
  let d := match m.src with
    | .router die => s.dev.countEv 22 (32 + die) (if code = 0 ∨ code = answerFull then 0 else 1)
    | _ => s.dev
  let e := (d.updBatch m.owner (·.heard m code)).dropMsg m.id
  let t := { s with dev := (e.batches.map (·.serial)).foldl (fun d n => d.fillBatch 64 n) e }
  match s.dev.batch m.owner with
  | some b =>
    match b.turnedBad m code, s.placeAt b.phys b.slot1 with
    | some x, some p => runAct (fun _ => Act.logBad b.phys 2 (arrayWord 2 (p.first + x)) b.who.job) t
    | _, _ => t
  | none => t

/-- ROUTE_SEND_ANSWER (R265, R266): of a send that left the device the answer comes from outside. -/
def execRouteSendAnswer (n : Nat) (outside : Option RemoteAnswer) (s : State) : Out :=
  .next (match s.dev.msg n with
    | some m =>
      if !m.routed then s
      else match m.stage, outside with
        | .answered code _, _ => s.routeAnswered m code
        | .away, some a => s.routeAnswered m a.code
        | _, _ => s
    | none => s)

/-! ### Routing: the receiving port (R265, R266, R368) -/

/-- A routing entry at a region (R265). -/
def State.routeAt (s : State) (m : Msg) (p : Place) : State :=
  let q := s.regionAt p m.region
  let c := p.cell q.next
  let t := s.mems.tag c
  if !q.en ∨ q.esz ≠ m.esz then runAct (fun _ => Act.answer m.id 0x41 0) s
  else if s.dev.badTags.contains (regionKey (slotNo p.phys p.slot1) m.region) then runAct (fun _ => Act.failPointers m p) s
  else if !s.dev.segmentOk m q.next q.entry then runAct (fun _ => Act.reject m) s
  else if s.dev.badTags.contains c then runAct (fun _ => Act.failBad m p 3 q.next) s
  else if q.pop + q.full = q.cap ∨ t.full then runAct (fun _ => Act.answer m.id answerFull 0) s
  else if (s.dev.partFailing .spl (p.at q.next) q.entry).isSome then runAct (fun _ => Act.failBad m p 2 q.next) s
  else
    let count := t.count.toNat + q.entry
    runAct (fun _ => do
      Act.write .spl (p.at q.next) m.data
      Act.setRegion p m.region { q with full := q.full + 1 }
      Act.tag c { t with count := BitVec.ofNat 11 count, full := t.exp.toNat ≤ count }
      Act.answer m.id 0 0) s

/-- ROUTING_ENTRY_ARRIVAL (R265, R368). -/
def execRoutingEntryArrival (n : Nat) (s : State) : Out :=
  .next (match s.dev.msg n with
    | some m =>
      if m.kind ≠ .pod .route ∨ m.stage ≠ .atPort then s
      else match s.admitRegion m with
        | .reject => runAct (fun _ => Act.reject m) s
        | .fail => runAct (fun _ => Act.answer n 0x41 0) s
        | .suspended _ => runAct (fun _ => Act.answer n answerFull 0) s
        | .deliver p => s.routeAt m p
    | none => s)

/-- The offset of the last entry that a region took (R266; log 37). -/
def QRegion.last (q : QRegion) : Nat := q.base + (q.head + q.pop + q.full + q.cap - 1) % q.cap * q.entry

/-- The tag words of a suspended context with a cell filled as `pfill` does (R368): cells by the slot's own numbers. An image
that was written before is brought up to date. -/
def SavedCtx.fillTag (c : SavedCtx) (cell : Nat) : SavedCtx :=
  { c with written := false, tags := spSet Tag.reset cell (spGet Tag.reset c.tags cell).fill c.tags }

/-- SEAL_ARRIVAL (R266, R368): a seal fills the cell of the region's last entry; of a suspended context it is recorded
with the context. -/
def execSealArrival (n : Nat) (s : State) : Out :=
  .next (match s.dev.msg n with
    | some m =>
      if m.kind ≠ .pod .seal ∨ m.stage ≠ .atPort then s
      else match s.admitRegion m with
        | .reject => runAct (fun _ => Act.reject m) s
        | .fail => runAct (fun _ => Act.answer n 0x41 0) s
        | .suspended id =>
          runAct (fun _ => do
            Act.dev fun d => { d with ctxs := d.ctxs.map fun c =>
              if c.id = id ∧ (c.thread.sp.region m.region).en then c.fillTag ((c.thread.sp.region m.region).last / 1024) else c }
            Act.answer n 0 0) s
        | .deliver p =>
          let q := s.regionAt p m.region
          let c := p.cell q.last
          if s.dev.badTags.contains (regionKey (slotNo p.phys p.slot1) m.region) then runAct (fun _ => Act.failPointers m p) s
          else if !s.dev.segmentOk m (q.last / 1024 * 1024) 1 then runAct (fun _ => Act.reject m) s
          else if s.dev.badTags.contains c then runAct (fun _ => Act.failBad m p 3 q.last) s
          else runAct (fun _ => do
            if q.en then Act.tag c (s.mems.tag c).fill
            Act.answer n 0 0) s
    | none => s)

/-- The seals of a batch (R266): one to each region that took an entry. -/
def Dev.sendSeals (d : Dev) (b : Batch) : List (Nat × Nat × Nat) → Dev
  | [] => d
  | (dev, core, q) :: xs =>
    let m := b.msg d .seal b.tier dev core q []
    let e := (d.post { m with stage := d.roomStage m.src m.ctx m.path }).updBatch b.serial fun b =>
      { b with out := b.out ++ [(d.nextMsg, ⟨0, .nobody, .nobody, false, []⟩)] }
    e.sendSeals b xs

/-- ROUTE_BATCH_COMPLETE (R266): with every send answered the seals go out; with every seal answered the counters and DONE
are written. -/
def execRouteBatchComplete (n : Nat) (s : State) : Out :=
  .next (match s.dev.batch n with
    | none => s
    | some b =>
      if b.unread.isSome || !b.todo.isEmpty || !b.out.isEmpty then s
      else if b.wantSeal && !b.sealing then
        { s with dev := (s.dev.updBatch n fun b => { b with sealing := true }).sendSeals b b.took }
      else
        match s.placeAt b.phys b.slot1 with
        | none => s
        | some p =>
          runAct (fun _ => do
            Act.each [(0, b.sent1), (4, b.sent2), (8, b.dropped), (12, b.err)] fun x =>
              Act.engineWrite p (b.cnt + x.1) b.who.job (leBytes 4 x.2)
            Act.engineAdd p b.done b.who.job
            Act.dev fun d => { d with batches := d.batches.filter fun b => b.serial != n }) s)

end Sys2Proof.Machine
end

