-- ==== Sys2Proof/Machine/Sha.lean ====
section
/-! DEFINITION. SHA-256 over a list of bytes, as FIPS 180-4 defines it (PRESUMED, log 15): the digests of R369, R406,
R413 and R449. -/
namespace Sys2Proof.Machine

/-- The round constants. -/
def shaK : List U32 :=
  [0x428a2f98, 0x71374491, 0xb5c0fbcf, 0xe9b5dba5, 0x3956c25b, 0x59f111f1, 0x923f82a4, 0xab1c5ed5] ++
  [0xd807aa98, 0x12835b01, 0x243185be, 0x550c7dc3, 0x72be5d74, 0x80deb1fe, 0x9bdc06a7, 0xc19bf174] ++
  [0xe49b69c1, 0xefbe4786, 0x0fc19dc6, 0x240ca1cc, 0x2de92c6f, 0x4a7484aa, 0x5cb0a9dc, 0x76f988da] ++
  [0x983e5152, 0xa831c66d, 0xb00327c8, 0xbf597fc7, 0xc6e00bf3, 0xd5a79147, 0x06ca6351, 0x14292967] ++
  [0x27b70a85, 0x2e1b2138, 0x4d2c6dfc, 0x53380d13, 0x650a7354, 0x766a0abb, 0x81c2c92e, 0x92722c85] ++
  [0xa2bfe8a1, 0xa81a664b, 0xc24b8b70, 0xc76c51a3, 0xd192e819, 0xd6990624, 0xf40e3585, 0x106aa070] ++
  [0x19a4c116, 0x1e376c08, 0x2748774c, 0x34b0bcb5, 0x391c0cb3, 0x4ed8aa4a, 0x5b9cca4f, 0x682e6ff3] ++
  [0x748f82ee, 0x78a5636f, 0x84c87814, 0x8cc70208, 0x90befffa, 0xa4506ceb, 0xbef9a3f7, 0xc67178f2]

/-- The initial hash value. -/
def shaInit : List U32 :=
  [0x6a09e667, 0xbb67ae85, 0x3c6ef372, 0xa54ff53a, 0x510e527f, 0x9b05688c, 0x1f83d9ab, 0x5be0cd19]

/-- The message schedule, newest word first, from the 16 words of a block (newest first). -/
def shaSchedule : Nat → List U32 → List U32
  | 0, w => w
  | n + 1, w =>
    let x (i : Nat) : U32 := w.getD (i - 1) 0
    let s0 := (x 15).rotateRight 7 ^^^ (x 15).rotateRight 18 ^^^ (x 15 >>> 3)
    let s1 := (x 2).rotateRight 17 ^^^ (x 2).rotateRight 19 ^^^ (x 2 >>> 10)
    shaSchedule n ((x 16 + s0 + x 7 + s1) :: w)

/-- One round on the eight working variables. -/
def shaRound (v : List U32) (kw : U32 × U32) : List U32 :=
  match v with
  | [a, b, c, d, e, f, g, h] =>
    let s1 := e.rotateRight 6 ^^^ e.rotateRight 11 ^^^ e.rotateRight 25
    let t1 := h + s1 + ((e &&& f) ^^^ (~~~ e &&& g)) + kw.1 + kw.2
    let s0 := a.rotateRight 2 ^^^ a.rotateRight 13 ^^^ a.rotateRight 22
    let t2 := s0 + ((a &&& b) ^^^ (a &&& c) ^^^ (b &&& c))
    [t1 + t2, a, b, c, d + t1, e, f, g]
  | _ => v

/-- The words of a block, big-endian. -/
def shaWords : Nat → List Byte → List U32
  | 0, _ => []
  | n + 1, bs => ((bs.getD 0 0) ++ (bs.getD 1 0) ++ (bs.getD 2 0) ++ (bs.getD 3 0)) :: shaWords n (bs.drop 4)

/-- One block. -/
def shaBlock (h : List U32) (bs : List Byte) : List U32 :=
  let w := (shaSchedule 48 (shaWords 16 bs).reverse).reverse
  List.zipWith (· + ·) h ((List.zip shaK w).foldl shaRound h)

/-- The padded message: a one bit, zeros, and the length in bits in eight bytes. -/
def shaPad (bs : List Byte) : List Byte :=
  let n := bs.length
  let z := (119 - n % 64) % 64
  bs ++ [0x80] ++ List.replicate z 0 ++ (List.range 8).map fun i => BitVec.ofNat 8 (8 * n / 256 ^ (7 - i))

/-- Blocks in order. -/
def shaBlocks : Nat → List U32 → List Byte → List U32
  | 0, h, _ => h
  | n + 1, h, bs => shaBlocks n (shaBlock h (bs.take 64)) (bs.drop 64)

/-- SHA-256: 32 bytes. -/
def sha256 (bs : List Byte) : List Byte :=
  let p := shaPad bs
  (shaBlocks (p.length / 64) shaInit p).flatMap fun x =>
    [x.extractLsb' 24 8, x.extractLsb' 16 8, x.extractLsb' 8 8, x.extractLsb' 0 8]

/-- Bytes as a number, the first the least significant: how the state holds a digest. -/
def digestNat : List Byte → Nat
  | [] => 0
  | b :: bs => b.toNat + 256 * digestNat bs

end Sys2Proof.Machine
end

