-- ==== Sys2Proof/Machine/Graph.lean ====
section
/-! DEFINITION. The task-graph machine's records (R311..R318, R331), the partition's memory as Operculum hands it out, the
tables of a context (R392, R395), and the end of an instance (R149, R318, R379, R430). -/
namespace Sys2Proof.Machine

/-! ### Memory of a partition (R399; log 38) -/

/-- Whether n pages from page a are free in a partition. -/
def Part.freeAt (p : Part) (a n : Nat) : Bool :=
  p.owns (a * 65536) (n * 65536) && p.used.all fun r => a + n ≤ r.1 || r.1 + r.2.1 ≤ a

/-- The lowest free run of n 64 KiB pages: at the start of an extent or behind an allocated run. -/
def Part.findFree (p : Part) (n : Nat) : Option Nat :=
  ((((List.range 512).filter p.extents.testBit).map (· * 16384)) ++ p.used.map (fun (r : Nat × Nat × Nat) => r.1 + r.2.1)).foldl
    (fun (best : Option Nat) a => if p.freeAt a n then some (best.elim a (Nat.min a)) else best) none

/-- The partition with a run allocated to an owner, and its device address. -/
def Part.alloc (p : Part) (n owner : Nat) : Option (Nat × Part) :=
  (p.findFree n).map fun a => (a * 65536, { p with used := (a, n, owner) :: p.used })

/-- The partition with an owner's runs free again. -/
def Part.free (p : Part) (owner : Nat) : Part := { p with used := p.used.filter fun r => r.2.2 != owner }

/-- Owners: the error log, a context's tables, its save area, an image, and a mapping. -/
def ownLog : Nat := 0
def ownTables (ctx : Nat) : Nat := 4 * ctx + 1
def ownArea (ctx : Nat) : Nat := 4 * ctx + 2
def ownImage (id : Nat) : Nat := 4 * id + 3
def ownMapping (id : Nat) : Nat := 4 * id + 4

/-- The device address of an owner's run. -/
def Part.runOf (p : Part) (owner : Nat) : Nat := (p.used.find? fun r => r.2.2 == owner).elim 0 fun r => r.1 * 65536

/-- Where the gemma lies in the save area of a context: behind its granules, 8 MiB of them or 4 MiB of a row-split slot (R380). -/
def gemmaOffset (rsplit : Bool) : Nat := if rsplit then 0x400000 else 0x800000
/-- The 64 KiB pages of a save area: its granules, and 2 MiB for its gemma (R369, R380; log 38). -/
def areaPages (rsplit : Bool) : Nat := gemmaOffset rsplit / 65536 + 32

/-! ### Tables of a context (R392, R393) -/

/-- A run allocated; none when the partition has none free. -/
def Act.alloc {s0 : State} (part n owner : Nat) : Act s0 (Option Nat) := do
  let s ← Act.cur
  match (s.dev.part part).bind fun p => p.alloc n owner with
  | some (a, p) => do
    Act.dev fun d => d.updPart part fun _ => p
    return some a
  | none => return none

/-- The table that an entry of a table points to, one being allocated and cleared where there is none. -/
def Act.nextTable {s0 : State} (part ctx entry : Nat) : Act s0 (Option Nat) := do
  let s ← Act.cur
  let e : U64 := BitVec.ofNat 64 (s.mems.nat .hbm entry 8)
  if pteValid e then return some (pteAddr e)
  else
    match ← Act.alloc part 1 (ownTables ctx) with
    | some a => do
      Act.clear .hbm a 65536
      Act.write .hbm entry (leBytes 8 (a + 1))
      return some a
    | none => return none

/-- The level-4 entry of an address, tables being allocated on the way. -/
def Act.leafEntry {s0 : State} (part ctx va : Nat) : List Nat → Nat → Act s0 (Option Nat)
  | [], table => return some (table + 8 * (va / 65536 % 32))
  | lo :: ls, table => do
    match ← Act.nextTable part ctx (table + 8 * (va / 2 ^ lo % 512)) with
    | some next => Act.leafEntry part ctx va ls next
    | none => return none

/-- A 64 KiB leaf written into a context's tables; with no memory left for a table the page stays unmapped (log 38). -/
def Act.mapPage {s0 : State} (part ctx root va leaf : Nat) : Act s0 Unit := do
  match ← Act.leafEntry part ctx va [39, 30, 21] root with
  | some e => Act.write .hbm e (leBytes 8 leaf)
  | none => Act.done

/-- The table pages of a context mapped once more, in the order in which they were allocated, as a RAW alias that only
supervisor code can use, and write (R395; log 76). -/
def Act.aliasPages {s0 : State} (part ctx root : Nat) : Act s0 Unit := do
  let s ← Act.cur
  let runs := (s.dev.part part).elim [] fun p => p.used.filter fun r => r.2.2 == ownTables ctx
  Act.each runs.reverse.zipIdx fun x => Act.mapPage part ctx root (Config.tableVa + 65536 * x.2) (65536 * x.1.1 + 0x27)

/-- The alias of a context's table pages made complete: the tables that a pass allocates are mapped by the next. -/
def Act.aliasTables {s0 : State} (part ctx root : Nat) : Act s0 Unit :=
  Act.each (List.range 4) fun _ => Act.aliasPages part ctx root

/-- n consecutive pages mapped from va to pa under permission bits. -/
def Act.mapPages {s0 : State} (part ctx root va pa n bits : Nat) : Act s0 Unit :=
  Act.each (List.range n) fun i => Act.mapPage part ctx root (va + 65536 * i) (pa + 65536 * i + bits)

/-- A page's leaf taken out of a context's tables. -/
def Act.unmapPage {s0 : State} (part ctx root va : Nat) : Act s0 Unit := Act.mapPage part ctx root va 0

/-- A context without translations left in any TLB, and without walks or fetches (R360: its number is free again). -/
def Dev.dropContext (d : Dev) (ctx : Nat) : Dev :=
  let f (l : List (Nat × List Pte)) := l.map fun x => (x.1, x.2.filter fun p => p.ctx != ctx)
  { d with tlb := f d.tlb, ctlb := f d.ctlb, walks := d.walks.filter fun w => w.ctx != ctx }

/-! ### Node records (R311, R313, R331) -/

/-- A field of n bytes of a node record. -/
def GNode.fld (n : GNode) (off k : Nat) : Nat := bytesAt n.bytes off k
def GNode.task (n : GNode) : Nat := n.fld 0 2
def GNode.classS (n : GNode) : Bool := n.fld 2 1 % 2 == 1
def GNode.rsplit (n : GNode) : Bool := n.fld 2 1 / 2 % 2 == 1
def GNode.tiles (n : GNode) : Bool := n.fld 2 1 / 4 % 2 == 1
def GNode.prio (n : GNode) : Nat := n.fld 3 1 % 8
def GNode.energy (n : GNode) : Nat := n.fld 4 1 % 8
def GNode.tsid (n : GNode) : Nat := n.fld 23 1
def GNode.inst (n : GNode) : Nat := n.fld 24 2
def GNode.tileCount (n : GNode) : Nat := n.fld 16 2 * n.fld 18 2 * n.fld 20 2

/-- The instances of a node (R311). -/
def GNode.instances (n : GNode) : Nat := if !n.tiles then 1 else if n.inst = 0 then n.tileCount else n.inst

/-- The value of a `tc` register that no tile remains for (R272). -/
def tileNull : U64 := 0x8000000000000000

/-- The coordinates of tile i (R272, R331). -/
def GNode.tile (n : GNode) (i : Nat) : U64 :=
  let nx := n.fld 16 2
  let ny := n.fld 18 2
  if n.tileCount ≤ i then tileNull
  else
    let x := if n.fld 22 1 = 0 then i % nx else i / ny % nx
    let y := if n.fld 22 1 = 0 then i / nx % ny else i % ny
    BitVec.ofNat 64 (i / (nx * ny) * 2 ^ 32 + y * 2 ^ 16 + x)

/-! ### Node states (R318) -/

def NodeState.final : NodeState → Bool
  | .done | .faulted | .cancelled => true
  | _ => false

/-- A node changed. -/
def Graph.upd (g : Graph) (i : Nat) (f : GNode → GNode) : Graph := { g with nodes := g.nodes.modify i f }

/-- A predecessor of a node has become DONE: the node is READY when it was the last. -/
def GNode.predDone (n : GNode) (now : Nat) : GNode :=
  if n.st = .pending then
    { n with predLeft := n.predLeft - 1, st := if n.predLeft ≤ 1 then .ready else .pending
             wait := if n.predLeft ≤ 1 then now else n.wait }
  else n

/-- NODE_DONE (R318): a node becomes DONE, and its successors count it in the order of the successor array. -/
def Graph.nodeDone (g : Graph) (i now : Nat) : Graph :=
  match g.nodes[i]? with
  | none => g
  | some n =>
    ((g.succ.drop (n.fld 8 4)).take (n.fld 12 2)).foldl (fun g j => g.upd j fun m => m.predDone now)
      (g.upd i fun n => { n with st := .done })

/-- A graph that becomes FAULTED (2) or CANCELLED (3): a node with nothing live ends, and the others finish what is
live. -/
def Graph.stop (g : Graph) (verdict : Nat) (cause : Byte) : Graph :=
  if g.verdict ≠ 0 then g
  else
    { g with
      verdict := verdict
      cause := cause
      nodes := g.nodes.map fun n =>
        if n.st.final then n
        else if n.live = 0 then { n with st := if n.bad then .faulted else .cancelled, undisp := 0 }
        else { n with st := .running, undisp := 0 } }

/-- An instance of node i ends: normally, or with a cause (R318). -/
def Graph.instanceEnds (g : Graph) (i now : Nat) (cause : Option Byte) : Graph :=
  let g := g.upd i fun n => { n with live := n.live - 1, bad := n.bad || cause.isSome }
  let g := match cause with | some c => g.stop 2 c | none => g
  match g.nodes[i]? with
  | some n =>
    if n.undisp = 0 ∧ n.live = 0 ∧ !n.st.final then
      if n.bad then g.upd i fun n => { n with st := .faulted } else g.nodeDone i now
    else g
  | none => g

/-- An instance of node i is dispatched (R318, R320). -/
def Graph.dispatched (g : Graph) (i now : Nat) : Graph :=
  g.upd i fun n => { n with undisp := n.undisp - 1, live := n.live + 1, wait := now
                            st := if n.undisp ≤ 1 then .running else .ready }

/-- A partition's graph by its number. -/
def Part.graph (p : Part) (serial : Nat) : Option Graph := p.graphs.find? fun g => g.serial == serial

/-- A graph of a partition changed. -/
def Dev.updGraph (d : Dev) (part serial : Nat) (f : Graph → Graph) : Dev :=
  d.updPart part fun p => { p with graphs := p.graphs.map fun g => if g.serial = serial then f g else g }

/-! ### Completions (R389, R391) -/

/-- A queue pair changed. -/
def Dev.updPair (d : Dev) (fn q : Nat) (f : QPair → QPair) : Dev :=
  { d with host := { d.host with pairs := d.host.pairs.map fun x => if x.fn = fn ∧ x.q = q then f x else x } }

/-- A queue pair. -/
def Dev.pair (d : Dev) (fn q : Nat) : Option QPair := d.host.pairs.find? fun x => x.fn == fn && x.q == q

/-- A completion to post, with the head of the submission queue after its own entry was consumed (R389): a pair in ERROR
discards it (R388). -/
def Dev.completeAt (d : Dev) (fn q head : Nat) (cid status : U16) (async : Bool) (result : U64) : Dev :=
  d.updPair fn q fun x =>
    if x.error then x else { x with posts := x.posts ++ [⟨cid, head, status, async, result⟩] }

/-- The head of a submission queue: behind the entry that was consumed last. -/
def Dev.sqHead (d : Dev) (fn q : Nat) : Nat := (d.pair fn q).elim 0 (·.sqHead)

/-- A completion of the entry that its queue consumed last. -/
def Dev.complete (d : Dev) (fn q : Nat) (cid status : U16) (async : Bool) (result : U64) : Dev :=
  d.completeAt fn q (d.sqHead fn q) cid status async result

/-- What an entry of a queue pair has begun goes on, but completes to no pair any more (R388): its queue number is one that no
pair has. -/
def Dev.orphan (d : Dev) (fn q : Nat) : Dev :=
  let off (f r : Nat) : Nat := if f = fn ∧ r = q then r + 1000 else r
  { d with
    parts := d.parts.map fun p => { p with graphs := p.graphs.map fun g => { g with q := off g.fn g.q } }
    host := { d.host with
      vfs := d.host.vfs.map fun v => { v with act := v.act.map fun a => (a.1, off a.1 a.2.1, a.2.2) }
      regions := d.host.regions.map fun r => { r with q := off r.fn r.q } }
    mgmt := { d.mgmt with
      gates := d.mgmt.gates.map fun g => { g with q := off g.fn g.q }
      scrubs := d.mgmt.scrubs.map fun x => { x with q := off x.fn x.q }
      commit := d.mgmt.commit.map fun k => { k with q := off k.fn k.q } } }

/-- GRAPH_COMPLETE (R318, R391): a graph whose nodes are all final leaves the pool and is reported. -/
def Dev.graphCheck (d : Dev) (part serial : Nat) : Dev :=
  match (d.part part).bind fun p => p.graph serial with
  | some g =>
    if g.nodes.all fun n => n.st.final then
      let st := if g.nodes.all (fun n => n.st == .done) then 1 else if g.verdict = 3 then 3 else 2
      let res := BitVec.ofNat 64 ((if st = 2 then g.cause.toNat * 256 else 0) + st)
      (d.updPart part fun p => { p with graphs := p.graphs.filter fun g => g.serial != serial }).completeAt
        g.fn g.q g.head g.cid 0 true res
    else d
  | none => d

/-! ### The end of an instance -/

/-- Whether the slot's context has nothing outstanding (R149): landing data, writes, copies, matrix entries, batches. -/
def State.drained (s : State) : Bool :=
  s.me.loads.all (fun l => l.phase != .waiting) &&
    !(s.dev.net.any fun m => m.src == s.party && m.ctx == s.ctx && m.isWrite) &&
    !(s.dev.chans.any fun c => c.q.any fun t => t.who.ctx == s.ctx) && s.me.mq.isEmpty &&
    !(s.dev.batches.any fun b => b.who.ctx == s.ctx)

/-- What decides the outcome after the wait of `halt` (R149). -/
def Thread.outcome (t : Thread) : Option Byte :=
  if t.sp.mfault.getLsbD 63 then some 0x20
  else if t.sp.mecc.getLsbD 63 then some 0x40
  else if t.sp.rfault.getLsbD 63 then some (t.sp.rfault.extractLsb' 8 8)
  else none

/-- The slot once its instance has left (R332, R361, R365, R379). -/
def Thread.vacate (t : Thread) : Thread :=
  let owned := t.cx.accown.getLsbD 63 && t.cx.accown.extractLsb' 0 16 == t.cx.ctxid.extractLsb' 0 16
  { t with
    run := .idle, bound := none, infl := [], f0 := none, f1 := none, orphans := [], tabq := [], mq := []
    follows := [], pend31 := false, pend32 := false, pend50 := false, stopped := false, fetchFault := none, watch := none
    ports := 0, yielded := none
    mac := MacroRegs.reset
    cx := { t.cx with ctxid := 0, left := 0, req := false, ptroot := 0
                      accown := if owned then 0 else t.cx.accown
                      accdirty := if owned then Vector.replicate 32 0 else t.cx.accdirty } }

/-- The regions that nobody holds any more go: withdrawn, and granted to no context (R407). -/
def Dev.freeRegions (d : Dev) : Dev :=
  { d with host := { d.host with regions := d.host.regions.filter fun r => !r.withdrawn || !r.grants.isEmpty } }

/-- The regions that a context is granted: those its virtual function maps (R407). -/
def Dev.grantRegions (d : Dev) (maps : List Mapping) (ctx : Nat) : Dev :=
  let f (r : Region) : Region :=
    if maps.any fun m => m.kind == 2 && m.region == r.id then { r with grants := ctx :: r.grants } else r
  { d with host := { d.host with regions := d.host.regions.map f } }

/-- The grants of a context taken back. -/
def Dev.ungrant (d : Dev) (ctx : Nat) : Dev :=
  let f (r : Region) : Region := { r with grants := r.grants.filter fun c => c != ctx }
  { d with host := { d.host with regions := d.host.regions.map f } }.freeRegions

/-- The device once the slot's context no longer exists (R299, R360): its core map entry, memory and translations go. -/
def Dev.endContext (d : Dev) (ctx part : Nat) : Dev :=
  let d := (d.dropContext ctx).ungrant ctx
  let d := { d with jobs := d.jobs.map fun (j : Job) => { j with map := j.map.filter fun e => e.ctx != ctx } }
  d.updPart part fun p => (p.free (ownTables ctx)).free (ownArea ctx)

/-- The place of a graph in admission order (R317). -/
def Dev.ordOf (d : Dev) (e : NodeEnd) : Nat := ((d.part e.part).bind fun p => p.graph e.graph).elim 0 (·.ord)

/-- Whether one event of a cycle goes before another (R318): the rows of the table in turn, so completions before faults, and in
one row by admission order and node index. -/
def Dev.endsFirst (d : Dev) (a b : NodeEnd) : Bool :=
  if a.cause.isSome ≠ b.cause.isSome then b.cause.isSome
  else if d.ordOf a ≠ d.ordOf b then d.ordOf a < d.ordOf b
  else a.node < b.node

/-- An event put in its place. -/
def Dev.placeEnd (d : Dev) (e : NodeEnd) : List NodeEnd → List NodeEnd
  | [] => [e]
  | x :: xs => if d.endsFirst e x then e :: x :: xs else x :: d.placeEnd e xs

/-- The instances that have ended in a cycle take effect on their nodes, one event after another (R318). -/
def Dev.applyEnds (d : Dev) : Dev :=
  (d.ends.foldl (fun l e => d.placeEnd e l) []).foldl
    (fun (d : Dev) e => (d.updGraph e.part e.graph fun g => g.instanceEnds e.node d.now e.cause).graphCheck e.part e.graph)
    { d with ends := [] }

/-- The slots of the device. -/
def State.slots (s : State) : List (Nat × Thread) :=
  (s.packed :: s.rest).flatMap fun c => [(c.core.phys, c.t0), (c.core.phys, c.t1)]

/-- Whether an instance of a virtual function is bound. -/
def State.anyBound (s : State) (fn : Nat) : Bool := s.slots.any fun x => x.2.bound.any fun b => b.vf == fn

/-- The counter banks of a paused or evicted virtual function stand still once no instance of it is bound (R422). -/
def State.freezeBanks (s : State) (fn : Nat) : State :=
  let stop (b : Bank) : Bank := if b.holder = some fn then { b with frozen := true } else b
  if s.anyBound fn || !(s.dev.host.vfs.any fun v => v.fn == fn && v.paused) then s
  else { s with dev := { s.dev with mgmt := { s.dev.mgmt with banks := s.dev.mgmt.banks.map stop } } }

/-- The counter banks of a virtual function count again, and those saved when it was unbound are back unless another holds them
(R422). -/
def Dev.runBanks (d : Dev) (fn : Nat) : Dev :=
  let thaw (b : Bank) : Bank := if b.holder = some fn then { b with frozen := false } else b
  let saved := (d.host.vfs.filter fun v => v.fn == fn).flatMap (·.counters)
  let back := saved.filter fun b => !(d.mgmt.banks.any fun x => x.num == b.num)
  { d with
    mgmt := { d.mgmt with banks := (d.mgmt.banks ++ back).map thaw }
    host := { d.host with vfs := d.host.vfs.map fun v =>
      if v.fn = fn then { v with counters := v.counters.filter fun b => !back.contains b } else v } }

/-- The faulting bundle of a slot whose instance ends as faulted (R430): where the fault names none, the bundle begun last. -/
def Thread.faultPc (t : Thread) : Pc :=
  match t.run with
  | .faulting _ _ a => a
  | _ => t.iss.bpc

/-- The slot's instance leaves, completed or faulted (R318, R430); its node hears of it when the cycle ends. -/
def State.endInstance (s : State) (cause : Option Byte) : State :=
  match s.me.bound with
  | none => { s with me := s.me.vacate }
  | some b =>
    let t := s.abandonColls
    let t := match cause with
      | some c => runAct (fun _ => Act.log b.part 5 c 0xFF s.core.phys (pcAddr s.me.faultPc) b.job 0) t
      | none => t
    let d := t.dev.endContext b.ctx b.part
    let d := { d with walked := d.walked.filter (fun w => w.who != s.party), fetches := d.fetches.filter fun f => f.2 != s.party }
    let e : NodeEnd := ⟨b.part, b.graph, b.node, cause⟩
    { t with me := t.me.vacate, dev := { d with ends := d.ends ++ [e] } }.freezeBanks b.vf

/-- HALT_COMPLETE (R149, R188, R195, R227, R429): the wait after `halt` ends. -/
def execHaltComplete (s : State) : Out :=
  .next (if s.me.run = .halting ∧ s.drained then s.endInstance s.me.outcome else s)

/-- INSTANCE_FAULT (R145, R430): an instance that ended as faulted leaves once its work is done. -/
def execInstanceFault (s : State) : Out :=
  .next (match s.me.run with
    | .faulting code _ _ => if s.drained then s.endInstance (some code) else s
    | _ => s)

/-! ### Admission and tiles (R317, R272, R331) -/

/-- The entries of the ready pool in use. -/
def Part.pool (p : Part) : Nat := ((p.graphs.filter (·.admitted)).map fun g => g.nodes.length).foldl (· + ·) 0

/-- The claim counters of a graph's persistent tile spaces. -/
def Graph.spaces (g : Graph) : List (Nat × Nat) :=
  ((g.nodes.filter fun n => n.tiles && n.inst != 0).map (·.tsid)).eraseDups.map fun t => (t, 0)

/-- A graph as it enters the pool (R317, R318): one that an eviction took out goes on as it stood (R411). -/
def Graph.enter (g : Graph) (ord now : Nat) : Graph :=
  if g.hold = 2 then { g with admitted := true, ord := ord, hold := 0 }
  else
  { g with
    admitted := true, ord := ord, claims := g.spaces
    nodes := g.nodes.map fun n =>
      { n with st := if n.fld 6 2 = 0 then .ready else .pending, predLeft := n.fld 6 2, undisp := n.instances, live := 0
               wait := now, bad := false } }

/-- The first graph that can be admitted (R317): none of its queue waits before it, and its nodes fit. -/
def Part.nextGraph (p : Part) : Option Graph :=
  (p.graphs.zipIdx.find? fun g => !g.1.admitted && g.1.hold != 1 && p.pool + g.1.nodes.length ≤ 4096 &&
    !((p.graphs.take g.2).any fun h => !h.admitted && h.hold != 1 && h.fn == g.1.fn && h.q == g.1.q)).map (·.1)

/-- GRAPH_ADMIT (R317, R318, R331): the instances of a graph that its job has admitted are a gang of their own, which is not
released yet (R342; log 59). -/
def execGraphAdmit (part : Nat) (s : State) : Out :=
  .next (match (s.dev.part part).bind Part.nextGraph with
    | some g =>
      let d := { s.dev with
        serial := s.dev.serial + 1
        jobs := s.dev.jobs.map fun (j : Job) => if j.id = g.image then { j with released := false } else j }
      { s with dev := (d.updGraph part g.serial fun g => g.enter d.serial d.now).graphCheck part g.serial }
    | none => s)

/-- What an `ntile` of the slot claims (R331): the value and the device after the claim. -/
def State.claim (s : State) : U64 × Dev :=
  match s.me.bound with
  | none => (tileNull, s.dev)
  | some b =>
    match (s.dev.part b.part).bind fun p => p.graph b.graph with
    | none => (tileNull, s.dev)
    | some g =>
      match g.nodes[b.node]? with
      | none => (tileNull, s.dev)
      | some n =>
        if !n.tiles || n.inst == 0 then (tileNull, s.dev)
        else
          let i := (g.claims.find? fun c => c.1 == n.tsid).elim 0 (·.2)
          (n.tile i, s.dev.updGraph b.part b.graph fun g =>
            { g with claims := g.claims.map fun c => if c.1 = n.tsid then (c.1, c.2 + 1) else c })

/-- NTILE (R41, R272, R331): the claim is made at issue and lands 24 bundles on. -/
def execNtile (p : U3) (s : State) : Out :=
  .next (s.when (s.pred p) (
    let r := s.claim
    let i : U2 := s.me.sp.tcptr.extractLsb' 0 2
    let t := { s with dev := r.2, me := { s.me with sp := { s.me.sp with tcptr := (i + 1).zeroExtend 64 } } }
    t.issue 24 (.tc i r.1) 0))

end Sys2Proof.Machine
end

