-- ==== Sys2Proof/Machine/Context.lean ====
section
/-! DEFINITION. Contexts (R327, R328, R360..R375, R452): binding an instance, suspending one, its gemma, and running it
again; core reset, debug stops and trap entries. -/
namespace Sys2Proof.Machine

/-! ### Core reset (R28) -/

/-- CORE_RESET (R28): every register of the slot and what its core shares take their reset values, and no instance is
bound. -/
def execCoreReset (s : State) : Out :=
  let c := CoreRec.reset s.core.phys
  .next { s with
    me := if s.me.slot1 then c.t1 else c.t0, sib := if s.me.slot1 then c.t0 else c.t1, core := c.core
    dev := (s.dev.slotReplaced (slotNo s.core.phys false)).slotReplaced (slotNo s.core.phys true) }

/-- A core whose slots are reset for the other RSPLIT setting (R57, R206). -/
def CoreRec.split (c : CoreRec) (v : Bool) : CoreRec :=
  if c.core.rsplit = v then c
  else ⟨{ c.core with rsplit := v, turn1 := false }, c.t0.splitReset c.core.phys v, c.t1.splitReset c.core.phys v⟩

/-- A core record of the device replaced. -/
def State.setCore (s : State) (c : CoreRec) : State :=
  if s.core.phys = c.core.phys then
    { s with core := c.core, me := c.slot s.me.slot1, sib := c.slot s.sib.slot1 }
  else { s with rest := s.rest.map fun x => if x.core.phys = c.core.phys then c else x }

theorem State.setCore_mems (s : State) (c : CoreRec) : (s.setCore c).mems = s.mems := by
  unfold State.setCore
  split <;> rfl

/-! ### Launch state (R327) -/

/-- The sections of a task. DESIGN CHOICE (log 95): an image-wide section of a type that belongs to one task does nothing. -/
def Image.secsOf (im : Image) (typ task : Nat) : List Section := im.secs.filter fun x => x.typ == typ && x.owner == task

/-- A task's entry, class and RSPLIT flag (R122). -/
def Image.taskSec (im : Image) (task : Nat) : Nat × Bool × Bool :=
  match im.secsOf 1 task with
  | x :: _ => (bytesAt x.data 0 8, bytesAt x.data 8 1 == 1, bytesAt x.data 9 1 % 2 == 1)
  | [] => (0, false, false)

/-- Whether the task of a node runs on a slot of a row-split core alone (R206): the flag of its TASK section, which the node's
RSPLIT copies (R313; log 73). -/
def Image.splits (im : Image) (n : GNode) : Bool := (im.taskSec n.task).2.2

/-- Whether the task of a graph's node is row-split (R206). -/
def Dev.splits (d : Dev) (g : Graph) (n : GNode) : Bool :=
  (d.host.images.find? fun m => m.id == g.image).any fun im => im.splits n

/-- The cells of a CELLS section with their tags and whether they are discardable. -/
def Section.cells (x : Section) : List (Nat × Tag × Bool) :=
  let exp : BitVec 11 := BitVec.ofNat 11 (bytesAt x.data 4 2)
  let full := bytesAt x.data 2 1 == 1
  (List.range (bytesAt x.data 0 2)).map fun i =>
    (x.target + i, ⟨full, if full then exp else 0, exp⟩, bytesAt x.data 3 1 == 1)

/-- `%pdisc` at launch (R372). -/
def Image.pdisc (im : Image) (task : Nat) : Vector U64 12 :=
  let cs := (im.secsOf 3 task).flatMap fun x => (x.cells.filter (·.2.2)).map (·.1)
  Vector.ofFn fun w : Fin 12 =>
    cs.foldl (fun (x : U64) c => if c / 64 = w.val then x ||| (1#64 <<< (c % 64)) else x) 0

/-- The shape registers at launch: live copies from the SHAPE sections, shadows 0. -/
def Image.shapes (im : Image) (task first : Nat) : Vector U128 4 :=
  Vector.ofFn fun i : Fin 4 =>
    match (im.secsOf 6 task).find? fun x => x.target == first + i.val with
    | some x => BitVec.ofNat 128 (bytesAt x.data 0 16)
    | none => 0

/-- `%qcfg` at launch from the QUEUE sections, under the write rule of R233. -/
def Image.qcfg (im : Image) (task size : Nat) : Vector U64 16 :=
  Vector.ofFn fun i : Fin 16 =>
    match (im.secsOf 9 task).find? fun x => x.target == i.val with
    | some x =>
      qcfgLand (BitVec.ofNat 64 (2 ^ 63 + Nat.log2 (bytesAt x.data 8 4 / 16) * 2 ^ 40 + bytesAt x.data 4 4 * 2 ^ 20 +
        bytesAt x.data 0 4)) size
    | none => 0

/-- The tables at launch (R75, R327). -/
def Image.tables (im : Image) (task : Nat) (old : Tables) : Tables :=
  let reset := Tables.reset
  let ents (bs : List Byte) (off : Nat) : Vector U16 16 := Vector.ofFn fun e : Fin 16 => BitVec.ofNat 16 (bytesAt bs (off + 2 * e.val) 2)
  { gens := old.gens
    cb := Vector.ofFn fun i : Fin 16 =>
      match (im.secsOf 7 task).find? fun x => x.target == i.val with
      | some x => ⟨BitVec.ofNat 16 (bytesAt x.data 0 1 % 2), ents x.data 2⟩
      | none => reset.cb[i]
    scale := match im.secsOf 8 task with
      | x :: _ => ents x.data 0
      | [] => reset.scale }

/-- The general registers at launch (R327). -/
def launchG (b : Bound) (dev ord : Nat) (n : GNode) : Vector U64 32 :=
  Vector.ofFn fun i : Fin 32 =>
    if i.val = 1 then BitVec.ofNat 64 (dev * 2 ^ 54 + b.jcore * 2 ^ 46)
    else if i.val = 2 then BitVec.ofNat 64 (b.inst * 2 ^ 32 + ord * 2 ^ 16 + b.node)
    else if 16 ≤ i.val ∧ i.val < 24 ∧ i.val - 16 < n.fld 5 1 then BitVec.ofNat 64 (n.fld (32 + 16 * (i.val - 16)) 8)
    else 0

/-- The registers at launch (R327). -/
def launchRegs (im : Image) (b : Bound) (dev ord : Nat) (n : GNode) : Regs :=
  let r := Regs.reset
  { r with
    g := launchG b dev ord n
    msL := im.shapes n.task 0
    xsL := im.shapes n.task 4
    tc := if n.tiles && n.inst == 0 then r.tc.set 0 (n.tile b.inst) else r.tc }

/-- The special registers at launch: reset values, but for the generator, `%cmask`, the emulation registers, the debug stop
and the correction counts, which stay (R327; log 39). -/
def Sprs.launch (r : Sprs) (im : Image) (n : GNode) (size : Nat) : Sprs :=
  { Sprs.reset r.rngs0 r.rngs1 with
    tcptr := if n.tiles && n.inst == 0 then 1 else 0
    qcfg := im.qcfg n.task size
    aemu := r.aemu, aemuc := r.aemuc, cmask := r.cmask, dstop := r.dstop, eccnt := r.eccnt }

/-- The user trap registers at launch; system software's stay (R327). -/
def TrapRegs.launch (r : TrapRegs) : TrapRegs :=
  { r with ucause := 0, uepc := 0, ufpc := 0, uinfo := 0, uvec := 0, uscratch := 0, ulact := 0 }

/-- The slot with an instance bound, before its first bundle (R327). `root` is the root of its tables, `gang` holds it until
the gang is released (R342). -/
def Thread.launch (t : Thread) (im : Image) (b : Bound) (dev ord : Nat) (n : GNode) (size root : Nat) (gang : Bool) :
    Thread :=
  let entry := pcOf (BitVec.ofNat 64 (im.base + (im.taskSec n.task).1))
  { t with
    regs := launchRegs im b dev ord n
    sp := t.sp.launch im n size
    trap := t.trap.launch
    loop := LoopRegs.reset
    mac := MacroRegs.reset
    cx := { t.cx with ctxid := BitVec.ofNat 64 b.ctx, left := 0, req := false, pdisc := im.pdisc n.task
                      ptroot := BitVec.ofNat 64 root }
    pc := entry, priv := false, infl := [], f0 := none, f1 := none, orphans := [], tabq := [], mq := []
    follows := [], nextId := Vector.replicate 16 1, pend31 := false, pend32 := false, pend50 := false, stopped := false
    yielded := none
    run := if gang then .gang else .running
    bound := some b, iss := { Iss.reset with bpc := entry }, fetchFault := none, watch := none
    ports := 0 }

/-- A slot's cells cleared, their refusal-list entries and those of its queue regions released (R327). -/
def Act.clearCells {s0 : State} (p : Place) : Act s0 Unit := do
  let c0 := p.first / 1024
  Act.clear .spl (p.at 0) p.size
  Act.each (List.range (p.size / 1024)) fun i => Act.tag (cellKey p.phys (c0 + i)) Tag.reset
  Act.dev fun d => (d.replaced .spl (p.at 0) p.size)
  Act.dev fun d => d.tagsReplaced p.phys c0 (p.size / 1024)
  Act.dev fun d => d.release fun e => e.phys == p.phys && match e.what with
    | .cell k => cellKey p.phys c0 ≤ k && k < cellKey p.phys (c0 + p.size / 1024)
    | .region b _ => b == p.slot1
    | .context _ => false

/-- The control store of a core, entry by entry. -/
def Act.setStore {s0 : State} (phys : Nat) (f : Nat → U128) : Act s0 Unit := do
  Act.each (List.range 1024) fun i => Act.ctl (phys * 1024 + i) (f i)
  Act.dev fun d => d.entriesReplaced phys 0 1024

/-- A control-store entry that an image gives. -/
def Image.store (im : Image) (task i : Nat) : U128 :=
  match (im.secs.filter fun x => x.typ == 13 && (x.owner == task || x.owner == 0xFFFF)).find? fun x =>
      x.target ≤ i && i < x.target + x.data.length / 16 with
  | some x => BitVec.ofNat 128 (bytesAt x.data (16 * (i - x.target)) 16)
  | none => 0

/-- Whether the other slot of a core has an instance bound (R328). -/
def CoreRec.otherBound (c : CoreRec) (slot1 : Bool) : Bool := c.core.rsplit && (c.slot (!slot1)).bound.isSome

/-- The lowest context identifier that no context holds (R360; log 40). -/
def State.freeCtx (s : State) : Nat :=
  let used := ((s.packed :: s.rest).flatMap fun c => [c.t0, c.t1]).filterMap (fun t => t.bound.map (·.ctx)) ++
    s.dev.ctxs.map (·.id)
  ((List.range used.length.succ).find? fun i => !used.contains (i + 1)).elim 1 (· + 1)

/-- The lowest core index that no context of the job holds (R299): none while the map's 256 entries are all held. -/
def Job.freeIndex (j : Job) : Option Nat := (List.range 256).find? fun i => !(j.map.any fun e => e.idx == i)

/-- The pages of a context: the task's code, its partition's error log, the mappings of its VF, and the alias of its tables (R395,
R411, R431, R452). -/
def Act.buildTables {s0 : State} (p : Part) (im : Image) (vf : Option Vf) (task ctx root : Nat) : Act s0 Unit := do
  Act.each (im.code.filter fun c => c.1 == task) fun c =>
    Act.mapPages p.num ctx root im.base c.2.1 c.2.2 0x13
  Act.mapPages p.num ctx root Config.logVa p.logPa 2 0x23
  match vf with
  | some v => do
    Act.each v.maps fun m => Act.mapPages p.num ctx root m.va m.pa m.pages m.bits
    Act.dev fun d => d.grantRegions v.maps ctx
  | none => Act.done
  Act.aliasTables p.num ctx root

/-- INSTANCE_BIND (R299, R327, R328, R342, R360, R452): an instance bound to a core or slot of a partition; nothing when no
save area or no entry of the job's core map is free (log 38). -/
def State.bindInstance (s : State) (p : Part) (g : Graph) (im : Image) (i : Nat) (n : GNode) (phys : Nat) (slot1 : Bool) :
    State :=
  match s.coreAt phys, s.dev.job im.id, (s.dev.job im.id).bind Job.freeIndex with
  | some c0, some job, some jcore =>
    let c := c0.split (im.splits n)
    let place := placeOf c.core slot1
    let ctx := s.freeCtx
    let vf := s.dev.host.vfs.find? fun v => v.fn == g.vf
    let b : Bound :=
      { ctx := ctx, part := p.num, job := job.id, jcore := jcore, graph := g.serial, node := i
        inst := n.instances - n.undisp, vf := g.vf, since := s.dev.now, saves := 0
        budget := (vf.bind (·.policy)).elim 20000 fun x => if x.flags.testBit 8 then x.saveBudget else 20000 }
    let gang := decide (1 < job.members) && !job.released
    runAct (fun _ => do
      Act.upd (fun t => t.setCore c) (fun t => t.setCore_mems c)
      match ← Act.alloc p.num (areaPages c.core.rsplit) (ownArea ctx) with
      | none => Act.done
      | some _ =>
        match ← Act.alloc p.num 1 (ownTables ctx) with
        | none => Act.done
        | some root => do
          Act.clear .hbm root 65536
          Act.buildTables p im vf n.task ctx root
          Act.clearCells place
          Act.each (im.secsOf 3 n.task) fun x => Act.each x.cells fun y => Act.tag (place.cell (1024 * y.1)) y.2.1
          Act.each (im.secsOf 4 n.task) fun x => Act.bytes .spl (place.at x.target) x.data
          if !c.otherBound slot1 then do
            Act.setStore phys (im.store n.task)
            Act.coreOf phys fun k => { k with tabs := im.tables n.task k.tabs }
            Act.dev fun d => d.tablesReplaced phys (List.range 17)
          Act.thread phys slot1 fun t => t.launch im b job.self g.ordinal n place.size root gang
          Act.dev fun d => d.slotReplaced (slotNo phys slot1)
          Act.dev fun d => { d with jobs := d.jobs.map fun (j : Job) =>
            if j.id = job.id then { j with map := j.map ++ [⟨b.jcore, phys, slot1, ctx⟩] } else j }
          Act.dev fun d => (d.updGraph p.num g.serial fun g => g.dispatched i d.now).runBanks g.vf) s
  | _, _, _ => s

/-! ### Operand checks (R329) -/

/-- The cause that operand k of an instance gives: its two end bytes translated, or its range checked. -/
def State.operandFault (s : State) (b : Bound) (root size : Nat) (n : GNode) (k : Nat) : Option (Byte × U64) :=
  let base : U64 := BitVec.ofNat 64 (n.fld (32 + 16 * k) 8)
  let ext := n.fld (40 + 16 * k) 4
  let write := 2 ≤ n.fld (45 + 16 * k) 1
  let page (va : Nat) (host : Bool) : Option Byte :=
    if 2 ^ 48 ≤ va then some 0x11
    else match walkTables s.mems s.dev b.part b.ctx root va with
      | .fail c => some c
      | .leaf p => p.denies ⟨false, write, false, some host⟩
  let both (host : Bool) := (page base.toNat host).or (page (base.toNat + ext - 1) host)
  (match n.fld (44 + 16 * k) 1 with
    | 0 => both false
    | 1 => both true
    | 2 => if size < base.toNat + ext then some 0x12 else none
    | _ =>
      if bitsOf base 45 20 ≠ 0 ∨ !(s.dev.job b.job).any (fun (j : Job) => (j.devs[podDev base]?).any fun (e : DevEntry) => e.valid) then some 0x12
      else none).map fun c => (c, base)

/-- The table entries that the check of operand k reads (R329, R394). -/
def State.operandReads (s : State) (b : Bound) (root : Nat) (n : GNode) (k : Nat) : List (Space × Nat × Nat) :=
  let base := n.fld (32 + 16 * k) 8
  if 1 < n.fld (44 + 16 * k) 1 then []
  else ([base, base + n.fld (40 + 16 * k) 4 - 1].filter (· < 2 ^ 48)).flatMap (walkReads s.mems s.dev b.part b.ctx root)

/-- OPERAND_CHECK (R329): the first operand that fails makes the instance fault before any bundle issues. The table entries read on
the way are corrected (R424). -/
def State.checkOperands (s : State) (phys : Nat) (slot1 : Bool) (n : GNode) : State :=
  match s.threadAt phys slot1, s.placeAt phys slot1 with
  | some t, some p =>
    match t.bound with
    | some b =>
      let ks := List.range (n.fld 5 1)
      let fault (k : Nat) := s.operandFault b t.root p.size n k
      let met := (ks.findIdx? fun k => (fault k).isSome).elim ks.length (· + 1)
      let s := runAct (fun _ => Act.correctFor phys slot1 ((ks.take met).flatMap (s.operandReads b t.root n))) s
      match ks.findSome? fault with
      | some (c, a) =>
        let u := s.updThread phys slot1 fun t => { t with run := .faulting c a t.pc }
        if c = 0x40 then runAct (fun _ => Act.logBad phys 12 a b.job) u else u
      | none => s
    | none => s
  | _, _ => s

/-! ### Suspension (R364..R368) -/

/-- Whether what a suspension waits for is settled (R366): landing data, the copy rows that have started but for parked ones,
routing batches, the matrix entries that run to completion, and the writes of the slot that its engines hold back. -/
def State.settled (s : State) : Bool :=
  s.me.loads.all (fun l => l.phase != .waiting) && !(s.dev.batches.any fun b => b.who.ctx == s.ctx) && s.mandatory == 0 &&
    !(s.dev.net.any fun m => (match m.src with | .channel _ _ => m.stage != .parked | _ => m.kind == .own) && m.ctx == s.ctx) &&
    !(s.ownWrites.any s.engineHolds)

/-- The transfers of a context by channel, a chain that was executing a record with that record's rest (R366, R367). -/
def Dev.transfersOf (d : Dev) (ctx : Nat) : List (Nat × Transfer) :=
  d.chans.flatMap fun c => (c.q.filter fun t => t.who.ctx == ctx).map fun t => (c.ch, t)

/-- The keys of a slot's part of a memory made relative. -/
def relCells {α : Type} (lo n : Nat) (l : List (Nat × α)) : List (Nat × α) :=
  (l.filter fun c => lo ≤ c.1 && c.1 < lo + n).map fun c => (c.1 - lo, c.2)

/-- A cell marked discardable (R372). -/
def Thread.discards (t : Thread) (cell : Nat) : Bool := (t.cx.pdisc.toList.getD (cell / 64) 0).getLsbD (cell % 64)

/-- The slot of a suspended context: no request, and 0x32 pending after a forced save alone (R364, R374). -/
def Thread.suspended (t : Thread) (forced : Bool) : Thread :=
  { t with cx := { t.cx with left := 0, req := false }, pend31 := false, pend32 := forced, pend50 := false, watch := none
           stopped := false, yielded := none
           run := match t.run with | .saving _ => .running | r => r }

/-- The context of the slot suspended (R364, R366, R368, R378): everything of the slot goes to the saved context, the
accumulator store stays. -/
def State.capture (s : State) (forced : Bool) (b : Bound) : State :=
  let p := s.place
  let c0 := p.first / 1024
  let t := s.me.suspended forced
  let saved : SavedCtx :=
    { id := b.ctx, bound := { b with since := s.dev.now, saves := b.saves + 1 }, phys := s.core.phys
      slot1 := s.me.slot1, seq := b.saves + 1, forced := forced, written := false
      area := (s.dev.part b.part).elim 0 (·.runOf (ownArea b.ctx)), image := gemmaOffset s.core.rsplit, digest := 0, thread := t, tabs := s.core.tabs
      cells := (relCells (p.at 0) p.size s.mems.spl).filter fun c => !t.discards (c.1 / 1024)
      tags := relCells (cellKey p.phys c0) (p.size / 1024) s.mems.tags
      cst := relCells (s.core.phys * 1024) 1024 s.mems.cst, copies := s.dev.transfersOf b.ctx }
  (runAct (fun _ => do
    Act.correctWords s.core.phys s.me.slot1 (s.dev.weakIn (p.at 0) p.size)
    Act.dev fun d => { d with
      ctxs := d.ctxs ++ [saved]
      chans := d.chans.map fun (c : Channel) => { c with q := c.q.filter fun t => t.who.ctx != b.ctx }
      refs := d.refs.map fun e => if e.phys == p.phys then
          (match e.what with
            | .cell k => if cellKey p.phys c0 ≤ k && k < cellKey p.phys (c0 + p.size / 1024) then { e with what := .context b.ctx } else e
            | .region sl _ => if sl == s.me.slot1 then { e with what := .context b.ctx } else e
            | .context _ => e)
        else e }
    Act.me fun t =>
      let v := t.vacate
      { v with cx := { v.cx with accown := t.cx.accown, accdirty := t.cx.accdirty } }) s).freezeBanks b.vf

/-- The first failing word that a save of the slot's context meets, as its array and the array form (R426, R428; log 20): of its
registers, its cells that are saved and their tags, its region pointers, the control store, or the tables. -/
def State.saveBad (s : State) : Option (Nat × U64) :=
  let p := s.place
  let slot := slotNo s.core.phys s.me.slot1
  let c0 := cellKey p.phys (p.first / 1024)
  let word (w : Nat × Nat) : Option (Nat × U64) :=
    if (w.1 = 0 ∨ w.1 = 1) ∧ w.2 / 4096 = slot then some (w.1, arrayWord w.1 (w.2 / 64 % 64))
    else if w.1 = 2 ∧ p.at 0 ≤ 8 * w.2 ∧ 8 * w.2 < p.at 0 + p.size then
      if s.me.discards ((8 * w.2 - p.at 0) / 1024) then none else some (2, arrayWord 2 (8 * w.2 % 1048576))
    else if w.1 = 7 ∧ w.2 / 1024 = s.core.phys then some (7, arrayWord 7 (w.2 % 1024))
    else if w.1 = 9 ∧ w.2 / 128 = s.core.phys then some (9, arrayWord 9 (8 * (w.2 % 128)))
    else none
  let tag (k : Nat) : Option (Nat × U64) :=
    if c0 ≤ k ∧ k < c0 + p.size / 1024 then some (3, arrayWord 3 (1024 * (k % 1024)))
    else if regionKey slot 0 ≤ k ∧ k < regionKey slot 16 then some (3, arrayWord 3 (k - regionKey slot 0))
    else none
  (s.dev.bad.findSome? word).or (s.dev.badTags.findSome? tag)

/-- A suspension (R364, R366): the context is captured once everything is settled, and until then the slot issues nothing. A save
that meets a failing word ends the instance as faulted with cause 0x40 (R426; log 20). -/
def State.suspend (s : State) (forced : Bool) : State :=
  match s.me.bound with
  | none => s
  | some b =>
    if !s.settled then { s with me := { s.me with run := .saving forced } }
    else
      match s.saveBad with
      | some (arr, info) =>
        runAct (fun _ => Act.logBad s.core.phys arr info b.job) { s with me := { s.me.withdraw with run := .faulting 0x40 info s.me.pc } }
      | none => s.capture forced b

/-- Whether a slot's save budget is used up while it runs (R364). -/
def Thread.spent (t : Thread) : Bool := t.cx.req && t.cx.left == 0 && (t.run == .running || t.run == .gang)

/-- FORCED_SAVE (R362, R364): with the budget used up the slot freezes, and its context is suspended. -/
def execForcedSave (s : State) : Out := .next (s.when s.me.spent (s.suspend true))

/-- The slot at the boundary at which a write of READY lands (R38, R364): every result due here has taken effect, and a load
that fails here has trapped. -/
def State.readyLanded (s : State) : State :=
  let t := s.land
  if s.me.infl.any Infl.faulty then t.landFault else t

/-- PCTL_READY (R363, R364): a write of READY lands: with a request posted the context is suspended cooperatively, after
every result due here has taken effect. -/
def execPctlReady (s : State) : Out :=
  .next (if s.me.cx.req && s.me.run == .running then
      let t := s.readyLanded
      if t.me.run = .running then t.suspend false else t
    else s)

/-! ### The gemma (R369..R373) -/

/-- A section with its header and padding (R370). -/
def gemmaSec (typ which : Nat) (bs : List Byte) : List Byte :=
  leBytes 4 typ ++ leBytes 4 which ++ leBytes 8 bs.length ++ bs ++ zeroBytes ((16 - bs.length % 16) % 16)

/-- Words of 8 bytes. -/
def words8 {n : Nat} (v : Vector U64 n) : List Byte := v.toList.flatMap fun x => leBytes 8 x.toNat

/-- The special registers of the SPECIAL section: numbers and how many indices (0 when not indexed). -/
def gemmaSprs (c : Core) : List (Nat × Nat) :=
  [(0x001, 0), (0x008, 0), (0x010, 0), (0x011, 0), (0x012, 0), (0x013, 0), (0x014, 0), (0x018, 0),
    (0x034, pdiscWords c), (0x038, 0), (0x039, 0)] ++
  (List.range 25).map (fun i => (0x040 + i, 0)) ++
  [(0x060, 0), (0x061, 0), (0x062, 0), (0x063, 0), (0x070, 0), (0x071, 0), (0x072, 0), (0x073, 0), (0x075, 0),
    (0x076, 0), (0x077, 0), (0x080, 0), (0x081, 0), (0x082, 0), (0x083, 0), (0x084, 0), (0x085, 0), (0x086, 0)] ++
  (List.range 32).map (fun i => (0x090 + i, 0)) ++ [(0x0B0, 0), (0x0B1, 0), (0x0D0, 0), (0x0D8, 0), (0x0D9, 0)]

/-- A saved matrix entry (R371). -/
def MqEntry.record (e : MqEntry) : List Byte :=
  let enc : Byte × U32 := match e.op with
    | .ins i => match encode i with
      | some x => (x.ext, x.word)
      | none => (0, 0)
    | .xfer _ _ => (0, 0)
  let xfer := match e.op with | .xfer _ _ => true | _ => false
  let shape : Nat := match e.op with | .xfer v _ => v.toNat | _ => e.shape.toNat
  let tail : List Byte := match e.op with
    | .xfer v m => if v.getLsbD 62 then words8 m else zeroBytes 256
    | .ins (.aput _ _ _ _ _) => leBytes 256 e.vec.toNat
    | _ => zeroBytes 256
  leBytes 4 enc.2.toNat ++ [enc.1] ++ leBytes 1 (if e.clamp then 1 else 0) ++
    leBytes 1 ((if e.follow.isEmpty then 0 else 1) + if xfer then 2 else 0) ++ [0] ++
    leBytes 8 (if xfer then e.base.toNat else e.gx.toNat) ++ leBytes 16 shape ++ leBytes 8 e.w.toNat ++ zeroBytes 24 ++ tail

/-- A saved copy transfer (R371): a chain has the address of the record that it would read next, and with it the shape and the
row of the record that it is executing. -/
def Transfer.record (t : Transfer) (ch : Nat) : List Byte :=
  leBytes 8 t.id ++ leBytes 8 (if t.chain then t.next.toNat else t.sa.toNat) ++
    leBytes 8 (if t.chain then 0 else t.da.toNat) ++ leBytes 16 (if t.rows then t.shape.toNat else 0) ++ leBytes 1 ch ++
    leBytes 1 ((if t.tag then 1 else 0) + t.tier * 2 + (if t.follow then 8 else 0) + if t.chain then 16 else 0) ++
    leBytes 2 0 ++ leBytes 4 (if t.rows then t.row else 0) ++ zeroBytes 16

/-- A tag word (R370). -/
def Tag.word (t : Tag) (disc : Bool) : Nat :=
  (if t.full then 2 ^ 31 else 0) + (if disc then 2 ^ 30 else 0) + t.exp.toNat * 2 ^ 16 + t.count.toNat

/-- The CELLS section: the tag words, then the data of the cells that are not discardable. -/
def SavedCtx.cellBytes (c : SavedCtx) (n : Nat) : List Byte :=
  (List.range n).flatMap (fun i => leBytes 4 ((spGet Tag.reset c.tags i).word (c.thread.discards i))) ++
    ((List.range n).filter fun i => !c.thread.discards i).flatMap fun i =>
      (List.range 1024).map fun x => spGet 0 c.cells (1024 * i + x)

/-- The image of a suspended context (R369..R373). -/
def State.gemma (s : State) (c : SavedCtx) (core : Core) : List Byte :=
  let t := c.thread
  let graph := (s.dev.part c.bound.part).bind fun p => p.graph c.bound.graph
  let split := graph.bind fun g => (g.nodes[c.bound.node]?).map (s.dev.splits g)
  let core := { core with rsplit := split.getD core.rsplit }
  let v := { s with me := t, core := { core with tabs := c.tabs } }
  let isM := !isS c.phys
  let n := cellCount core
  let frames := [(0, some ⟨false, t.infl, t.regs.q, t.regs.b⟩, 2), (1, t.f0, if t.f0.any (·.tagS) then 1 else 0),
    (2, t.f1, if t.f1.any (·.tagS) then 1 else 0)]
  let shapes (l sh : Vector U128 4) : List Byte :=
    (List.range 4).flatMap fun i => leBytes 16 (l.toList.getD i 0).toNat ++ leBytes 16 (sh.toList.getD i 0).toNat
  let secs : List (List Byte) :=
    [ gemmaSec 1 0 (leBytes 8 (pcAddr t.pc).toNat ++ leBytes 8 t.sp.bundle.toNat ++
        (t.regs.g.toList.drop 1).flatMap (fun x => leBytes 8 x.toNat) ++
        leBytes 8 (((List.range 8).filter fun i => t.regs.readP (BitVec.ofNat 3 i)).foldl (fun a i => a + 2 ^ i) 0) ++
        (t.regs.k.toList.drop 1).flatMap (fun x => leBytes 8 x.toNat) ++ words8 t.regs.tc ++
        (if isM then shapes t.regs.msL t.regs.msS else zeroBytes 128) ++ shapes t.regs.xsL t.regs.xsS),
      gemmaSec 2 0 (t.regs.v.toList.flatMap (fun x => leBytes 256 x.toNat) ++
        t.regs.m.toList.flatMap fun x => leBytes 512 x.toNat),
      gemmaSec 3 0 ((gemmaSprs core).flatMap fun r => (List.range (Nat.max 1 r.2)).flatMap fun i =>
        leBytes 2 r.1 ++ leBytes 2 i ++ leBytes 4 0 ++ leBytes 8 (v.readSpr r.1 i).toNat),
      gemmaSec 4 0 (leBytes 8 t.rnq.length ++ t.rnq.flatMap fun x => leBytes 8 x.toNat) ] ++
    (if isM then
      [gemmaSec 5 0 (c.tabs.cb.toList.flatMap (fun x => leBytes 2 x.typ.toNat ++
        x.ents.toList.flatMap fun e => leBytes 2 e.toNat) ++ c.tabs.scale.toList.flatMap fun e => leBytes 2 e.toNat)]
      else []) ++
    [ gemmaSec 6 0 (leBytes 8 t.mac.addr.toNat ++ zeroBytes 8 ++
        (List.range 1024).flatMap fun i => leBytes 16 (spGet 0 c.cst i).toNat),
      gemmaSec 7 0 (c.cellBytes n) ] ++
    (if isM then [gemmaSec 8 0 (leBytes 8 t.mq.length ++ zeroBytes 8 ++ t.mq.flatMap MqEntry.record)] else []) ++
    [gemmaSec 9 0 (words8 t.nextId ++ c.copies.flatMap fun x => x.2.record x.1)] ++
    frames.filterMap fun f => f.2.1.map fun x => gemmaSec 10 f.1 (v.replayRecord f.2.2 x)
  let body := secs.flatten
  let kind := if !isM then 1 else if core.rsplit then (if c.slot1 then 3 else 2) else 0
  leBytes 4 0x414D4547 ++ leBytes 2 1 ++ leBytes 1 kind ++ leBytes 1 (if c.forced then 1 else 0) ++ leBytes 2 c.id ++
    leBytes 2 c.phys ++ leBytes 4 secs.length ++ leBytes 8 (64 + body.length) ++ leBytes 8 c.seq ++ zeroBytes 32 ++ body

/-- The device address of a context's image in its save area (R369). -/
def SavedCtx.imageAt (c : SavedCtx) : Nat := c.area + c.image

/-- GEMMA_WRITE (R369..R373): the image goes to the context's save area, and Operculum keeps its digest. -/
def execGemmaWrite (ctx : Nat) (s : State) : Out :=
  .next (match s.dev.ctxs.find? fun c => c.id == ctx with
    | none => s
    | some c =>
      if c.written then s
      else match s.coreAt c.phys with
        | none => s
        | some k =>
          let bs := s.gemma c k.core
          let dg := digestNat (sha256 bs)
          runAct (fun _ => do
            Act.write .hbm c.imageAt bs
            Act.dev fun d => { d with ctxs := d.ctxs.map fun c =>
              if c.id = ctx then { c with written := true, digest := dg } else c }) s)

/-! ### Resumption (R328, R374, R375) -/

/-- Whether the image in the save area is the one whose digest Operculum keeps (R369, R374 step 1). -/
def State.gemmaOk (s : State) (c : SavedCtx) : Bool :=
  let at_ := c.imageAt
  let n := s.mems.nat .hbm (at_ + 16) 8
  n ≤ 0x200000 && s.mems.nat .hbm (at_ + 24) 8 == c.seq &&
    digestNat (sha256 (s.mems.read .hbm at_ (Nat.min n 0x200000))) == c.digest

/-- The slot with a saved context's state, what belongs to the core kept (R374, R376, R443). `bad` is the address of a failing
word of its image, with which the instance faults (R427). -/
def Thread.resume (t : Thread) (c : SavedCtx) (now : Nat) (bad : Option Nat) : Thread :=
  let r := c.thread
  { r with
    slot1 := t.slot1
    sp := { r.sp with dstop := t.sp.dstop, eccnt := t.sp.eccnt, lprof := Vector.replicate 145 0 }
    trap := { r.trap with svec := t.trap.svec, tdeleg := t.trap.tdeleg }
    cx := { r.cx with accown := t.cx.accown, accdirty := t.cx.accdirty, accbase := t.cx.accbase, accxfer := t.cx.accxfer
                      accfail := t.cx.accfail }
    loadId := Nat.max t.loadId r.loadId
    bound := some { c.bound with since := now }
    run := bad.elim r.run fun a => .faulting 0x40 (BitVec.ofNat 64 a) r.pc }

/-- The matrix entries of a slot as a core takes them up again: what they captured is the tables as they were at the save, and
counts as the core's present generation of each (R205, R374). -/
def Thread.regen (t : Thread) (gens : Vector Nat 17) : Thread :=
  { t with mq := t.mq.map fun e => { e with tabs := { e.tabs with gens := gens } } }

/-- A saved transfer back on its channel (R367). -/
def Dev.pushTransfer (d : Dev) (cl ch : Nat) (t : Transfer) : Dev :=
  let c := d.chan cl ch
  d.setChan { c with q := c.q ++ [t] }

/-- The writes that the collective engine held for a context, in order, and its SIG words evaluated again (R374). -/
def Act.collHeld {s0 : State} (p : Place) (c : Coll) : Act s0 Unit := do
  Act.each c.held fun h => match h.2 with
    | some x => Act.engineWrite p h.1 c.who.job (leBytes (if h.1 = c.addr + 6 then 1 else 4) x)
    | none => Act.engineAdd p h.1 c.who.job
  let s ← Act.cur
  Act.dev fun d => d.updColl c.serial fun x =>
    let y := { x with held := [], phys := p.phys, slot1 := p.slot1, sig := p.at (x.fld 32 4) }
    if y.status = 0 then { y with started := Nat.max y.started (Nat.min (y.fld 4 2) (s.mems.nat .spl y.sig 4)) } else y

/-- The tag of a cell at resumption (R375): that of a discardable cell is EMPTY with COUNT 0, whatever came meanwhile. -/
def SavedCtx.resumeTag (c : SavedCtx) (i : Nat) : Tag :=
  let t := spGet Tag.reset c.tags i
  if c.thread.discards i then { t with full := false, count := 0 } else t

/-- CONTEXT_RESUME (R374): the steps of a resumption, on the core or slot that the saved context names. -/
def State.resumeContext (s : State) (c : SavedCtx) : State :=
  match s.coreAt c.phys with
  | none => s
  | some k =>
    let p := placeOf k.core c.slot1
    let c0 := p.first / 1024
    let at_ := c.imageAt
    let bad := s.dev.failing .hbm at_ (Nat.min (s.mems.nat .hbm (at_ + 16) 8) 0x200000)
    let colls := s.dev.colls.filter fun x => x.who.ctx == c.id
    runAct (fun _ => do
      Act.clear .spl (p.at 0) p.size
      Act.dev fun d => d.replaced .spl (p.at 0) p.size
      Act.each c.cells fun x => Act.byte .spl (p.at x.1) x.2
      Act.each (List.range (p.size / 1024)) fun i => Act.tag (cellKey p.phys (c0 + i)) (c.resumeTag i)
      Act.dev fun d => d.tagsReplaced p.phys c0 (p.size / 1024)
      if !k.otherBound c.slot1 then do
        Act.setStore c.phys fun i => spGet 0 c.cst i
        Act.coreOf c.phys fun x => { x with tabs := { c.tabs with gens := x.tabs.gens } }
        Act.dev fun d => d.tablesReplaced c.phys (List.range 17)
      Act.thread c.phys c.slot1 fun t => (t.resume c s.dev.now bad).regen k.core.tabs.gens
      Act.dev fun d => d.slotReplaced (slotNo c.phys c.slot1)
      Act.correctFor c.phys c.slot1 [(.hbm, at_, Nat.min (s.mems.nat .hbm (at_ + 16) 8) 0x200000)]
      if let some a := bad then Act.logBad c.phys 12 (BitVec.ofNat 64 a) c.bound.job
      Act.dev fun d => { d with ctxs := d.ctxs.filter fun x => x.id != c.id }.runBanks c.bound.vf
      Act.dev fun d => c.copies.foldl (fun d x => d.pushTransfer (clusterOf c.phys) x.1 x.2) d
      Act.each colls fun x => Act.collHeld p x
      Act.dev fun d => d.release fun e => e.what == .context c.id) s

/-! ### Debug stops and trap entries (R142..R145, R442) -/

/-- Whether a debug stop fires before the next bundle (R442): a TARGET that the count has passed never does. -/
def Thread.stops (t : Thread) : Bool :=
  t.sp.dstop.getLsbD 63 && t.sp.bundle == (t.sp.dstop.extractLsb' 0 48).zeroExtend 64 && !t.pend50

/-- DEBUG_STOP (R442): the slot freezes, and cause 0x50 is pending. -/
def execDebugStop (s : State) : Out := .next (if s.me.stops then { s with me := { s.me with pend50 := true } } else s)

/-- Whether a between-bundles cause may be taken before the next bundle (R143, R270): with no replay frame occupied, and within
a macro only behind a marked step. -/
def Thread.takes (t : Thread) : Bool := t.f0.isNone && (!t.mac.mpc.getLsbD 63 || t.mac.marked && t.inMacro)

/-- The between-bundles cause that is taken before the next bundle, if one may be (R143). -/
def Thread.between (t : Thread) : Option (Byte × U64) :=
  if !t.takes then none
  else if t.pend31 then some (0x31, t.budget)
  else if t.pend32 then some (0x32, 0)
  else if t.pend50 then some (0x50, t.sp.dstop &&& 0xFFFFFFFFFFFF)
  else none

/-- A between-bundles cause taken (R143, R144, R442): the next bundle is the resumption point. The faulting bundle is that of the
`yield` that raised the cause, and the resumption point where no instruction did. -/
def Thread.takeBetween (t : Thread) (c : Byte × U64) : Thread :=
  let ev : TrapEvent :=
    { code := c.1, slot := 0, land := false, async := true, resume := t.pc
      faulting := if c.1 = 0x31 then t.yielded.getD t.pc else t.pc, info := c.2 }
  let t := { t with iss := { t.iss with cleared := none } }
  let r := t.takeTrap ev
  if c.1 = 0x31 then { r with pend31 := false, yielded := none }
  else if c.1 = 0x32 then { r with pend32 := false }
  else { r with pend50 := false, stopped := false, sp := { r.sp with dstop := r.sp.dstop &&& 0x7FFFFFFFFFFFFFFF } }

/-- The slot's latches have been cleared, or those of a frame are back (R35, R38): none of their words fails. -/
def State.latched (s : State) : State := { s with dev := s.dev.latchesReplaced (slotNo s.core.phys s.me.slot1) }

/-- TRAP_ENTRY (R144, R145): a trap is taken. -/
def execTrapEntry (ev : TrapEvent) (s : State) : Out := .next { s with me := s.me.takeTrap ev }.latched

end Sys2Proof.Machine
end

