-- ==== Sys2Proof/Machine/Schedule.lean ====
section
/-! DEFINITION. What runs where (R320..R326, R330, R342, R362): candidates and their order, free cores, reservations, the
dispatch decision, pre-emption requests, gang release, interval boundaries and head samples. -/
namespace Sys2Proof.Machine

/-! ### Candidates (R320, R321) -/

/-- A candidate with what orders it and what it needs. -/
structure Candidate where
  cand : Cand
  eprio : Nat
  since : Nat
  ord : Nat
  node : Nat
  inst : Nat
  energy : Nat
  isS : Bool
  rsplit : Bool
  home : Option (Nat × Bool)
  image : Nat
  deriving DecidableEq, Repr

/-- EPRIO (R320): one more for each quantum of waiting, at most 7. -/
def eprio (prio now since q : Nat) : Nat := Nat.min 7 (prio + (now - since) / (q * 2700))

/-- Whether a virtual function's work may be dispatched (R411, R419). -/
def Dev.runs (d : Dev) (fn : Nat) : Bool :=
  d.host.vfs.any fun v => v.fn == fn && v.tdi == .run && !v.paused && !v.evicted

/-- A candidate for a node or a suspended context of it. -/
def Graph.candidate (g : Graph) (d : Dev) (p : Part) (i : Nat) (n : GNode) (cand : Cand) (since inst : Nat)
    (home : Option (Nat × Bool)) : Candidate :=
  { cand := cand, eprio := eprio n.prio d.now since p.sched.q, since := since, ord := g.ord, node := i, inst := inst
    energy := n.energy, isS := n.classS, rsplit := d.splits g n, home := home, image := g.image }

/-- The candidates that a graph's nodes offer. -/
def Graph.fresh (g : Graph) (d : Dev) (p : Part) : List Candidate :=
  (g.nodes.zipIdx.filter fun x => x.1.st == .ready && x.1.undisp != 0).map fun x =>
    g.candidate d p x.2 x.1 (.fresh g.serial x.2) x.1.wait (x.1.instances - x.1.undisp) none

/-- The candidates that suspended contexts of a graph offer. DESIGN CHOICE (log 103): once the gemma has been written. -/
def Graph.saved (g : Graph) (d : Dev) (p : Part) : List Candidate :=
  (d.ctxs.filter fun c => c.written && c.bound.part == p.num && c.bound.graph == g.serial).filterMap fun c =>
    (g.nodes[c.bound.node]?).map fun n =>
      g.candidate d p c.bound.node n (.saved c.id) c.bound.since c.bound.inst (some (c.phys, c.slot1))

/-- Whether a candidate goes before another (R321). -/
def Candidate.first (a b : Candidate) : Bool :=
  if a.eprio ≠ b.eprio then b.eprio < a.eprio
  else if a.since ≠ b.since then a.since < b.since
  else if a.ord ≠ b.ord then a.ord < b.ord
  else if a.node ≠ b.node then a.node < b.node
  else a.inst < b.inst

/-- A candidate put in its place. -/
def placeCandidate (c : Candidate) : List Candidate → List Candidate
  | [] => [c]
  | x :: xs => if c.first x then c :: x :: xs else x :: placeCandidate c xs

/-- The candidates of a partition in the order of R321. -/
def Dev.candidates (d : Dev) (p : Part) : List Candidate :=
  ((p.graphs.filter fun g => g.admitted && g.verdict == 0 && d.runs g.vf).flatMap fun g =>
    g.fresh d p ++ g.saved d p).foldl (fun l c => placeCandidate c l) []

/-! ### Free cores and eligible clusters (R323) -/

/-- The image of the instance bound to a slot. -/
def State.imageOf (s : State) (t : Thread) : Option Nat :=
  t.bound.bind fun b => ((s.dev.part b.part).bind fun p => p.graph b.graph).map (·.image)

/-- The bit of an M-core in RSMASK: four M-cores to a cluster. -/
def rsBit (phys : Nat) : Nat := 4 * clusterOf phys + phys % 5

/-- Whether a core or slot is free for a candidate (R323): its cluster's power domain is on (R402, R451), and no layout commit
affects it (R402 step 1, R449). -/
def State.freeFor (s : State) (p : Part) (c : Candidate) (phys : Nat) (slot1 : Bool) : Bool :=
  match s.coreAt phys with
  | none => false
  | some k =>
    let other := k.slot (!slot1)
    p.clusters.testBit (clusterOf phys) && s.dev.mgmt.power.testBit (clusterOf phys) &&
      !(s.dev.mgmt.commit.any fun k => k.durable && k.affected.testBit (clusterOf phys)) && isS phys == c.isS &&
      !s.dev.mgmt.excluded.contains phys && (c.isS || p.sched.rsmask.testBit (rsBit phys) == c.rsplit) &&
      (k.slot slot1).bound.isNone && c.home.all (· == (phys, slot1)) &&
      if c.rsplit then other.bound.isNone || (k.core.rsplit && s.imageOf other == some c.image)
      else !slot1 && other.bound.isNone

/-- The cores and slots of a cluster free for a candidate, in the order in which R324 takes them: on the half-bound
row-split cores first, then by local index. -/
def State.freeIn (s : State) (p : Part) (c : Candidate) (cl : Nat) : List (Nat × Bool) :=
  let all := ((if c.isS then [4] else [0, 1, 2, 3]).flatMap fun i =>
    (if c.rsplit then [false, true] else [false]).map fun b => (5 * cl + i, b)).filter fun x => s.freeFor p c x.1 x.2
  all.filter (fun x => (s.coreAt x.1).any fun k => k.otherBound x.2) ++
    all.filter fun x => !(s.coreAt x.1).any fun k => k.otherBound x.2

/-- A cluster's energy balance (R322): CAP until the first boundary. -/
def Part.balOf (p : Part) (cl : Nat) : Nat := ((p.bal.find? fun x => x.1 == cl).map (·.2)).getD p.sched.cap
/-- A cluster's heat headroom as last read (R322). DESIGN CHOICE (log 104): 0 before the first sample. -/
def Part.headOf (p : Part) (cl : Nat) : Nat := ((p.head.find? fun x => x.1 == cl).map (·.2)).getD 0
/-- CHARGE and HREQ of a candidate. -/
def Part.chargeOf (p : Part) (c : Candidate) : Nat := p.sched.charge.toList.getD c.energy 0
def Part.hreqOf (p : Part) (c : Candidate) : Nat := p.sched.hreq.toList.getD c.energy 0

/-- The clusters of a partition. -/
def Part.clusterList (p : Part) : List Nat := (List.range Config.clusters).filter p.clusters.testBit

/-- Whether a cluster is eligible for a candidate (R323, R325). -/
def State.eligible (s : State) (p : Part) (c : Candidate) (cl : Nat) : Bool :=
  !(s.freeIn p c cl).isEmpty && p.chargeOf c ≤ p.balOf cl && p.hreqOf c ≤ p.headOf cl &&
    p.reserve.all fun r => r.1 != cl || r.2 == c.cand

/-- The cluster with the greatest value of a measure, the lowest number on a tie. -/
def bestCluster (f : Nat → Nat) (l : List Nat) : Option Nat :=
  l.foldl (fun (b : Option Nat) x => match b with
    | some y => if f y < f x then some x else some y
    | none => some x) none

/-- Whether a cluster holds a row-split core with exactly one slot bound (R324). -/
def State.halfBound (s : State) (cl : Nat) : Bool :=
  (List.range 4).any fun i => (s.coreAt (5 * cl + i)).any fun k =>
    k.core.rsplit && k.t0.bound.isSome != k.t1.bound.isSome

/-- The core or slot that R324 chooses for a candidate, and its cluster. -/
def State.placement (s : State) (p : Part) (c : Candidate) : Option (Nat × Nat × Bool) :=
  let e := p.clusterList.filter (s.eligible p c)
  let half := e.filter s.halfBound
  let e := if c.rsplit && !half.isEmpty then half else e
  (bestCluster (fun cl => p.headOf cl * 2 ^ 21 + p.balOf cl) e).bind fun cl =>
    ((s.freeIn p c cl).head?).map fun x => (cl, x.1, x.2)

/-- A reservation for a first candidate of EPRIO 7 that only the balance keeps from every cluster. -/
def State.takeReserve (s : State) (p : Part) (c : Candidate) : Option (Nat × Cand) :=
  let hot := p.clusterList.filter fun cl => !(s.freeIn p c cl).isEmpty && p.hreqOf c ≤ p.headOf cl
  if c.eprio = 7 && !(hot.any fun cl => p.chargeOf c ≤ p.balOf cl) then (bestCluster p.balOf hot).map fun cl => (cl, c.cand)
  else none

/-- The reservation as a decision finds or takes it (R325). -/
def State.reservation (s : State) (p : Part) : List Candidate → Option (Nat × Cand)
  | [] => none
  | c :: _ =>
    match p.reserve with
    | some (cl, x) =>
      if x = c.cand ∧ !(s.freeIn p c cl).isEmpty then some (cl, x) else s.takeReserve { p with reserve := none } c
    | none => s.takeReserve p c

/-! ### The decision (R324) -/

/-- An instance bound, or a context resumed, on a core or slot; none when it cannot be (R374 step 1; log 38). -/
def State.seat (s : State) (p : Part) (c : Candidate) (phys : Nat) (slot1 : Bool) : Option State :=
  match c.cand with
  | .fresh g i =>
    (p.graph g).bind fun g => (g.nodes[i]?).bind fun n =>
      (s.dev.host.images.find? fun m => m.id == g.image).bind fun im =>
        let t := s.bindInstance p g im i n phys slot1
        if (t.threadAt phys slot1).any fun t => t.bound.isSome then some (t.checkOperands phys slot1 n) else none
  | .saved ctx =>
    (s.dev.ctxs.find? fun x => x.id == ctx).bind fun x =>
      if s.gemmaOk x then (s.coreAt phys).map fun k => (s.setCore (k.split c.rsplit)).resumeContext x else none

/-- The first candidate that can be placed is dispatched, and its cluster charged (R322, R324). -/
def State.dispatchFirst (s : State) (p : Part) : List Candidate → State
  | [] => s
  | c :: cs =>
    match s.placement p c with
    | none => s.dispatchFirst p cs
    | some (cl, phys, slot1) =>
      match s.seat p c phys slot1 with
      | none => s.dispatchFirst p cs
      | some t =>
        let n := p.chargeOf c
        let d := t.dev.updPart p.num fun p =>
          { p.charge cl n with reserve := p.reserve.filter fun r => r.2 != c.cand }
        { t with dev := (d.countEv 31 cl 1).countEv 30 cl n }

/-- DISPATCH_DECISION (R324, R325). -/
def execDispatchDecision (part : Nat) (s : State) : Out :=
  .next (match s.dev.part part with
    | none => s
    | some p =>
      if p.stopped || s.dev.mgmt.state != 2 then s
      else
        let cs := s.dev.candidates p
        let p := { p with reserve := s.reservation p cs }
        { s with dev := s.dev.updPart part fun _ => p }.dispatchFirst p cs)

/-! ### Pre-emption requests (R330, R362) -/

/-- A pre-emption request posted to a slot (R362): none to one that ends or has one (R365). -/
def Thread.preempt (t : Thread) : Thread :=
  match t.bound with
  | some b =>
    if (t.run = .running ∨ t.run = .gang) ∧ !t.cx.req then
      { t with cx := { t.cx with req := true, left := b.budget }, pend31 := true }
    else t
  | none => t

/-- Whether the slot stands at a quantum boundary (R330): a whole number of quanta after its dispatch or resumption. -/
def State.atQuantum (s : State) : Bool :=
  s.me.bound.any fun b => (s.dev.part b.part).any fun p =>
    (s.me.run == .running || s.me.run == .gang) && b.since < s.dev.now && (s.dev.now - b.since) % (p.sched.q * 2700) == 0

/-- QUANTUM_BOUNDARY (R330): a request is posted when the candidates of the class that wait for a core outnumber the
requests outstanding. -/
def execQuantumBoundary (s : State) : Out :=
  .next (match s.me.bound.bind fun b => (s.dev.part b.part).map fun p => (b, p) with
    | none => s
    | some (b, p) =>
      let cls := isS s.core.phys
      let prio := ((p.graph b.graph).bind fun g => g.nodes[b.node]?).elim 0 (·.prio)
      let waiting := (s.dev.candidates p).countP fun c => c.isS == cls && prio ≤ c.eprio &&
        p.clusterList.all fun cl => (s.freeIn p c cl).isEmpty
      let posted := s.slots.countP fun x => isS x.1 == cls && x.2.cx.req && x.2.bound.any fun y => y.part == p.num
      if posted < waiting then { s with me := s.me.preempt } else s)

/-! ### Gang release (R342) -/

/-- A slot let go when its instance belongs to a job. -/
def Thread.letGo (t : Thread) (job : Nat) : Thread :=
  if t.run = .gang ∧ t.bound.any (fun b => b.job == job) then { t with run := .running } else t

/-- GANG_RELEASE (R342): with every instance of the job's graphs on this device bound, all may issue; that the other
devices' are bound is what the step's occurrence reports. -/
def execGangRelease (job : Nat) (s : State) : Out :=
  .next (
    let left := s.dev.parts.any fun p => p.graphs.any fun g => g.image == job && g.nodes.any fun n => n.undisp != 0
    if left then s
    else
      { s with
        me := s.me.letGo job, sib := s.sib.letGo job
        rest := s.rest.map fun c => { c with t0 := c.t0.letGo job, t1 := c.t1.letGo job }
        dev := { s.dev with
          jobs := s.dev.jobs.map fun (j : Job) => if j.id = job then { j with released := true } else j
          ctxs := s.dev.ctxs.map fun (c : SavedCtx) => { c with thread := c.thread.letGo job } } })

/-! ### Intervals and heat (R316, R322) -/

/-- INTERVAL_BOUNDARY (R316, R322): parameters set since the last boundary take effect, and every balance gains REFILL,
up to CAP. -/
def execIntervalBoundary (part : Nat) (s : State) : Out :=
  .next { s with dev := s.dev.updPart part fun p =>
    let q := p.pending.getD p.sched
    { p with sched := q, pending := none
             bal := p.clusterList.map fun cl => (cl, Nat.min (p.balOf cl + q.refill) q.cap) } }

/-- HEAD_SAMPLE (R322, R416): a cluster's highest sensor reading v is taken, in units of 0.5 °C: the headroom is the cluster's
limit less the reading, 0 when the reading is at or above the limit, and 255 at most. -/
def execHeadSample (cl v : Nat) (s : State) : Out :=
  let h := s.dev.mgmt.loaded.limits.getD cl 0 - v
  let f (p : Part) : Part := { p with head := (cl, Nat.min h 255) :: p.head.filter fun x => x.1 != cl }
  .next { s with dev := { s.dev with parts := s.dev.parts.map fun p => if p.clusters.testBit cl then f p else p } }

end Sys2Proof.Machine
end

