-- ==== Sys2Proof/Machine/Sources.lean ====
section
/-! DEFINITION. The source registers of an instruction, and what becomes of a bundle that reads a failing one (R423, R427, R428;
log 20). -/
namespace Sys2Proof.Machine

/-! ### Source registers -/

/-- The protected register that a scalar source names: `g0`, the queue and the constants are none. -/
def srcNamed : Src → List RegName
  | .g r => if r = 0 then [] else [.g r]
  | .q _ => []
  | .c _ => []

/-- The protected register that a vector source names. -/
def vsrcNamed : VSrc → List RegName
  | .v r => [.v r]
  | .b0 => [.b 0]
  | .b1 => [.b 1]
  | .b2 => [.b 2]

/-- The protected register that the data source of an engine store names. -/
def stSrcNamed : StSrc → List RegName
  | .narrow _ x => srcNamed x
  | .vec x _ _ => vsrcNamed x
  | .mom r => [.m r]

/-- The registers that an instruction reads whole: a comparing atomic has the register behind its own too (R237), and an indexed
special register the one that its index names (R100, R134). The vector and moment registers that an instruction reads by lanes
stand in State.laneReads. -/
def sourcesOf (i : Instr) : List RegName :=
  match i with
  | .add _ s0 s1 _ | .sub _ s0 s1 _ | .and _ s0 s1 _ | .or _ s0 s1 _ | .xor _ s0 s1 _ | .andn _ s0 s1 _ | .sll _ s0 s1 _
    | .srl _ s0 s1 _ | .sra _ s0 s1 _ | .ror _ s0 s1 _ | .min _ s0 s1 _ | .max _ s0 s1 _ | .minu _ s0 s1 _ | .maxu _ s0 s1 _
    | .slt _ s0 s1 _ | .sltu _ s0 s1 _ | .addw _ s0 s1 _ | .subw _ s0 s1 _ | .sllw _ s0 s1 _ | .srlw _ s0 s1 _ | .sraw _ s0 s1 _
    | .mul _ s0 s1 _ | .mulh _ s0 s1 _ | .mulhu _ s0 s1 _ | .mulhsu _ s0 s1 _ | .mulw _ s0 s1 _ | .addsat _ s0 s1 _
    | .subsat _ s0 s1 _ | .addsatw _ s0 s1 _ | .subsatw _ s0 s1 _ | .addsatu _ s0 s1 _ | .subsatu _ s0 s1 _ | .mulsatw _ s0 s1 _
    | .div _ s0 s1 _ | .divu _ s0 s1 _ | .rem _ s0 s1 _ | .remu _ s0 s1 _ | .cmp _ _ _ s0 s1 _ | .sel _ s0 s1 _ _
    | .seln _ s0 s1 _ _ | .bext _ s0 s1 _ | .bextu _ s0 s1 _ | .adds _ s0 s1 _ _ | .setdev _ s0 s1 _ | .setcore _ s0 s1 _
    | .stSplSm s0 s1 _ _ _ | .raddSpp s0 s1 _ _ | .parm s0 s1 _ | .fwait s0 s1 _ | .fwaitne s0 s1 _ | .binit s0 s1 _
    | .qput s0 s1 _ _ _ _ | .mcld s0 s1 _ | .rngseed s0 s1 _ _ => srcNamed s0 ++ srcNamed s1
  | .addi _ s0 _ _ | .andi _ s0 _ _ | .ori _ s0 _ _ | .xori _ s0 _ _ | .slli _ s0 _ _ | .srli _ s0 _ _ | .srai _ s0 _ _
    | .rori _ s0 _ _ | .slliw _ s0 _ _ | .srliw _ s0 _ _ | .sraiw _ s0 _ _ | .roriw _ s0 _ _ | .ldis _ s0 _ _ | .cmpi _ _ s0 _ _
    | .kfromg _ s0 _ | .pfromg _ s0 _ | .clz _ s0 _ | .ctz _ s0 _ | .popc _ s0 _ | .bswap _ s0 _ | .brev _ s0 _
    | .ldSplSm _ s0 _ _ _ | .shwMs _ _ s0 _ _ | .shwXs _ _ s0 _ _ | .jr s0 _ | .callr _ s0 _ | .loop _ s0 _
    | .trap s0 _ | .rbsave s0 _ | .rbload s0 _ | .tlbinv s0 _ | .tlbinvctx s0 _ | .cbldBf16 _ s0 _ _ | .cbldE4m3 _ s0 _ _
    | .scld s0 _ _ | .mmset s0 _ _ | .mmcov s0 _ _ | .mmclamp s0 _ _ | .vbcast _ s0 _ _ | .ldSpl _ s0 _ _ _ | .ldSpk _ s0 _ _
    | .ldHbm _ s0 _ _ | .ldHst _ s0 _ _ | .prel s0 _ | .pfill s0 _ | .pget _ s0 _ | .barrive s0 _ | .bwait s0 _ | .binval s0 _
    | .cchain _ s0 _ _ | .cwait _ s0 _ | .macroRun s0 _ _ | .coll s0 | .rsend s0 => srcNamed s0
  | .bins r0 s0 s1 _ => [.g r0] ++ srcNamed s0 ++ srcNamed s1
  | .ret _ => [.g 31]
  | .mma _ _ _ g0 _ _ _ _ _ | .mmasa _ _ _ g0 _ _ _ _ _ | .mmasb _ _ _ g0 _ _ _ _ _ | .mmam _ _ _ g0 _ _
    | .drain _ _ _ g0 _ _ _ _ | .drainq _ _ _ g0 _ _ _ | .arsum _ _ _ g0 _ _ _ _ | .acsum _ _ _ g0 _ _ _ _ => [.g g0]
  | .aput _ r0 _ _ _ => [.v r0]
  | .stSpl t0 s0 _ | .stSpk t0 s0 _ _ | .putSpp t0 s0 _ _ _ | .stHbm t0 s0 _ | .putPhm t0 s0 _ _ | .stHst t0 s0 _
      => stSrcNamed t0 ++ srcNamed s0
  | .putfSpp t0 s0 r0 _ _ _ => stSrcNamed t0 ++ srcNamed s0 ++ [.g r0]
  | .rcopySpp r0 s0 _ _ _ => [.g r0, .g (r0 + 1)] ++ srcNamed s0
  | .copy _ _ r0 _ _ _ _ _ _ => [.g r0, .g (r0 + 1)]
  | .mfsr _ _ x _ _ => srcNamed (srcOf x)
  | .mtsr s0 _ x _ _ => srcNamed s0 ++ srcNamed (srcOf x)
  | .vrot _ _ s0 _ _ | .vshdn _ _ s0 _ _ | .vshup _ _ s0 _ _ | .vins _ _ s0 _ _ | .vext _ _ s0 _ | .vbcastl _ _ s0 _ _ => srcNamed s0
  | .mscale _ _ s0 _ | .mchi _ _ s0 _ | .mclo _ _ s0 _ => srcNamed s0
  | .amo s0 s1 _ _ _ aop _ =>
    srcNamed s0 ++ srcNamed s1 ++ if aop = 9 then (match s0 with | .g r => [.g (r + 1)] | _ => []) else []
  | _ => []

/-! ### Registers read by lanes (R30, R153) -/

/-- The lanes that elements of width w stand in. -/
def laneSet (w : Nat) (es : List Nat) : U64 :=
  es.foldl (fun m e => m ||| if w = 64 then 3#64 <<< (2 * e) else 1#64 <<< (e * w / 32)) 0

/-- The elements of width w that a mask enables. -/
def elemsOn (km : U64) (w : Nat) : List Nat := (List.range (2048 / w)).filter (enabled km w)

/-- Lanes of a vector source. -/
def vlanes (a : VSrc) (l : U64) : List (RegName × U64) := (vsrcNamed a).map fun r => (r, l)

/-- Lanes of both halves of a moment source. -/
def mlanes (a : U4) (l : U64) : List (RegName × U64) := [(.m a, l)]

/-- The lanes that a bit-moving form reads (R168): `f` gives the element behind each enabled element of its result. -/
def State.moved (s : State) (t k : U3) (f : Nat → Nat → Nat → Option Nat) : U64 :=
  let w := moveWidth t
  laneSet w ((elemsOn (s.kmask k) w).filterMap (f w (2048 / w)))

/-- The lanes that an integer form's enabled elements stand in. -/
def State.intLanes (s : State) (t k : U3) : U64 := writeMask (s.kmask k) (etWidth (intEt t))

/-- The lanes of its source that a conversion reads (R166): those of the elements behind its enabled elements. -/
def State.cvtLanes (s : State) (src dst : Nat) (k : U3) (part : U2) : U64 :=
  let ws := etWidth src
  let wd := etWidth dst
  let n := 2048 / Nat.max ws wd
  let p := part.toNat
  let es := elemsOn (s.kmask k) wd
  laneSet ws (if ws ≤ wd then es.map (p * n + ·) else (es.filter fun e => p * n ≤ e && e < p * n + n).map (· - p * n))

/-- The lanes of its vector and moment sources that an instruction reads: those that its enabled elements are functions of (R153),
those that a reduction, a compare or a select names (R162, R164, R170), and the correlations under REF alone (R177). -/
def State.laneReads (s : State) (i : Instr) : List (RegName × U64) :=
  let v2 (a b : VSrc) (l : U64) := vlanes a l ++ vlanes b l
  match i with
  | .vadd _ a b _ k _ | .vsub _ a b _ k _ | .vmin _ a b _ k _ | .vmax _ a b _ k _ | .vmul _ a b _ k _ | .vdiv _ a b _ k _
    | .vand _ a b k | .vor _ a b k | .vxor _ a b k | .vandn _ a b k | .vfcmpEq _ a b k | .vfcmpLt _ a b k | .vfcmpLe _ a b k
    | .vfcmpUn _ a b k | .mmake _ a b k => v2 a b (s.kmask k)
  | .viadd _ a b t k | .visub _ a b t k | .viadds _ a b t k | .visubs _ a b t k | .vimul _ a b t k _ | .vimulh _ a b t k
    | .vimin _ a b t k | .vimax _ a b t k | .vsll _ a b t k | .vsrl _ a b t k | .vsra _ a b t k | .vrol _ a b t k
    | .vicmpEq _ a b t k | .vicmpLt _ a b t k | .vicmpLe _ a b t k | .vicmpLtu _ a b t k => v2 a b (s.intLanes t k)
  | .vabs _ a _ k _ | .vneg _ a _ k _ | .vsqrt _ a _ k _ | .vrcp _ a _ k _ | .vfrac _ a _ k _ | .vclass _ a _ k _
    | .vfredsum _ a _ k _ | .vfredmax _ a _ k _ | .vexp2 _ a _ k _ | .vlog2 _ a _ k _ | .vrsqrt _ a _ k _ | .vtanh _ a _ k _
    | .vsinpi _ a _ k _ | .vcospi _ a _ k _ | .verf _ a _ k _ | .vsigm _ a _ k _ => vlanes a (s.kmask k)
  | .viredsum _ a t k _ | .viredmax _ a t k => vlanes a (s.intLanes t k)
  | .vfma _ a b c _ k _ | .vfms _ a b c _ k _ | .vfnma _ a b c _ k _ | .vfnms _ a b c _ k _ | .vimad _ a b c k _
      => v2 a b (s.kmask k) ++ vlanes c (s.kmask k)
  | .vsel _ a b k => vlanes a (s.kmask k) ++ vlanes b (~~~ s.kmask k)
  | .vcvtFf _ a src t k part _ _ => vlanes a (s.cvtLanes src.toNat t.toNat k part)
  | .vcvtFi _ a src t k part _ _ => vlanes a (s.cvtLanes src.toNat (cvtFiDst src t) k part)
  | .vperm _ a b t k => vlanes b (s.kmask k) ++ vlanes a (s.moved t k fun w n i => some (s.el b w i % n))
  | .vziplo _ a b t k =>
    vlanes a (s.moved t k fun _ _ i => if i % 2 = 0 then some (i / 2) else none) ++
      vlanes b (s.moved t k fun _ _ i => if i % 2 = 0 then none else some (i / 2))
  | .vziphi _ a b t k =>
    vlanes a (s.moved t k fun _ n i => if i % 2 = 0 then some (n / 2 + i / 2) else none) ++
      vlanes b (s.moved t k fun _ n i => if i % 2 = 0 then none else some (n / 2 + i / 2))
  | .vunzip _ a b t k =>
    vlanes a (s.moved t k fun _ n i => if i < n / 2 then some (2 * i) else none) ++
      vlanes b (s.moved t k fun _ n i => if i < n / 2 then none else some (2 * (i - n / 2)))
  | .vrot _ a x t k => vlanes a (s.moved t k fun _ n i => some ((i + (s.src x).toNat) % n))
  | .vshdn _ a x t k => vlanes a (s.moved t k fun _ n i => if i + (s.src x).toNat < n then some (i + (s.src x).toNat) else none)
  | .vshup _ a x t k => vlanes a (s.moved t k fun _ _ i => if (s.src x).toNat ≤ i then some (i - (s.src x).toNat) else none)
  | .vrev _ a t k => vlanes a (s.moved t k fun _ n i => some (n - 1 - i))
  | .vins _ a x t k =>
    vlanes a (s.moved t k fun _ n i => if i = ((s.src x).extractLsb' 32 8).toNat % n then none else some i)
  | .vext _ a x t => vlanes a (laneSet (moveWidth t) [((s.src x).extractLsb' 0 8).toNat % (2048 / moveWidth t)])
  | .vbcastl _ a x t k => vlanes a (s.moved t k fun _ n _ => some (((s.src x).extractLsb' 0 8).toNat % n))
  | .mgetm _ a k | .mgetv _ a k | .mmov _ a k | .mrelu _ a k | .mexp _ a k | .msigm _ a k | .mgelu _ a k | .mcmean _ a k
    | .mcdraw _ a k | .mscale _ a _ k | .mchi _ a _ k | .mclo _ a _ k => mlanes a (s.kmask k)
  | .mmul _ a b k => mlanes a (s.kmask k) ++ mlanes b (s.kmask k)
  | .madd _ a b c k | .msub _ a b c k =>
    mlanes a (s.kmask k) ++ mlanes b (s.kmask k) ++ if s.me.cov = 3 then vlanes c (s.kmask k) else []
  | _ => []

/-- The sources of a decoded word with the lanes of each that it reads. -/
def State.reads (s : State) (d : Decoded) : List (RegName × U64) :=
  let whole (rs : List RegName) := rs.map fun r => (r, BitVec.allOnes 64)
  match d with
  | .coll a | .rsend a => whole (srcNamed a)
  | .rngpop _ _ => []
  | .hdr _ _ _ _ => []
  | .op i => s.laneReads i ++ whole (sourcesOf i)

/-- Whether the word of the slot that is executing is suppressed by its predicate (R27, R99, R106): a slot-2 word and a `loop` have
none. -/
def State.suppressed (s : State) (d : Decoded) : Bool :=
  let loop := match d with | .op (.loop _ _ _) => true | _ => false
  s.me.iss.slot != 2 && !loop && !s.pred (s.me.iss.word.extractLsb' 0 3)

/-! ### A failing source (R427) -/

/-- The region of a slot whose pointers a read of %qptr delivers. -/
def qptrRead : Decoded → Option Nat
  | .op (.mfsr _ n _ _ _) => if 0x0A0 ≤ n.toNat ∧ n.toNat < 0x0B0 then some (n.toNat - 0x0A0) else none
  | _ => none

/-- The first failing word that a word of the program would read, as its array and the array form (R427, R428): of a source
register, in a lane that is read, or of the pointers that a read of %qptr delivers. A suppressed word reads none (R106). -/
def State.badSource (s : State) (d : Decoded) : Option (Nat × U64) :=
  let slot := slotNo s.core.phys s.me.slot1
  if s.dev.bad.isEmpty && s.dev.badTags.isEmpty || s.suppressed d then none
  else
    (((s.reads d).find? fun r => s.dev.regBad slot r.1 r.2).map fun r => (r.1.arr, arrayWord r.1.arr r.1.num)).or
      ((qptrRead d).bind fun n => if s.dev.badTags.contains (regionKey slot n) then some (3, arrayWord 3 n) else none)

/-- The state that executing a word gave, or, when it reads a failing word, the trap with cause 0x40 and its log record
instead (R426, R427), unless one of the checks of R106 before it stops the word. `s` is the state before. -/
def State.withSources (s t : State) (d : Decoded) : State :=
  let early : Bool := match t.me.iss.res with | .trapped c _ => c.toNat ≤ 3 | _ => false
  if early then t
  else match s.badSource d with
    | some (arr, info) =>
      runAct (fun _ => Act.logBad s.core.phys arr info (s.me.bound.elim 0 (·.job))) (s.trap 0x40 info)
    | none => t

end Sys2Proof.Machine
end

