-- ==== Sys2Proof/Machine/Bundle.lean ====
section
/-! DEFINITION. One step of the macro sequencer (R269, R270): a control-store entry executed in slot 3. -/
namespace Sys2Proof.Machine

/-- The engine-slot instructions by their meanings: what a control-store entry may hold (R110, R269). -/
def runEngine (i : Instr) (s : State) : Out :=
  match i with
  | .mma m sw acc gx asgn bsgn isat z p => execMma m sw acc gx asgn bsgn isat z p s
  | .mmasa m sw acc gx asgn bsgn isat z p => execMmasa m sw acc gx asgn bsgn isat z p s
  | .mmasb m sw acc gx asgn bsgn isat z p => execMmasb m sw acc gx asgn bsgn isat z p s
  | .mmam m sw acc gx z p => execMmam m sw acc gx z p s
  | .azero acc cnt p => execAzero acc cnt p s
  | .aget acc v row col p => execAget acc v row col p s
  | .agetNw acc v row col p => execAgetNw acc v row col p s
  | .amget acc md row p => execAmget acc md row p s
  | .amgetNw acc md row p => execAmgetNw acc md row p s
  | .aput acc v row col p => execAput acc v row col p s
  | .drain m sw acc gx rm sat bias p => execDrain m sw acc gx rm sat bias p s
  | .drainq m sw acc gx bias zp p => execDrainq m sw acc gx bias zp p s
  | .arsum m sw acc gx sgn isat z p => execArsum m sw acc gx sgn isat z p s
  | .acsum m sw acc gx sgn isat z p => execAcsum m sw acc gx sgn isat z p s
  | .ldSpl d a wt cons p => execLdSpl d a wt cons p s
  | .stSpl x a p => execStSpl x a p s
  | .ldSpk d a n p => execLdSpk d a n p s
  | .stSpk x a tag p => execStSpk x a tag p s
  | .putSpp x a tier tag p => execPutSpp x a tier tag p s
  | .putfSpp x a fg tier tag p => execPutfSpp x a fg tier tag p s
  | .raddSpp x a tier p => execRaddSpp x a tier p s
  | .rcopySpp x a tier tag p => execRcopySpp x a tier tag p s
  | .ldHbm d a n p => execLdHbm d a n p s
  | .stHbm x a p => execStHbm x a p s
  | .amo x a n w scope aop p => execAmo x a n w scope aop p s
  | .putPhm x a tier p => execPutPhm x a tier p s
  | .ldHst d a n p => execLdHst d a n p s
  | .stHst x a p => execStHst x a p s
  | .parm a b p => execParm a b p s
  | .prel a p => execPrel a p s
  | .pfill a p => execPfill a p s
  | .pget d a p => execPget d a p s
  | .fwait a b p => execFwait a b p s
  | .fwaitne a b p => execFwaitne a b p s
  | .binit a b p => execBinit a b p s
  | .barrive a p => execBarrive a p s
  | .bwait a p => execBwait a p s
  | .binval a p => execBinval a p s
  | .qput a b n esz tier p => execQput a b n esz tier p s
  | .qpop d n nw p => execQpop d n nw p s
  | .qdone n p => execQdone n p s
  | .fence scope grp p => execFence scope grp p s
  | .copy x sw a d n tier tag follow p => execCopy x sw a d n tier tag follow p s
  | .cchain d a n p => execCchain d a n p s
  | .cwait n b p => execCwait n b p s
  | .macroRun a idx p => execMacroRun a idx p s
  | .mcld a b p => execMcld a b p s
  | .ntile p => execNtile p s
  | .rngseed a b flush p => execRngseed a b flush p s
  | .nop => execNop s
  | .mwait => execMwait s
  | _ => .next (s.trapWord 0x01)

/-- A decoded slot-3 word executed. -/
def runDecoded (d : Decoded) (s : State) : Out :=
  match d with
  | .coll a => execColl a s
  | .rsend a => execRsend a s
  | .rngpop d p => execRngpop d p s
  | .hdr _ _ _ _ => .next (s.trapWord 0x01)
  | .op i => runEngine i s

/-- The slot as it begins to execute a bundle: nothing issued yet. A macro step records the macro's bundle (R270). -/
def Thread.begin (t : Thread) (slot : U2) (word : U32) (isMacro : Bool) : Thread :=
  { t with iss := { slot := slot, word := word, isMacro := isMacro, bpc := if isMacro then pcOf t.mac.addr else t.pc
                    res := .issued, after := none, taken := false, cleared := none, usedW := false, fresh := [], landed := t.iss.landed } }

/-- MACRO_STEP (R269, R270, R427): the entry that %mpc names is executed in slot 3; when it issues, its register step,
its loop test, END and MARK follow. -/
def execMacroStep (s : State) : Out :=
  if !s.me.mac.mpc.getLsbD 63 then .next s
  else
    let e := s.macroEntry
    let w : U32 := e.extractLsb' 0 32
    let idx := bitsOf s.me.mac.mpc 9 0
    let s0 := { s with me := s.me.begin 3 w true }
    if s.dev.bad.contains (7, s.core.phys * 1024 + idx) then
      let info := arrayWord 7 idx
      .next (runAct (fun _ => Act.logBad s.core.phys 7 info (s.me.bound.elim 0 (·.job))) (s0.trap 0x40 info))
    else
      match decode (!isS s.core.phys) ⟨3, true, e.extractLsb' 64 8, w⟩ with
      | .error r => .next (s0.trapWord r.cause)
      | .ok d =>
        match runDecoded d s0 with
        | .next t =>
          let t := s0.withSources t d
          if t.me.iss.res = .issued then
            let t := t.macroReg e
            .next { t with me := { t.me with mac := t.me.mac.advance e } }
          else .next t
        | o => o

end Sys2Proof.Machine
end

