-- ==== Sys2Proof/Machine/HostQ.lean ====
section
/-! DEFINITION. The host port's registers (R387, R388) and the hardware queue slots (R384, R385). -/
namespace Sys2Proof.Machine

/-! ### Functions and their registers (R386, R387; log 41) -/

/-- Whether a function is present: physical function 0, and every virtual function created (R451). -/
def Dev.isFn (d : Dev) (fn : Nat) : Bool := fn == 0 || d.host.vfs.any fun v => v.fn == fn

/-- A virtual function by its number. -/
def Dev.vf (d : Dev) (fn : Nat) : Option Vf := d.host.vfs.find? fun v => v.fn == fn

/-- A virtual function changed. -/
def Dev.updVf (d : Dev) (fn : Nat) (f : Vf → Vf) : Dev :=
  { d with host := { d.host with vfs := d.host.vfs.map fun v => if v.fn = fn then f v else v } }

/-- The admin registers of a function. -/
def Dev.regsOf (d : Dev) (fn : Nat) : FnRegs := (d.host.regs.find? fun r => r.fn == fn).getD ⟨fn, 0, 0, 0⟩

/-- The admin registers of a function replaced. -/
def Dev.setRegs (d : Dev) (r : FnRegs) : Dev :=
  { d with host := { d.host with regs := r :: d.host.regs.filter fun x => x.fn != r.fn } }

/-- A queue pair created empty, its PHASE 1 on the first pass (R387, R390). -/
def QPair.fresh (fn q sq cq sd cd : Nat) : QPair :=
  { fn := fn, q := q, sqBase := sq, cqBase := cq, sqDepth := sd, cqDepth := cd, sqHead := 0, sqTail := 0, cqHead := 0
    cqTail := 0, phase := true, error := false, posts := [], mapped := none, wait := none }

/-- A function without a queue pair: what the pair's entries have begun completes to none (R388). -/
def Dev.dropPair (d : Dev) (fn q : Nat) : Dev :=
  let d := d.orphan fn q
  { d with host := { d.host with pairs := d.host.pairs.filter fun y => !(y.fn == fn && y.q == q) } }

/-- A queue pair put in place of any that had its number. -/
def Dev.putPair (d : Dev) (x : QPair) : Dev :=
  let d := d.dropPair x.fn x.q
  { d with host := { d.host with pairs := d.host.pairs ++ [x] } }

/-- A queue pair in ERROR (R388): it fetches and posts nothing, what was still to post is discarded, and so is what its entries
complete later. An admin pair that AQDEPTH has not made yet is in ERROR all the same, so that QSTAT shows it (R387). -/
def Dev.failPair (d : Dev) (fn q : Nat) : Dev :=
  let d := if q = 0 ∧ (d.pair fn 0).isNone then d.putPair (QPair.fresh fn 0 0 0 0 0) else d.orphan fn q
  d.updPair fn q fun x => { x with error := true, posts := [], mapped := none, wait := none }

/-- ASQBASE_WRITE (R387, R388). -/
def execAsqbaseWrite (fn : Nat) (v : U64) (s : State) : Out :=
  .next (if !s.dev.isFn fn then s
    else { s with dev :=
      if v.toNat % 4096 ≠ 0 then s.dev.failPair fn 0 else s.dev.setRegs { s.dev.regsOf fn with asq := v } })

/-- ACQBASE_WRITE (R387, R388). -/
def execAcqbaseWrite (fn : Nat) (v : U64) (s : State) : Out :=
  .next (if !s.dev.isFn fn then s
    else { s with dev :=
      if v.toNat % 4096 ≠ 0 then s.dev.failPair fn 0 else s.dev.setRegs { s.dev.regsOf fn with acq := v } })

/-- A depth that R387 allows. -/
def depthOk (n : Nat) : Bool := 2 ≤ n && n ≤ 4096

/-- AQDEPTH_WRITE (R387): pair 0 is created again, empty; a depth out of range changes nothing (log 41). -/
def execAqdepthWrite (fn : Nat) (v : U32) (s : State) : Out :=
  let sd := (v.extractLsb' 0 16).toNat
  let cd := (v.extractLsb' 16 16).toNat
  .next (if !s.dev.isFn fn || !depthOk sd || !depthOk cd then s
    else
      let r := s.dev.regsOf fn
      { s with dev := (s.dev.setRegs { r with depth := v }).putPair (QPair.fresh fn 0 r.asq.toNat r.acq.toNat sd cd) })

/-- SQTAIL_WRITE (R384, R387, R388): a doorbell on a virtual function's unmapped queue makes the queue waiting. -/
def execSqtailWrite (fn q : Nat) (v : U32) (s : State) : Out :=
  .next (match s.dev.pair fn q with
    | none => s
    | some x =>
      if x.error then s
      else if x.sqDepth ≤ v.toNat then { s with dev := s.dev.failPair fn q }
      else
        { s with dev := s.dev.updPair fn q fun x =>
            { x with sqTail := v.toNat
                     wait := if fn = 0 ∨ x.mapped.isSome ∨ x.wait.isSome ∨ x.sqHead = v.toNat then x.wait
                             else some s.dev.now } })

/-- CQHEAD_WRITE (R387, R388). -/
def execCqheadWrite (fn q : Nat) (v : U32) (s : State) : Out :=
  .next (match s.dev.pair fn q with
    | none => s
    | some x =>
      if x.error then s
      else if x.cqDepth ≤ v.toNat then { s with dev := s.dev.failPair fn q }
      else { s with dev := s.dev.updPair fn q fun x => { x with cqHead := v.toNat } })

/-! ### Hardware queue slots (R384, R385) -/

/-- The partition of a queue's function. -/
def Dev.queuePart (d : Dev) (x : QPair) : Option Nat := (d.vf x.fn).map (·.part)

/-- The queue of a list with the earliest time. -/
def earliest (f : QPair → Option Nat) (l : List QPair) : Option QPair :=
  (l.foldl (fun (b : Option (QPair × Nat)) x => match f x, b with
    | some t, some (_, u) => if t < u then some (x, t) else b
    | some t, none => some (x, t)
    | none, _ => b) none).map (·.1)

/-- A queue's slot taken away: with submissions left it waits again. -/
def QPair.unmap (x : QPair) (now : Nat) : QPair :=
  { x with mapped := none, wait := if x.sqHead = x.sqTail then none else some now }

/-- QUEUE_SLOT_MAP (R385): the slots of queues without a submission to fetch are freed; with none free, that of the
queue mapped for the longest time, a quantum at least, is freed while another waits; and the first waiting queue is
mapped. -/
def execQueueSlotMap (part : Nat) (s : State) : Out :=
  .next (match s.dev.part part with
    | none => s
    | some p =>
      let own (d : Dev) := d.host.pairs.filter fun x => d.queuePart x == some part
      let d := (own s.dev).foldl (fun (d : Dev) x =>
        if x.mapped.isSome ∧ x.sqHead = x.sqTail then d.updPair x.fn x.q fun y => y.unmap d.now else d) s.dev
      let used := (own d).countP fun x => x.mapped.isSome
      match earliest (·.wait) (own d) with
      | none => { s with dev := d }
      | some w =>
        let take (d : Dev) := d.updPair w.fn w.q fun y => { y with mapped := some d.now, wait := none }
        if used < p.qslots then { s with dev := take d }
        else match earliest (·.mapped) (own d) with
          | some v =>
            if v.mapped.any fun t => t + p.sched.q * 2700 ≤ d.now then
              { s with dev := take (d.updPair v.fn v.q fun y => y.unmap d.now) }
            else { s with dev := d }
          | none => { s with dev := d })

end Sys2Proof.Machine
end

