-- ==== Sys2Proof/Machine/Operculum.lean ====
section
/-! DEFINITION. Commands to Operculum (R409..R412): their checks and refusal codes, handles, the journal (R447), and the
commands on virtual functions, queue pairs, counters, buckets and scheduling parameters. -/
namespace Sys2Proof.Machine

/-! ### Refusal codes (R410) -/

def stMalformed : U16 := 0x0001
def stNotPermitted : U16 := 0x0002
def stBadHandle : U16 := 0x0003
def stCommitPending : U16 := 0x0004
def stState : U16 := 0x0005
def stSignature : U16 := 0x0006
def stRollback : U16 := 0x0007
def stFormat : U16 := 0x0008
def stDigest : U16 := 0x0009
def stPolicy : U16 := 0x000A
def stNoSpace : U16 := 0x000B
def stBusy : U16 := 0x000C
def stDuplicate : U16 := 0x000D
def stLayout : U16 := 0x000E
def stDenied : U16 := 0x000F

/-- A check of R409: the first that fails gives STATUS. -/
def need (ok : Bool) (st : U16) : Except U16 Unit := if ok then .ok () else .error st

/-- Something that must be there. -/
def must {α : Type} (x : Option α) (st : U16) : Except U16 α := match x with | some a => .ok a | none => .error st

/-! ### Parameters (R389, R411) -/

/-- A field of n bytes of PARAM. -/
def param (c : Cmd) (off n : Nat) : Nat := c.param.toNat / 2 ^ (8 * off) % 2 ^ (8 * n)

/-- Whether every PARAM byte outside the listed fields (offset and length) is zero. -/
def restZero (c : Cmd) (used : List (Nat × Nat)) : Bool :=
  (List.range 48).all fun i => used.any (fun u => u.1 ≤ i && i < u.1 + u.2) || param c i 1 == 0

/-! ### Handles (R391, R412; log 15) -/

/-- What a handle names for a function. -/
def Dev.object (d : Dev) (fn : Nat) (h : U64) : Option Obj :=
  (d.host.handles.find? fun x => x.1 == h && x.2.1 == fn).map (·.2.2)

/-- The function number under which a handle that is no longer valid is kept, so that its value is not issued again. -/
def nobodysHandle : Nat := 1000

/-- A handle issued to a function: a value other than 0 that Operculum has not issued before (R412). Which one is open: the
first of some free values that will do, or, where none does, the lowest number. -/
def Dev.newHandle (d : Dev) (fn : Nat) (o : Obj) : U64 × Dev :=
  let n := d.host.handles.length + 1
  let ok (v : U64) : Bool := v != 0 && !(d.host.handles.any fun h => h.1 == v)
  let free := (List.range n).map fun i => BitVec.ofNat 64 (Config.secret 1 (d.host.issued + i))
  let h := ((free ++ (List.range n).map fun i => BitVec.ofNat 64 (i + 1)).find? ok).getD 1
  (h, { d with host := { d.host with handles := (h, fn, o) :: d.host.handles, issued := d.host.issued + n } })

/-- Some handles made invalid, by the function that has each and what it names. -/
def Dev.revokeOf (d : Dev) (which : Nat → Obj → Bool) : Dev :=
  { d with host := { d.host with
      handles := d.host.handles.map fun h => if which h.2.1 h.2.2 then (h.1, nobodysHandle, h.2.2) else h } }

/-- The handles of some objects made invalid. -/
def Dev.revoke (d : Dev) (which : Obj → Bool) : Dev := d.revokeOf fun _ o => which o

/-! ### The journal (R447) -/

/-- A ring of n records, the oldest dropped. -/
def ringAdd {α : Type} (n : Nat) (l : List α) (x : α) : List α := (l ++ [x]).drop (l.length + 1 - n)

/-- A record written: those of KIND 3..6 reach flash before the step that follows. -/
def Dev.journal (d : Dev) (kind fn opc : Nat) (cid : U16) (value : U64) (digest : List Byte) : Dev :=
  let r : JRec := ⟨d.mgmt.seq + 1, d.micros, kind, fn, opc, cid, value, digest⟩
  { d with mgmt := { d.mgmt with
      seq := d.mgmt.seq + 1
      journal := ringAdd 65536 d.mgmt.journal r
      flash := if 3 ≤ kind ∧ kind ≤ 6 then ringAdd 1048576 d.mgmt.flash r else d.mgmt.flash } }

/-- JOURNAL_FLASH_MIRROR (R447): the records that flash lacks are written to it. -/
def execJournalFlashMirror (s : State) : Out :=
  let m := s.dev.mgmt
  let missing := m.journal.filter fun r => !(m.flash.any fun f => f.seq == r.seq)
  .next { s with dev := { s.dev with mgmt := { m with flash := missing.foldl (ringAdd 1048576) m.flash } } }

/-! ### Carrying out a command (R390, R409) -/

/-- What a command does: its result and the state, or its refusal code; a result of none is completed later. -/
abbrev Ruling := Except U16 (Option U64 × State)

/-- An accepted command takes its effect and is journalled, and its completion is posted with its result; a refused one is
completed with its code and has no effect. A publication is journalled when it is sealed, and a LAYOUT when its PREPARED has
reached flash. A device that has failed refuses all but JOURNAL_READ (R437), one
that bring-up has not finished refuses all (R416). -/
def State.command (s : State) (c : Cmd) (opc : Nat) (f : Ruling) : Out :=
  let f := if s.dev.mgmt.state = 1 ∨ (s.dev.mgmt.state = 3 ∧ opc ≠ 0x0080) then .error stState else f
  .next (match f with
    | .error st => { s with dev := s.dev.complete c.fn c.q c.cid st false 0 }
    | .ok (r, t) =>
      let later := opc = 0x0060 ∨ opc = 0x0050
      let d := if later then t.dev else t.dev.journal 1 c.fn opc c.cid (r.getD 0) []
      match r with
      | some x => { t with dev := d.complete c.fn c.q c.cid 0 false x }
      | none => { t with dev := d })

/-- A command that changes the device alone. -/
def State.onDev (s : State) (r : U64) (d : Dev) : Option U64 × State := (some r, { s with dev := d })

/-- The clusters in a layout commit or a power cycle. -/
def Dev.busyClusters (d : Dev) : Nat :=
  d.mgmt.gates.foldl (fun a g => a ||| g.cls) (d.mgmt.commit.elim 0 (·.affected))

/-- Whether a partition has a cluster in a layout commit or a power cycle (R402, R409). -/
def Dev.pendingPart (d : Dev) (part : Nat) : Bool := (d.part part).any fun p => (p.clusters &&& d.busyClusters) != 0

/-- Checks 2 and 3 of R409 for a command that PF 0 issues and that names a virtual function, and check 4. -/
def State.pfVf (s : State) (c : Cmd) : Except U16 Vf := do
  need (c.fn == 0) stNotPermitted
  match s.dev.object c.fn c.handle with
  | some (.vf fn) =>
    let v ← must (s.dev.vf fn) stBadHandle
    need (!s.dev.pendingPart v.part) stCommitPending
    return v
  | _ => .error stBadHandle

/-- Checks 2 to 5 of R409 for a command of a virtual function, which must be in RUN (R419): `named` is what its HANDLE names, if
the handle is good. -/
def State.vfNames {α : Type} (s : State) (c : Cmd) (named : Option α) : Except U16 (Vf × α) := do
  let v ← must (s.dev.vf c.fn) stNotPermitted
  let x ← must named stBadHandle
  need (!s.dev.pendingPart v.part) stCommitPending
  need (v.tdi == .run) stState
  return (v, x)

/-- Checks 2 to 5 of R409 for a command of a virtual function whose HANDLE names nothing. -/
def State.asVf (s : State) (c : Cmd) : Except U16 Vf := do
  let (v, _) ← s.vfNames c (some ())
  return v

/-- A flag of the policy bound to a virtual function (R413). -/
def Vf.flag (v : Vf) (i : Nat) : Bool := v.policy.any fun p => p.flags.testBit i

/-- Whether a TDI is locked or running: then gated commands are accepted (R419). -/
def Vf.assigned (v : Vf) : Bool := v.tdi == .locked || v.tdi == .run

/-! ### Virtual functions (R411, R413) -/

/-- VF_CREATE (R411, R412, R419). -/
def execVfCreate (c : Cmd) (s : State) : Out :=
  s.command c 0x0001 (do
    let fn := param c 0 2
    let part := param c 2 1
    need (restZero c [(0, 3)] && c.handle == 0 && 1 ≤ fn && fn ≤ 384 && 1 ≤ part && part ≤ 12) stMalformed
    need (c.fn == 0) stNotPermitted
    need (!s.dev.pendingPart part) stCommitPending
    need ((s.dev.vf fn).isNone && (s.dev.part part).isSome) stState
    let v : Vf := { fn := fn, part := part, policy := none, tdi := .unlocked, events := 0, paused := false
                    evicted := false, borrowed := false, act := none, maps := [], counters := [] }
    let d := { s.dev with host := { s.dev.host with vfs := s.dev.host.vfs ++ [v] } }
    let (h, d) := d.newHandle 0 (.vf fn)
    return s.onDev h d)

/-- A segment entry of 16 bytes (R300). -/
def segOf (bs : List Byte) : Segment :=
  let n := leNat (bs.take 16)
  let f (lo k : Nat) := n / 2 ^ lo % 2 ^ k
  { valid := n.testBit 63, dlo := f 0 10, dhi := f 16 10, clo := f 32 8, chi := f 40 8, olo := f 64 20, ohi := f 96 20
    w := n.testBit 48, a := n.testBit 49, t := n.testBit 50 }

/-- Whether a record keeps R9 and R300: its reserved bits are zero, and a valid one has its ranges in order. -/
def segGood (bs : List Byte) : Bool :=
  let n := leNat (bs.take 16)
  let e := segOf bs
  n / 2 ^ 10 % 64 == 0 && n / 2 ^ 26 % 64 == 0 && n / 2 ^ 51 % 4096 == 0 && n / 2 ^ 84 % 4096 == 0 &&
    n / 2 ^ 116 % 4096 == 0 && (!e.valid || (e.dlo ≤ e.dhi && e.clo ≤ e.chi && e.olo ≤ e.ohi))

/-- n records of k bytes from an offset. -/
def records (bs : List Byte) (off k n : Nat) : List (List Byte) :=
  (List.range n).map fun i => (bs.drop (off + k * i)).take k

/-- A policy blob that keeps its format (R413), with what its signature covers and the signature. -/
def parsePolicy (bs : List Byte) : Option (Policy × List Byte × List Byte) :=
  let f (off n : Nat) := bytesAt bs off n
  let len := bs.length
  let nseg := f 60 2
  let nreg := f 62 1
  let ndev := f 64 2
  let segs := records bs 144 16 nseg
  let regs := records bs (144 + 16 * nseg) 72 nreg
  let devs := records bs (144 + 16 * nseg + 72 * nreg) 48 ndev
  let body := 144 + 16 * nseg + 72 * nreg + 48 * ndev
  let siglen := f (len - 4) 4
  let nums := devs.map fun r => bytesAt r 0 2
  if 148 ≤ len ∧ f 0 4 = 0x59434C50 ∧ f 4 2 = 1 ∧ f 6 2 = 0 ∧ f 8 8 ≠ 0 ∧ f 48 4 = len ∧ f 52 4 < 512 ∧ nseg ≤ 64 ∧
      nreg ≤ 16 ∧ f 63 1 = 0 ∧ ndev ≤ 1024 ∧ f 66 14 = 0 ∧ f 140 4 = 0 ∧ body + siglen = len ∧ 4 ≤ siglen ∧
      segs.all segGood ∧ regs.all (fun r => bytesAt r 36 1 ≤ 1 && bytesAt r 37 3 == 0) ∧
      devs.all (fun r => bytesAt r 0 2 ≤ 1023 && bytesAt r 2 14 == 0) ∧ nums.eraseDups.length = nums.length then
    some ({ pver := f 8 8, tenant := (bs.drop 16).take 32, flags := f 52 4, saveBudget := BitVec.ofNat 32 (f 56 4)
            segs := segs, regs := regs, devs := devs.map fun r => (bytesAt r 0 2, (r.drop 16).take 32)
            digest := sha256 bs },
          bs.take body, (bs.drop body).take (siglen - 4))
  else none

/-- The highest PVER accepted for a tenant (R413). -/
def Mgmt.pver (m : Mgmt) (tenant : List Byte) : Nat := ((m.pvers.find? fun x => x.1 == tenant).map (·.2)).getD 0

/-- VF_BIND (R413, R415): a policy is accepted, its PVER recorded, and the partition takes its tenant and its key. -/
def execVfBind (c : Cmd) (s : State) : Out :=
  s.command c 0x0002 (do
    need (restZero c [(0, 12)]) stMalformed
    let v ← s.pfVf c
    need (v.tdi == .unlocked) stState
    let bs := s.mems.read .host (param c 0 8) (param c 8 4)
    let p ← must (s.dev.part v.part) stState
    need (p.tenant.all fun x => bs.length < 48 || x == (bs.drop 16).take 32) stState
    let (pol, body, sig) ← must (parsePolicy bs) stFormat
    let key := (bs.drop 80).take 60
    need (sha256 key == pol.tenant && Config.verifies (leNat key) (leNat (body ++ sig))) stSignature
    need (s.dev.mgmt.pver pol.tenant ≤ pol.pver) stRollback
    let d := s.dev.updVf v.fn fun v => { v with policy := some pol }
    let d := d.updPart v.part fun p =>
      { p with tenant := some pol.tenant, key := if p.key.isSome then p.key else some (d.mgmt.keys + 1) }
    let d := { d with mgmt := { d.mgmt with
      keys := d.mgmt.keys + 1
      pvers := (pol.tenant, pol.pver) :: d.mgmt.pvers.filter fun x => x.1 != pol.tenant } }
    return s.onDev 0 (d.journal 6 c.fn 0x0002 c.cid (BitVec.ofNat 64 pol.pver) pol.tenant))

/-! ### Discarding work (R402, R411) -/

/-- The contexts of a device that satisfy a test on their binding: bound and suspended. -/
def State.contexts (s : State) (f : Bound → Bool) : List Nat :=
  (s.slots.filterMap fun x => x.2.bound.filter f).map (·.ctx) ++ (s.dev.ctxs.filter fun c => f c.bound).map (·.id)

/-- A slot without its instance, when it is one of those discarded. -/
def Thread.discard (t : Thread) (cs : List Nat) : Thread :=
  if t.bound.any fun b => cs.contains b.ctx then t.vacate else t

/-- A device without the work that engines hold for some contexts (R402): their writes, parked or unsent, their transfers,
collectives and batches; entries that name their writes are freed without a release. -/
def Dev.dropWork (d : Dev) (cs : List Nat) : Dev :=
  let gone := (d.net.filter fun m => cs.contains m.ctx).map (·.id)
  { d with
    net := d.net.filter fun m => !gone.contains m.id
    refs := d.refs.filter fun e => !gone.contains e.msg
    chans := d.chans.map fun (c : Channel) => { c with q := c.q.filter fun t => !cs.contains t.who.ctx }
    colls := d.colls.filter fun c => !cs.contains c.who.ctx
    batches := d.batches.filter fun b => !cs.contains b.who.ctx
    ctxs := d.ctxs.filter fun c => !cs.contains c.id }

/-- Contexts discarded: their slots idle, their engine work gone, their memory and identifiers free. -/
def State.discard (s : State) (cs : List Nat) (part : Nat) : State :=
  let d := cs.foldl (fun (d : Dev) c => d.endContext c part) (s.dev.dropWork cs)
  { s with
    me := s.me.discard cs, sib := s.sib.discard cs
    rest := s.rest.map fun c => { c with t0 := c.t0.discard cs, t1 := c.t1.discard cs }
    dev := d.release fun e => match e.what with | .context i => cs.contains i | _ => false }

/-- Graphs of a partition discarded: each is reported CANCELLED (R318, R391; log 43). -/
def Dev.dropGraphs (d : Dev) (part : Nat) (which : Graph → Bool) : Dev :=
  match d.part part with
  | none => d
  | some p =>
    let d := (p.graphs.filter which).foldl (fun (d : Dev) g => d.completeAt g.fn g.q g.head g.cid 0 true 3) d
    d.updPart part fun p => { p with graphs := p.graphs.filter fun g => !which g, reserve := none }

/-- Whether a handle is one of a virtual function (R411): issued to it, or naming one of its images or graphs; the VF handle is
not among them. -/
def handleOf (fn : Nat) (ims : List Nat) (holder : Nat) : Obj → Bool
  | .vf _ => false
  | .image i => holder == fn || ims.contains i
  | .graph _ v => holder == fn || v == fn
  | .mapping _ | .region _ => holder == fn

/-- A virtual function without its contexts, graphs, images, jobs, mappings and policy, its TDI in CONFIG_UNLOCKED; every
handle of it but the VF handle is invalid (R411), and its counter banks are saved (R422). -/
def State.unbind (s : State) (v : Vf) : State :=
  let t := s.discard (s.contexts fun b => b.vf == v.fn) v.part
  let ims := (t.dev.host.images.filter fun m => m.vf == v.fn).map (·.id)
  let d := t.dev.dropGraphs v.part fun g => g.vf == v.fn
  let d := d.updPart v.part fun p => (v.maps.map fun m => ownMapping m.id).foldl Part.free
    ((ims.map ownImage).foldl Part.free p)
  let d := { d with
    jobs := d.jobs.filter fun j => j.vf != v.fn
    host := { d.host with images := d.host.images.filter fun m => m.vf != v.fn }
    mgmt := { d.mgmt with banks := d.mgmt.banks.filter fun b => b.holder != some v.fn } }
  let d := d.revokeOf (handleOf v.fn ims)
  let banks := s.dev.mgmt.banks.filter fun b => b.holder == some v.fn
  let d := d.updVf v.fn fun v => { v with policy := none, tdi := .unlocked, paused := false, evicted := false
                                          act := none, maps := [], counters := v.counters ++ banks }
  let d := match v.act with
    | some (fn, q, cid, _) => d.complete fn q cid 0 false 0
    | none => d
  { t with dev := d.freeRegions }

/-- VF_UNBIND (R411, R419). -/
def execVfUnbind (c : Cmd) (s : State) : Out :=
  s.command c 0x0003 (do
    need (restZero c []) stMalformed
    let v ← s.pfVf c
    return (some 0, s.unbind v))

/-! ### Queue pairs (R387, R388, R411) -/

/-- QP_CREATE (R388, R411): a pair in ERROR is recreated. -/
def execQpCreate (c : Cmd) (s : State) : Out :=
  s.command c 0x0010 (do
    let q := param c 0 1
    let sd := param c 24 2
    let cd := param c 26 2
    need (restZero c [(0, 1), (8, 20)] && c.handle == 0 && 1 ≤ q && q ≤ 7 && param c 8 8 % 4096 == 0 &&
      param c 16 8 % 4096 == 0 && depthOk sd && depthOk cd) stMalformed
    if c.fn ≠ 0 then
      let _ ← s.asVf c
    need ((s.dev.pair c.fn q).all (·.error)) stState
    return s.onDev 0 (s.dev.putPair (QPair.fresh c.fn q (param c 8 8) (param c 16 8) sd cd)))

/-- QP_DELETE (R411). -/
def execQpDelete (c : Cmd) (s : State) : Out :=
  s.command c 0x0011 (do
    let q := param c 0 1
    need (restZero c [(0, 1)] && c.handle == 0 && 1 ≤ q && q ≤ 7) stMalformed
    if c.fn ≠ 0 then
      let _ ← s.asVf c
    need (s.dev.pair c.fn q).isSome stState
    return s.onDev 0 (s.dev.dropPair c.fn q))

/-! ### Counters (R421, R422, R445) -/

/-- The function whose claim or release a counter command makes: PF 0 through a VF handle, or the VF itself. -/
def State.counterRole (s : State) (c : Cmd) : Except U16 Vf := do
  if c.fn = 0 then
    let v ← s.pfVf c
    need v.assigned stState
    return v
  else
    let (v, _) ← s.vfNames c (if c.handle = 0 then some () else none)
    return v

/-- A message to the host: function and vector (R386). -/
def Dev.notify (d : Dev) (fn vector : Nat) : Dev := { d with host := { d.host with msix := d.host.msix ++ [(fn, vector)] } }

/-- The event of a counter as it counts (R412, R421, R445): one outside the virtual function's allowed bitmap counts nothing,
whoever claims the bank, and so do those that are reserved. What else a bank of PF 0 does not count: `Dev.hostMayCount`. -/
def eventFor (allowed : U64) (e : Nat) : Nat := if e < 32 && allowed.getLsbD e then e else 255

/-- CTR_REQ (R421, R445): a bank is claimed with an event for each counter. A selection refused for its events raises a
function event on vector 8 of the physical function. -/
def execCtrReq (c : Cmd) (s : State) : Out :=
  let bank := param c 0 2
  let evs := (List.range 8).map fun i => param c (8 + i) 1
  let ask : Except U16 (Vf × Bool) := do
    need (restZero c [(0, 2), (8, 8)] && bank < 37 && evs.all (· < 64)) stMalformed
    let v ← s.counterRole c
    return (v, c.fn == 0 || v.flag 5 || evs.all fun e => v.events.getLsbD e)
  let held := (s.dev.mgmt.banks.find? fun b => b.num == bank).bind (·.holder)
  let f : Ruling := do
    let (v, ok) ← ask
    let p ← must (s.dev.part v.part) stState
    need (c.fn == 0 || (bank < 32 && p.clusters.testBit bank)) stDenied
    match held with
    | some 0 => if c.fn ≠ 0 then .error stBusy
    | some h =>
      if c.fn = 0 then need ((s.dev.vf h).any fun w => w.flag 4) stPolicy
      else need (h == c.fn) stBusy
    | none => .ok ()
    need ok stDenied
    let b : Bank := { num := bank, holder := some c.fn, sel := evs.map (eventFor v.events)
                      counts := List.replicate 8 0, frozen := false }
    let d := { s.dev with mgmt := { s.dev.mgmt with banks := b :: s.dev.mgmt.banks.filter fun x => x.num != bank } }
    let d := if c.fn = 0 then
        (match held with
          | some h => if h = 0 then d else d.updVf h fun w => { w with borrowed := true }
          | none => d)
      else d.updVf c.fn fun w => { w with borrowed := false }
    return s.onDev 0 d
  let denied := match ask, f with | .ok (_, false), .error st => st == stDenied && s.dev.mgmt.state == 2 | _, _ => false
  { s with dev := if denied then s.dev.notify 0 8 else s.dev }.command c 0x0040 f

/-- CTR_RELEASE (R411). -/
def execCtrRelease (c : Cmd) (s : State) : Out :=
  s.command c 0x0041 (do
    let bank := param c 0 2
    need (restZero c [(0, 2)] && bank < 37) stMalformed
    let _ ← s.counterRole c
    need (s.dev.mgmt.banks.any fun b => b.num == bank && b.holder == some c.fn) stState
    let d := s.dev
    return s.onDev 0 { d with mgmt := { d.mgmt with banks := d.mgmt.banks.filter fun b => b.num != bank } })

/-- CTR_EVENTS (R421). -/
def execCtrEvents (c : Cmd) (s : State) : Out :=
  s.command c 0x0042 (do
    need (restZero c [(0, 8)]) stMalformed
    let v ← s.pfVf c
    return s.onDev 0 (s.dev.updVf v.fn fun v => { v with events := BitVec.ofNat 64 (param c 0 8) }))

/-! ### Scheduling parameters and buckets (R316, R405) -/

/-- The scheduling parameters of a 64-byte record (R316; log 44). -/
def schedOf (bs : List Byte) : Sched where
  q := bytesAt bs 0 2
  refill := bytesAt bs 2 2
  cap := bytesAt bs 4 4
  charge := Vector.ofFn fun i : Fin 8 => bytesAt bs (8 + 3 * i.val) 3
  hreq := Vector.ofFn fun i : Fin 8 => bytesAt bs (32 + i.val) 1
  copychg := bytesAt bs 40 1
  rsmask := bytesAt bs 48 16

/-- Whether parameters keep the ranges of R316, the mask naming M-cores of the partition alone. -/
def Sched.ok (q : Sched) (clusters : Nat) : Bool :=
  20 ≤ q.q && q.q ≤ 5000 && q.refill ≤ q.cap && q.cap ≤ 1048575 && q.charge.toList.all (· ≤ q.cap) &&
    (List.range 32).all fun cl => clusters.testBit cl || q.rsmask / 2 ^ (4 * cl) % 16 == 0

/-- SCHED_SET (R316, R411): the parameters take effect at the next interval boundary. -/
def execSchedSet (c : Cmd) (s : State) : Out :=
  s.command c 0x0052 (do
    let part := param c 0 1
    need (restZero c [(0, 1), (8, 8)] && c.handle == 0 && 1 ≤ part && part ≤ 12) stMalformed
    need (c.fn == 0) stNotPermitted
    need (!s.dev.pendingPart part) stCommitPending
    let p ← must (s.dev.part part) stState
    let bs := s.mems.read .host (param c 8 8) 64
    let q := schedOf bs
    need (bytesAt bs 41 7 == 0 && q.ok p.clusters) stFormat
    return s.onDev 0 (s.dev.updPart part fun p => { p with pending := some q }))

/-- BUCKET_SET (R405, R411): sharing is allowed only when the tenant's policy permits it. -/
def execBucketSet (c : Cmd) (s : State) : Out :=
  s.command c 0x0053 (do
    let port := param c 0 1
    let part := param c 1 1
    let rate := param c 4 2
    let depth := param c 8 4
    let share := param c 12 1
    need (restZero c [(0, 2), (4, 2), (8, 5)] && c.handle == 0 && port < 26 && 1 ≤ part && part ≤ 12 && rate ≤ depth &&
      depth ≤ 1048575 && share ≤ 1) stMalformed
    need (c.fn == 0) stNotPermitted
    need (!s.dev.pendingPart part) stCommitPending
    need (s.dev.part part).isSome stState
    need (share == 0 || s.dev.host.vfs.any fun v => v.part == part && v.flag 6) stPolicy
    let b := s.dev.bucket port part
    return s.onDev 0 (s.dev.setBucket
      { b with rate := rate, depth := depth, share := share == 1, tok := Nat.min b.tok depth }))

/-! ### Link keys by command (R420) -/

/-- A slot of the receiver's two given a key (R420). -/
def LinkDir.install (l : LinkDir) (k : Nat) (v : Option Nat) : LinkDir :=
  if k % 2 = 0 then { l with slot0 := v } else { l with slot1 := v }

/-- A rotation of a direction starts (R420): the receiver installs key k + 1 beside key k. -/
def LinkDir.rotate (l : LinkDir) : LinkDir := if l.rotating then l else { l.install (l.k + 1) (some (l.k + 1)) with rotating := true }

/-- LINK_ROTATE (R420). -/
def execLinkRotate (c : Cmd) (s : State) : Out :=
  s.command c 0x0070 (do
    let n := param c 0 1
    need (restZero c [(0, 1)] && c.handle == 0 && n < 24) stMalformed
    need (c.fn == 0) stNotPermitted
    let p ← must (s.dev.port n) stState
    need (p.st == .up) stState
    need (!p.out.rotating && !p.inw.rotating) stBusy
    return s.onDev 0 (s.dev.updPort n fun p => { p with out := p.out.rotate, inw := p.inw.rotate }))

end Sys2Proof.Machine
end

