-- ==== Sys2Proof/Machine/Images.lean ====
section
/-! DEFINITION. Object images and graphs as Operculum checks and installs them (R122, R300, R312..R315, R411, R414, R452),
and the mappings of a virtual function (R406, R407, R411). -/
namespace Sys2Proof.Machine

/-! ### The object image (R122) -/

/-- Whether a payload has its type's length and its reserved fields zero (R122, R300). DESIGN CHOICE (log 80): the high byte of an
entry of an E4M3 codebook counts as reserved. -/
def sectionGood (x : Section) : Bool :=
  let bs := x.data
  let n := bs.length
  let f (off k : Nat) := bytesAt bs off k
  match x.typ with
  | 1 => n == 16 && x.target == 0 && f 8 1 ≤ 1 && f 9 1 ≤ 1 && f 10 6 == 0
  | 2 => n % 16 == 0 && x.target % 16 == 0
  | 3 => n == 8 && f 2 1 ≤ 1 && f 3 1 ≤ 1 && 1 ≤ f 4 2 && f 4 2 ≤ 1024 && f 6 2 == 0
  | 4 => true
  | 5 => n == 4 && f 2 1 ≤ 1 && f 3 1 == 0
  | 6 => n == 16 && x.target < 8 && f 0 16 / 2 ^ (if x.target < 4 then 117 else 126) == 0
  | 7 => n == 34 && x.target < 16 && f 0 1 ≤ 1 && f 1 1 == 0 &&
      (f 0 1 == 0 || (List.range 16).all fun i => f (3 + 2 * i) 1 == 0)
  | 8 => n == 32 && x.target == 0
  | 9 => n == 16 && x.target < 16 && f 12 4 == 0
  | 10 => n == 16 && x.target < 64 && segGood bs
  | 11 => 2 ≤ n && n == 2 + 2 * f 0 2
  | 12 => x.target < 256
  | 13 => n % 16 == 0 && x.target + n / 16 ≤ 1024 && (List.range (n / 16)).all fun i => !badEntry (f (16 * i) 16)
  | _ => false

/-- The sections that follow in an image, n of them. -/
def parseSections : Nat → List Byte → Option (List Section)
  | 0, bs => if bs.isEmpty then some [] else none
  | n + 1, bs =>
    let len := bytesAt bs 12 4
    let pad := (len + 15) / 16 * 16
    let x : Section := ⟨bytesAt bs 0 4, bytesAt bs 4 2, bytesAt bs 8 4, (bs.drop 16).take len⟩
    if 16 + pad ≤ bs.length ∧ bytesAt bs 6 2 = 0 ∧ (((bs.drop (16 + len)).take (pad - len)).all (· == 0)) ∧ sectionGood x then
      (parseSections n (bs.drop (16 + pad))).map (x :: ·)
    else none

/-! ### Graph records (R312..R315) -/

/-- The nodes of a GRAPH payload. -/
def graphNodes (bs : List Byte) : List GNode :=
  (records bs 16 160 (bytesAt bs 0 2)).map fun r => ⟨r, .pending, 0, 0, 0, 0, false⟩

/-- The successor array of a GRAPH payload. -/
def graphSucc (bs : List Byte) : List Nat :=
  (records bs (16 + 160 * bytesAt bs 0 2) 2 (bytesAt bs 4 4)).map fun r => bytesAt r 0 2

/-- The successors of a node. -/
def GNode.succs (n : GNode) (succ : List Nat) : List Nat := (succ.drop (n.fld 8 4)).take (n.fld 12 2)

/-- Whether an operand record keeps R314. -/
def GNode.operandOk (n : GNode) (k : Nat) : Bool :=
  let o := 32 + 16 * k
  if k < n.fld 5 1 then
    n.fld (o + 8) 4 != 0 && n.fld (o + 12) 1 ≤ 3 && 1 ≤ n.fld (o + 13) 1 && n.fld (o + 13) 1 ≤ 3 && n.fld (o + 14) 2 == 0
  else n.fld o 16 == 0

/-- Whether a node record keeps R313 and R314, its task being one of the image. -/
def GNode.recordOk (n : GNode) (im : Image) (nsucc : Nat) : Bool :=
  let task := im.secsOf 1 n.task
  !task.isEmpty && n.fld 2 1 < 8 && n.fld 3 1 < 8 && n.fld 4 1 < 8 && n.fld 5 1 ≤ 8 && n.fld 6 2 ≤ 4095 &&
    n.fld 12 2 ≤ 4095 && n.fld 8 4 + n.fld 12 2 ≤ nsucc && n.fld 14 2 == 0 && n.fld 26 6 == 0 &&
    n.classS == (im.taskSec n.task).2.1 && !(n.rsplit && n.classS) && (List.range 8).all n.operandOk &&
    if n.tiles then
      1 ≤ n.fld 16 2 && 1 ≤ n.fld 18 2 && 1 ≤ n.fld 20 2 && n.fld 22 1 ≤ 1 && n.tsid ≤ 15 && n.inst ≤ 160 &&
        (n.inst != 0 || n.tileCount < 2 ^ 32)
    else n.fld 16 16 == 0

/-- Whether two nodes may share a tile space as they do (R315). -/
def GNode.shareOk (a b : GNode) : Bool :=
  !(a.tiles && b.tiles && a.tsid == b.tsid) ||
    (a.inst != 0 && b.inst != 0 && a.fld 16 7 == b.fld 16 7)

/-- The nodes left when those without predecessors are taken away, round by round (R315: no cycle when none is left). -/
def peel : Nat → List (Nat × Nat × List Nat) → List (Nat × Nat × List Nat)
  | 0, l => l
  | k + 1, l =>
    let out := (l.filter fun x => x.2.1 == 0).flatMap fun x => x.2.2
    if (l.filter fun x => x.2.1 == 0).isEmpty then l
    else peel k ((l.filter fun x => x.2.1 != 0).map fun x => (x.1, x.2.1 - out.count x.1, x.2.2))

/-- Whether a GRAPH payload keeps R312..R315. -/
def graphOk (im : Image) (bs : List Byte) : Bool :=
  let nn := bytesAt bs 0 2
  let ns := bytesAt bs 4 4
  let nodes := graphNodes bs
  let succ := graphSucc bs
  16 ≤ bs.length && 1 ≤ nn && nn ≤ 4096 && bytesAt bs 2 2 == 0 && ns ≤ 16773120 && bytesAt bs 8 8 == 0 &&
    bs.length == 16 + 160 * nn + 2 * ns && succ.all (· < nn) && nodes.all (fun n => n.recordOk im ns) &&
    nodes.zipIdx.all (fun x => x.1.fld 6 2 == (nodes.map fun m => (m.succs succ).count x.2).foldl (· + ·) 0) &&
    nodes.zipIdx.all (fun x => nodes.zipIdx.all fun y => x.2 == y.2 || x.1.shareOk y.1) &&
    (peel nn (nodes.zipIdx.map fun x => (x.2, x.1.fld 6 2, x.1.succs succ))).isEmpty

/-- The sections of an object image that R122 accepts, with every owner a task of it, every graph sound and the tasks
counted from 0. -/
def parseImage (bs : List Byte) : Option (List Section) :=
  if bytesAt bs 0 4 ≠ 0x314F4E4B ∨ bytesAt bs 4 4 ≠ 1 ∨ bytesAt bs 12 4 ≠ 0 ∨ bs.length < 16 then none
  else
    (parseSections (bytesAt bs 8 4) (bs.drop 16)).bind fun secs =>
      let tasks := (secs.filter fun x => x.typ == 1).map (·.owner)
      let im : Image := ⟨0, 0, 0, secs, [], 0⟩
      if tasks.all (· < tasks.length) && tasks.eraseDups.length == tasks.length &&
          secs.all (fun x => x.owner == 0xFFFF || tasks.contains x.owner) &&
          (secs.filter fun x => x.typ == 12).all (fun x => graphOk im x.data) then some secs
      else none

/-! ### Jobs (R297, R299, R300, R414; log 42) -/

/-- The permission records of a policy that contain an entry's ranges. -/
def Policy.covers (p : Policy) (e : Segment) : List Segment :=
  (p.segs.map segOf).filter fun r => r.valid && r.dlo ≤ e.dlo && e.dhi ≤ r.dhi && r.clo ≤ e.clo && e.chi ≤ r.chi &&
    r.olo ≤ e.olo && e.ohi ≤ r.ohi

/-- A segment entry with the rights that the policy also grants (R414). -/
def Policy.clip (p : Policy) (e : Segment) : Segment :=
  let rs := p.covers e
  let w := e.w && rs.any (·.w)
  let a := e.a && rs.any (·.a)
  let t := e.t && rs.any (·.t)
  { e with w := w, a := a, t := t, valid := e.valid && (w || a || t) }

/-- This device's identity digest (log 15). -/
def ownIdentity : List Byte := leBytes 32 (Config.secret 2 0)

/-- The entry of a job's device table for a device that the policy names (R297, R414): valid when the device is this one, or when
its identity has been attested over a port, through which it is then reached. -/
def Dev.entryFor (d : Dev) (digest : List Byte) : DevEntry :=
  if digest = ownIdentity then ⟨true, true, 0⟩
  else match d.mgmt.attested.find? fun x => x.1 == digest with
    | some x => ⟨true, (d.port x.2).any fun y => y.st == .up, x.2⟩
    | none => ⟨false, false, 0⟩

/-- The device table of a job under a policy (R414): an index that no device entry of the policy has is not valid. -/
def Dev.tableFor (d : Dev) (p : Policy) : List DevEntry :=
  (List.range ((p.devs.map (·.1)).foldl Nat.max 0 + 1)).map fun i =>
    (p.devs.find? fun x => x.1 == i).elim ⟨false, false, 0⟩ fun x => d.entryFor x.2

/-- The job with the device table that its virtual function's policy and the attested devices give it (R297, R342, R414). -/
def Job.withDevs (j : Job) (d : Dev) : Job :=
  match (d.vf j.vf).bind (·.policy) with
  | some p => { j with devs := d.tableFor p }
  | none => j

/-- A device behind a port attests its identity (R414, R420), in place of any that was attested there before: every job that names
it has it in its table from now on. -/
def execAttest (port : Nat) (digest : List Byte) (s : State) : Out :=
  .next (if (s.dev.port port).any fun p => p.st == .up then
      let d := { s.dev with mgmt := { s.dev.mgmt with
        attested := (digest, port) :: s.dev.mgmt.attested.filter fun x => x.1 != digest && x.2 != port } }
      { s with dev := { d with jobs := d.jobs.map fun j => j.withDevs d } }
    else s)

/-- The job of an image (R297, R342, R414): the devices that the policy names and that have attested, and the groups of the
image. Its members are this device and every other that the policy names, attested or not (log 59). This device's own index is
the one whose entry has its identity, 0 when none has. Its segment table starts empty (log 42). -/
def jobOf (d : Dev) (v : Vf) (p : Policy) (id : Nat) (secs : List Section) : Job :=
  let self := ((p.devs.find? fun x => x.2 == ownIdentity).map (·.1)).getD 0
  let devs := d.tableFor p
  let groups := (List.range ((secs.filter fun x => x.typ == 11).length)).map fun i =>
    match (secs.filter fun x => x.typ == 11).find? fun x => x.target == i with
    | some x => (List.range (bytesAt x.data 0 2)).map fun k => bytesAt x.data (2 + 2 * k) 2
    | none => []
  { id := id, vf := v.fn, part := v.part, self := self, devs := devs, segs := [], map := [], groups := groups
    members := 1 + p.devs.countP fun x => x.2 != ownIdentity, released := false }

/-- A job with the segment entries of some tasks of its image, each under its number and with the rights that the policy
also grants (R300, R343, R345, R414; log 42). -/
def Job.grant (j : Job) (p : Policy) (secs : List Section) (tasks : List Nat) : Job :=
  let own := secs.filter fun x => x.typ == 10 && (x.owner == 0xFFFF || tasks.contains x.owner)
  { j with segs := own.foldl (fun l x => (l.filter fun y => y.1 != x.target) ++ [(x.target, p.clip (segOf x.data))]) j.segs }

/-- The code of a task (R122, R452). -/
def taskCode (secs : List Section) (task : Nat) : List Section := secs.filter fun x => x.typ == 2 && x.owner == task

/-- The pages that a task's code takes: one at least. -/
def codePages (xs : List Section) : Nat :=
  Nat.max 1 (((xs.map fun x => x.target + x.data.length).foldl Nat.max 0 + 65535) / 65536)

/-- Code pages allocated and filled, task by task; none when the partition has no room. -/
def Act.placeCode {s0 : State} (part id : Nat) (secs : List Section) : List Nat → Act s0 (Option (List (Nat × Nat × Nat)))
  | [] => return some []
  | t :: ts => do
    let xs := taskCode secs t
    let n := codePages xs
    match ← Act.alloc part n (ownImage id) with
    | none => return none
    | some a => do
      Act.clear .hbm a (n * 65536)
      Act.each xs fun x => Act.bytes .hbm (a + x.target) x.data
      match ← Act.placeCode part id secs ts with
      | some l => return some ((t, a, n) :: l)
      | none => return none

/-- Whether a partition has room for all the code of an image. -/
def Part.roomFor (p : Part) (id : Nat) : List Nat → Bool
  | [] => true
  | n :: ns => match p.alloc n (ownImage id) with | some (_, q) => q.roomFor id ns | none => false

/-- Whether n bytes from a lie clear of k bytes from lo. -/
def clearOf (a n lo k : Nat) : Bool := a + n ≤ lo || lo + k ≤ a

/-- Where the code of an image can begin (R452): the 64 KiB-aligned address that the model prefers, or the lowest behind a mapping
of its virtual function, such that the code and its guard page lie clear of those mappings, of the error log and of the alias of
the tables (log 29). -/
def Vf.codeBase (v : Vf) (pages : Nat) : Option Nat :=
  let len := 65536 * (pages + 1)
  (Config.codeVa :: v.maps.map fun m => m.va + 65536 * m.pages).find? fun a =>
    a + len ≤ 2 ^ 48 && clearOf a len Config.logVa 131072 && clearOf a len Config.tableVa (2 ^ 40) &&
      v.maps.all fun m => clearOf a len m.va (65536 * m.pages)

/-- An image loaded, with its code placed and its job made (R411, R452). -/
def State.loadImage (s : State) (c : Cmd) (v : Vf) (pol : Policy) (secs : List Section) (base : Nat) : State :=
  let id := s.dev.serial + 1
  let tasks := (secs.filter fun x => x.typ == 1).map (·.owner)
  runAct (fun _ => do
    match ← Act.placeCode v.part id secs tasks with
    | some code =>
      Act.dev fun d => { d with
        serial := id
        jobs := d.jobs ++ [jobOf d v pol id secs]
        host := { d.host with images := d.host.images ++ [⟨id, c.fn, v.fn, secs, code, base⟩] } }
    | none => Act.done) s

/-- The virtual function for which a function loads an image (R411): itself, or for PF 0 the first that is bound and whose policy
has HVSUBMIT, if there is one (log 45). -/
def State.loader (s : State) (c : Cmd) : Except U16 (Option Vf) :=
  if c.fn ≠ 0 then do
    let v ← s.asVf c
    return some v
  else do
    let v := s.dev.host.vfs.find? fun v => v.flag 2 && v.assigned
    need (v.all fun v => !s.dev.pendingPart v.part) stCommitPending
    return v

/-- IMAGE_LOAD (R122, R411, R414, R452). -/
def execImageLoad (c : Cmd) (s : State) : Out :=
  s.command c 0x0020 (do
    need (restZero c [(0, 12)] && c.handle == 0) stMalformed
    let l ← s.loader c
    let secs ← must (parseImage (s.mems.read .host (param c 0 8) (param c 8 4))) stFormat
    let v ← must l stPolicy
    let pol ← must v.policy stState
    let p ← must (s.dev.part v.part) stState
    let tasks := (secs.filter fun x => x.typ == 1).map (·.owner)
    let id := s.dev.serial + 1
    let sizes := tasks.map fun t => codePages (taskCode secs t)
    need (p.roomFor id sizes) stNoSpace
    let base ← must (v.codeBase (sizes.foldl Nat.max 0)) stNoSpace
    let (h, d) := s.dev.newHandle c.fn (.image id)
    return (some h, { s with dev := d }.loadImage c v pol secs base))

/-- A device on which the job of an image holds the segment entries of the tasks of a submitted graph. -/
def Dev.grantFor (d : Dev) (p : Policy) (im : Image) (nodes : List GNode) : Dev :=
  { d with jobs := d.jobs.map fun j => if j.id == im.id then j.grant p im.secs (nodes.map (·.task)) else j }

/-- The image that a handle of a function names. -/
def Dev.imageNamed (d : Dev) (fn : Nat) (h : U64) : Option Image :=
  match d.object fn h with
  | some (.image i) => d.host.images.find? fun m => m.id == i
  | _ => none

/-- Checks 2 to 5 of R409 for SUBMIT: the virtual function that submits, or for PF 0 the one whose image its handle names. -/
def State.submits (s : State) (c : Cmd) (im : Option Image) : Except U16 (Vf × Image) :=
  if c.fn ≠ 0 then s.vfNames c im
  else do
    let im ← must im stBadHandle
    let v ← must (s.dev.vf im.vf) stBadHandle
    need (!s.dev.pendingPart v.part) stCommitPending
    return (v, im)

/-- SUBMIT (R317, R342, R391, R411): a graph of an image waits for admission. The segment entries of its tasks are in the
job's table from here on, so before any instance of it is bound (log 42). -/
def execSubmit (c : Cmd) (s : State) : Out :=
  s.command c 0x0023 (do
    let im := s.dev.imageNamed c.fn c.handle
    let x := im.bind fun im => im.secs.find? fun x => x.typ == 12 && x.target == param c 0 1
    need (restZero c [(0, 1)] && (im.isNone || x.isSome)) stMalformed
    let (v, im) ← s.submits c im
    need v.assigned stState
    need (!v.evicted) stState
    let bs := x.elim [] (·.data)
    need (graphOk im bs) stFormat
    need (c.fn != 0 || v.flag 2) stPolicy
    let serial := s.dev.serial + 1
    let (h, d) := s.dev.newHandle c.fn (.graph serial v.fn)
    let g : Graph := { serial := serial, ordinal := param c 0 1, handle := h, vf := v.fn, fn := c.fn, q := c.q, cid := c.cid
                       image := im.id, ord := 0, admitted := false, nodes := graphNodes bs, succ := graphSucc bs
                       verdict := 0, cause := 0, claims := [], hold := 0, head := s.dev.sqHead c.fn c.q }
    let d := v.policy.elim d fun p => d.grantFor p im g.nodes
    return s.onDev h ({ d with serial := serial }.updPart v.part fun p => { p with graphs := p.graphs ++ [g] }))

/-! ### Mappings (R406, R407, R411, R434, R452) -/

/-- Whether a range meets the code pages of a task of the virtual function, or the guard page behind them (R452). -/
def Dev.meetsCode (d : Dev) (fn va len : Nat) : Bool :=
  (d.host.images.filter fun m => m.vf == fn).any fun m => m.code.any fun c =>
    va < m.base + 65536 * (c.2.2 + 1) && m.base < va + len

/-- The region that a policy's binding names (R407, R414): among those of one digest, one that is sealed and not withdrawn goes
before the others. -/
def Dev.boundRegion (d : Dev) (p : Policy) (i : Nat) : Option Region :=
  (p.regs[i]?).bind fun r =>
    let named := d.host.regions.filter fun x =>
      if bytesAt r 36 1 = 1 then x.digest == (r.drop 40).take 32 else x.name == r.take 32 && x.version == bytesAt r 32 4
    (named.find? fun x => x.sealed && !x.withdrawn).or ((named.find? fun x => !x.withdrawn).or named.head?)

/-- The contexts of a virtual function with the roots of their tables. -/
def State.roots (s : State) (fn : Nat) : List (Nat × Nat) :=
  (s.slots.filterMap fun x => (x.2.bound.filter fun b => b.vf == fn).map fun b => (b.ctx, x.2.root)) ++
    (s.dev.ctxs.filter fun c => c.bound.vf == fn).map fun c => (c.id, c.thread.root)

/-- A mapping put into every context of its virtual function. -/
def State.addMapping (s : State) (v : Vf) (m : Mapping) : State :=
  let rs := s.roots v.fn
  runAct (fun _ => do
    Act.each rs fun r => do
      Act.mapPages v.part r.1 r.2 m.va m.pa m.pages m.bits
      Act.aliasTables v.part r.1 r.2
    Act.dev fun d => rs.foldl (fun (d : Dev) r => d.grantRegions [m] r.1) (d.updVf v.fn fun v => { v with maps := v.maps ++ [m] })) s

/-- MAP (R407, R411, R434, R452): an allocation, a host buffer or a region, in whole pages of 64 KiB (log 46). -/
def execMapCmd (c : Cmd) (s : State) : Out :=
  s.command c 0x0021 (do
    let kind := param c 0 1
    let va := param c 8 8
    let len := param c 16 8
    let host := param c 24 8
    let idx := param c 1 1
    let wide := (len + 65535) / 65536 * 65536
    let region := ((s.dev.vf c.fn).bind (·.policy)).bind fun pol => s.dev.boundRegion pol idx
    need (restZero c [(0, 2), (8, 24)] && c.handle == 0 && kind ≤ 2 && (kind == 2 || idx == 0) &&
      (kind == 1 || host == 0) && va % 65536 == 0 && host % 65536 == 0 && host < 2 ^ 52 && len != 0 &&
      va + wide ≤ 2 ^ 48 && !s.dev.meetsCode c.fn va wide &&
      (kind != 2 || region.all fun r => len ≤ (r.len + 65535) / 65536 * 65536)) stMalformed
    let v ← s.asVf c
    let pol ← must v.policy stState
    let p ← must (s.dev.part v.part) stState
    let id := s.dev.serial + 1
    need (kind != 2 || pol.regs.length ≤ idx || region.any fun r => !r.withdrawn && (s.dev.failing .hbm r.pa r.len).isNone) stState
    need (kind != 2 || idx < pol.regs.length) stPolicy
    need (kind != 2 || region.any (·.sealed)) stBusy
    need (v.maps.all fun m => va + wide ≤ m.va || m.va + 65536 * m.pages ≤ va) stNoSpace
    need (clearOf va wide Config.logVa 131072 && clearOf va wide Config.tableVa (2 ^ 40)) stNoSpace
    let (pa, q) ← if kind = 0 then must (p.alloc (wide / 65536) (ownMapping id)) stNoSpace
      else .ok (if kind = 1 then host else region.elim 0 (·.pa), p)
    let (h, d) := s.dev.newHandle c.fn (.mapping id)
    let d := { d with serial := id }.updPart v.part fun _ => q
    return (some h, { s with dev := d }.addMapping v
      { id := id, kind := kind, va := va, len := len, pa := pa, region := if kind = 2 then region.elim 0 (·.id) else 0 }))

/-- The translations of a range of a context's addresses dropped everywhere. -/
def Dev.dropRange (d : Dev) (ctx va len : Nat) : Dev :=
  let f (l : List (Nat × List Pte)) := l.map fun x =>
    (x.1, x.2.filter fun p => !(p.ctx == ctx && p.va < va + len && va < p.va + p.size))
  { d with tlb := f d.tlb, ctlb := f d.ctlb }

/-- UNMAP (R407, R411). -/
def execUnmap (c : Cmd) (s : State) : Out :=
  s.command c 0x0022 (do
    need (restZero c []) stMalformed
    let named := match s.dev.object c.fn c.handle with
      | some (.mapping i) => (s.dev.vf c.fn).bind fun v => v.maps.find? fun m => m.id == i
      | _ => none
    let (v, m) ← s.vfNames c named
    let id := m.id
    let rs := s.roots v.fn
    let t := runAct (fun _ => do
      Act.each rs fun r => Act.each (List.range m.pages) fun i => Act.unmapPage v.part r.1 r.2 (m.va + 65536 * i)
      Act.dev fun d =>
        let d := rs.foldl (fun (d : Dev) r => d.dropRange r.1 m.va (65536 * m.pages)) d
        let d := d.updVf v.fn fun v => { v with maps := v.maps.filter fun x => x.id != id }
        let d := d.updPart v.part fun p => p.free (ownMapping id)
        let again := (d.vf v.fn).any fun v => v.maps.any fun x => x.kind == 2 && x.region == m.region
        let d := if m.kind = 2 && !again then
            { d with host := { d.host with regions := d.host.regions.map fun (r : Region) =>
                if r.id = m.region then { r with grants := r.grants.filter fun x => !(rs.any fun y => y.1 == x) } else r } }
          else d
        (d.revoke fun o => o == .mapping id).freeRegions) s
    return (some 0, t))

end Sys2Proof.Machine
end

