-- ==== Sys2Proof/Machine/VfCtl.lean ====
section
/-! DEFINITION. Pausing, resuming, evicting and relocating a virtual function's work (R377, R383, R411, R422; log 47). -/
namespace Sys2Proof.Machine

/-- A slot of the virtual function asked to give its core back. -/
def Thread.preemptVf (t : Thread) (fn : Nat) : Thread := if t.bound.any fun b => b.vf == fn then t.preempt else t

/-- Dispatch of a virtual function stopped and its instances asked to give their cores back; its counter banks stand
still once they have (R411, R422). -/
def State.pauseVf (s : State) (fn : Nat) : State :=
  let t : State := { s with
    me := s.me.preemptVf fn, sib := s.sib.preemptVf fn
    rest := s.rest.map fun c => { c with t0 := c.t0.preemptVf fn, t1 := c.t1.preemptVf fn }
    dev := s.dev.updVf fn fun v => { v with paused := true } }
  t.freezeBanks fn

/-! ### Accumulators spilled (R380, R383) -/

/-- The slots whose accumulator store a context owns. -/
def State.owners (s : State) (ctx : Nat) : List (Nat × Bool) :=
  (s.packed :: s.rest).flatMap fun c => ([c.t0, c.t1].filter fun t =>
    t.cx.accown.getLsbD 63 && (t.cx.accown.extractLsb' 0 16).toNat == ctx).map fun t => (c.core.phys, t.slot1)

/-- A context's dirty granules written to its save area, and the store given up. -/
def State.spill (s : State) (ctx area : Nat) : State :=
  (s.owners ctx).foldl (fun (s : State) o =>
    match s.coreAt o.1 with
    | none => s
    | some k =>
      let t := k.slot o.2
      let dirty := (List.range 2048).filter fun g => (t.cx.accdirty.toList.getD (g / 64) 0).getLsbD (g % 64)
      runAct (fun s0 => do
        Act.each dirty fun g =>
          Act.write .hbm (area + 4096 * g) (s0.mems.read .acc (accKey o.1 (firstGranule k.core o.2 + g) 0) 4096)
        Act.thread o.1 o.2 fun t => { t with cx := { t.cx with accown := 0, accdirty := Vector.replicate 32 0 } }) s) s

/-! ### Commands -/

/-- PAUSE (R362, R411): completed when every instance is suspended. -/
def execPause (c : Cmd) (s : State) : Out :=
  s.command c 0x0030 (do
    need (restZero c []) stMalformed
    let v ← s.pfVf c
    need (v.assigned && !v.paused) stState
    need (v.flag 0) stPolicy
    need v.act.isNone stBusy
    let t := s.pauseVf v.fn
    if s.anyBound v.fn then
      return (none, { t with dev := t.dev.updVf v.fn fun v => { v with act := some (c.fn, c.q, c.cid, false) } })
    else return (some 0, t))

/-- RESUME (R369, R411): suspended instances are candidates again, and the graphs of an evicted function may be admitted
again, once each gemma has been checked; one whose digest or SEQ differs refuses the command with DIGEST (log 77). -/
def execResume (c : Cmd) (s : State) : Out :=
  s.command c 0x0031 (do
    need (restZero c []) stMalformed
    let v ← s.pfVf c
    need (v.assigned && v.paused) stState
    need (s.dev.ctxs.all fun x => x.bound.vf != v.fn || !x.written || s.gemmaOk x) stDigest
    need (v.flag 0) stPolicy
    need v.act.isNone stBusy
    let d := s.dev.updVf v.fn fun v => { v with paused := false, evicted := false }
    let d := d.updPart v.part fun p => { p with graphs := p.graphs.map fun (g : Graph) =>
      if g.vf = v.fn ∧ g.hold = 1 then { g with hold := 2 } else g }
    return s.onDev 0 d)

/-- A suspended instance of a graph that has faulted, which will not run again (R320), ends with the eviction (R318). -/
def Graph.evictInstance (g : Graph) (i : Nat) : Graph :=
  g.upd i fun n =>
    let n := { n with live := n.live - 1 }
    if n.live = 0 ∧ !n.st.final then { n with st := if n.bad then .faulted else .cancelled } else n

/-- A virtual function evicted (R318, R383, R411): its accumulators are spilled, its graphs leave the pool, and instances
of graphs that have faulted end. -/
def State.evictVf (s : State) (v : Vf) : State :=
  let mine := s.dev.ctxs.filter fun c => c.bound.vf == v.fn
  let s := mine.foldl (fun (s : State) c => s.spill c.id c.area) s
  let dead := mine.filter fun c => ((s.dev.part v.part).bind fun p => p.graph c.bound.graph).any fun g => g.verdict != 0
  let s := s.discard (dead.map (·.id)) v.part
  let d := dead.foldl (fun (d : Dev) c =>
    (d.updGraph v.part c.bound.graph fun g => g.evictInstance c.bound.node).graphCheck v.part c.bound.graph) s.dev
  let d := d.updPart v.part fun p => { p with graphs := p.graphs.map fun (g : Graph) =>
    if g.vf = v.fn ∧ g.admitted then { g with admitted := false, hold := 1 } else g }
  { s with dev := d.updVf v.fn fun v => { v with evicted := true } }

/-- EVICT (R318, R383, R411): completed once every instance is suspended. -/
def execEvict (c : Cmd) (s : State) : Out :=
  s.command c 0x0032 (do
    need (restZero c []) stMalformed
    let v ← s.pfVf c
    need (v.assigned && !v.evicted) stState
    need (v.flag 1) stPolicy
    need v.act.isNone stBusy
    let t := s.pauseVf v.fn
    if s.anyBound v.fn then
      return (none, { t with dev := t.dev.updVf v.fn fun v => { v with act := some (c.fn, c.q, c.cid, true) } })
    else return (some 0, t.evictVf v))

/-- A PAUSE or EVICT of a function whose instances are all suspended completes. -/
def State.settleVf (s : State) (v : Vf) : State :=
  match v.act with
  | none => s
  | some (fn, q, cid, evict) =>
    if s.anyBound v.fn then s
    else
      let t := if evict then s.evictVf v else s
      { t with dev := (t.dev.updVf v.fn fun v => { v with act := none }).complete fn q cid 0 false 0 }

/-- Every PAUSE and EVICT that can complete does. -/
def State.settleVfs (s : State) : State := s.dev.host.vfs.foldl State.settleVf s

/-- A context moved to another core (R377): its core map entry, its saved work and its own writes name the new one; writes
that the old port held are tried again against the new map. -/
def State.moveCtx (s : State) (c : SavedCtx) (phys : Nat) : State :=
  let moved (m : Msg) : Bool := m.job == c.bound.job && m.core == c.bound.jcore && m.stage == .atPort &&
    (match m.kind with | .pod k => k != .phm | _ => false) && (s.dev.job m.job).any fun j => j.self == m.dev
  let net := s.dev.net.map fun (m : Msg) =>
    let m := if moved m then { m with stage := .released } else m
    if m.ctx = c.id ∧ m.src = .slot c.phys c.slot1 then { m with src := .slot phys c.slot1 } else m
  let d : Dev := { s.dev with
    net := net
    jobs := s.dev.jobs.map fun (j : Job) => { j with map := j.map.map fun (e : MapEntry) =>
      if e.ctx = c.id then { e with phys := phys } else e }
    colls := s.dev.colls.map fun (x : Coll) => if x.who.ctx = c.id then { x with phys := phys } else x
    ctxs := s.dev.ctxs.map fun (x : SavedCtx) =>
      if x.id = c.id then
        { x with phys := phys, written := false, copies := x.copies.map fun (t : Nat × Transfer) => (t.1, { t.2 with phys := phys }) }
      else x }
  { s with dev := d.release fun e => e.what == .context c.id }

/-- RELOCATE (R377, R383, R411): the function's suspended contexts on a cluster move to the same local index of another, of the
same RSPLIT setting. It is refused while %accown of an old core names one of them, so before system software has spilled
them. -/
def execRelocate (c : Cmd) (s : State) : Out :=
  s.command c 0x0033 (do
    let src := param c 0 1
    let dst := param c 1 1
    need (restZero c [(0, 2)] && src < 32 && dst < 32) stMalformed
    let v ← s.pfVf c
    let p ← must (s.dev.part v.part) stState
    let mine := s.dev.ctxs.filter fun x => x.bound.vf == v.fn && clusterOf x.phys == src
    let target (x : SavedCtx) := 5 * dst + x.phys % 5
    need (v.assigned && p.clusters.testBit src && p.clusters.testBit dst && mine.all fun x =>
      (isS x.phys || p.sched.rsmask.testBit (rsBit x.phys) == p.sched.rsmask.testBit (rsBit (target x))) &&
        (s.owners x.id).isEmpty) stState
    need (v.flag 3) stPolicy
    return (some 0, mine.foldl (fun (s : State) x => s.moveCtx x (target x)) s))

end Sys2Proof.Machine
end

