-- ==== Sys2Proof/Machine/Regions.lean ====
section
/-! DEFINITION. Shared regions (R406, R407) and the reading of the journal, the device log and the health record (R447,
R448). -/
namespace Sys2Proof.Machine

/-! ### Memory of regions (R400, R406) -/

/-- The extents that a layout record gives its partitions. -/
def layoutExtents (bs : List Byte) : Nat :=
  (List.range 12).foldl (fun a p => a ||| bytesAt bs (128 * p + 64) 64) 0

/-- The extents that belong to a partition, to a layout in commit, or that wait for scrub or are withheld. -/
def Dev.takenExtents (d : Dev) : Nat :=
  (d.parts.map (·.extents) ++ d.mgmt.scrubs.map (·.extents) ++ d.mgmt.gates.map (·.extents)).foldl (· ||| ·)
    (d.mgmt.withheld ||| d.mgmt.commit.elim 0 fun c => layoutExtents c.bytes)

/-- The bytes that a region takes: whole pages. -/
def Region.size (r : Region) : Nat := (r.len + 65535) / 65536 * 65536

/-- Whether n bytes from a are free for a region. -/
def Dev.regionFits (d : Dev) (a n : Nat) : Bool :=
  a + n ≤ Config.hbmBytes && (List.range ((a + n + 2 ^ 30 - 1) / 2 ^ 30 - a / 2 ^ 30)).all (fun i =>
    !d.takenExtents.testBit (a / 2 ^ 30 + i)) && d.host.regions.all fun r => a + n ≤ r.pa || r.pa + r.size ≤ a

/-- The lowest free place of n bytes: at the start of an extent or behind a region. -/
def Dev.regionPlace (d : Dev) (n : Nat) : Option Nat :=
  ((List.range 512).map (· * 2 ^ 30) ++ d.host.regions.map fun (r : Region) => r.pa + r.size).foldl
    (fun (best : Option Nat) a => if d.regionFits a n then some (best.elim a (Nat.min a)) else best) none

/-! ### Publication (R406) -/

/-- The function that publishes: PF 0, or a VF in RUN. `named` is what its HANDLE names, if the handle is good. -/
def State.publisher {α : Type} (s : State) (c : Cmd) (named : Option α) : Except U16 α :=
  if c.fn = 0 then must named stBadHandle
  else do
    let (_, x) ← s.vfNames c named
    return x

/-- Bytes whose content carries no information (R415): n of them, from a free value. -/
def veiled (k n : Nat) : List Byte := (List.range n).map fun i => BitVec.ofNat 8 (Config.freeBits k i)

/-- A range of HBM whose bytes were written under another key than the one that reads them from here on (R415). -/
def Act.veil {s0 : State} (a n : Nat) : Act s0 Unit := do
  let s ← Act.cur
  Act.bytes .hbm a (veiled s.free n)
  Act.upd fun s => { s with free := s.free + 1 }

/-- Extents that hold bytes under the scrub key or the region key (R415). -/
def Mgmt.touch (m : Mgmt) (extents : Nat) : Mgmt := { m with touched := m.touched ||| extents }

/-- The extents that a region takes a part of. -/
def Region.extents (r : Region) : Nat :=
  ((List.range 512).filter fun e => r.pa < (e + 1) * 2 ^ 30 && e * 2 ^ 30 < r.pa + r.size).foldl (fun a e => a ||| 2 ^ e) 0

/-- A region given its place: what its extents held under the scrub key carries no information under the region key (R415). -/
def State.placeRegion (s : State) (r : Region) : State :=
  runAct (fun _ => do
    if r.extents &&& s.dev.mgmt.touched = 0 then Act.done else Act.veil r.pa r.size
    Act.dev fun d => { d with serial := r.id, host := { d.host with regions := d.host.regions ++ [r] }, mgmt := d.mgmt.touch r.extents })
    s

/-- REGION_PUBLISH (R406): a region is created and its fill begins; it is completed when the fill ends. A name and version
that exist already are refused and journalled. The bytes follow the descriptor in host memory (log 48). -/
def execRegionPublish (c : Cmd) (s : State) : Out :=
  let at_ := param c 0 8
  let bs := s.mems.read .host at_ 80
  let len := bytesAt bs 36 4
  let double := s.dev.host.regions.any fun r => r.name == bs.take 32 && r.version == bytesAt bs 32 4
  let early : Except U16 Unit := do
    need (restZero c [(0, 8)] && c.handle == 0) stMalformed
    s.publisher c (some ())
    need (bytesAt bs 40 8 == 0 && len != 0) stFormat
  let t := match early with
    | .ok _ => if double && s.dev.mgmt.state == 2 then { s with dev := s.dev.journal 2 c.fn 0x0060 c.cid (stDuplicate.zeroExtend 64) [] } else s
    | .error _ => s
  t.command c 0x0060 (do
    early
    need (!double) stDuplicate
    let pa ← must (t.dev.regionPlace ((len + 65535) / 65536 * 65536)) stNoSpace
    let id := t.dev.serial + 1
    let r : Region := { id := id, name := bs.take 32, version := bytesAt bs 32 4, len := len, digest := (bs.drop 48).take 32
                        fn := c.fn, host := at_ + 80, pa := pa, got := 0, sealed := false, withdrawn := false, grants := []
                        q := c.q, cid := c.cid }
    return (none, t.placeRegion r))

/-- A region without its record. -/
def Dev.dropRegion (d : Dev) (n : Nat) : Dev :=
  { d with host := { d.host with regions := d.host.regions.filter fun r => r.id != n } }

/-- A region's record changed. -/
def Dev.updRegion (d : Dev) (n : Nat) (f : Region → Region) : Dev :=
  { d with host := { d.host with regions := d.host.regions.map fun r => if r.id = n then f r else r } }

/-- The fill bucket of a publishing function (R407): bytes in place of tokens. -/
def Dev.fillBucket (d : Dev) (fn : Nat) : Bucket := d.bucket 26 fn

/-- A region whose bytes the fill engine can go on reading: one at a time, while its publisher's bucket holds a byte (R407). -/
def Dev.filling (d : Dev) : Option Region :=
  d.host.regions.find? fun r => !r.sealed && r.got < r.len && 0 < (d.fillBucket r.fn).tok

/-- The fill of a region goes on (R406, R407): as many bytes as are left and as its publisher's bucket holds are read from host
memory and land in the region; a failing word of host memory, or one of the region that the bytes cover in part, ends the fill as a
mismatch does, and the second is logged by the device (R426, R433). -/
def execRegionFill (n : Nat) (s : State) : Out :=
  .next (match s.dev.filling with
    | none => s
    | some r =>
      if r.id ≠ n then s
      else
        let b := s.dev.fillBucket r.fn
        let k := Nat.min (r.len - r.got) b.tok
        let stop : Dev := s.dev.updRegion n fun r => { r with got := r.len + 1 }
        if (s.dev.failing .host (r.host + r.got) k).isSome then { s with dev := stop }
        else if (s.dev.partFailing .hbm (r.pa + r.got) k).isSome then
          runAct (fun _ => Act.logDevice 4 0x40 12 0 0) { s with dev := stop }
        else runAct (fun s0 => do
          Act.correctHere (partWords .hbm (r.pa + r.got) k)
          Act.write .hbm (r.pa + r.got) (s0.mems.read .host (r.host + r.got) k)
          Act.dev fun d => (d.setBucket { b with tok := b.tok - k }).updRegion n fun r => { r with got := r.got + k }) s)

/-- REGION_SEAL (R406): when the bytes have landed, the region is sealed if their digest is the declared one, sharing the
copy of a region of the same digest; otherwise it is discarded and the publication refused. A failing word of it is met as it is
read (R426, R433; log 48). -/
def execRegionSeal (n : Nat) (s : State) : Out :=
  .next (match s.dev.host.regions.find? fun r => r.id == n && !r.sealed && r.len ≤ r.got with
    | none => s
    | some r =>
      let bs := s.mems.read .hbm r.pa r.len
      let bad := r.got = r.len ∧ (s.dev.failing .hbm r.pa r.len).isSome
      let refuse (st : U16) (d : Dev) := (d.dropRegion n).complete r.fn r.q r.cid st false 0
      let s := runAct (fun _ => do
        if bad then Act.logDevice 4 0x40 12 0 0
        else if r.got = r.len then Act.correctHere [(.hbm, r.pa, r.len)]) s
      if bad ∨ r.got ≠ r.len ∨ sha256 bs ≠ r.digest then
        { s with dev := refuse stDigest (s.dev.journal 2 r.fn 0x0060 r.cid (stDigest.zeroExtend 64) []) }
      else
        let (h, d) := s.dev.newHandle r.fn (.region n)
        let twin := s.dev.host.regions.find? fun x => x.sealed && x.digest == r.digest
        let pa := twin.elim r.pa (·.pa)
        let d := d.updRegion n fun x => { x with sealed := true, pa := pa }
        { s with dev := (d.journal 1 r.fn 0x0060 r.cid h []).complete r.fn r.q r.cid 0 false h })

/-- REGION_WITHDRAW (R407). -/
def execRegionWithdraw (c : Cmd) (s : State) : Out :=
  s.command c 0x0061 (do
    need (restZero c []) stMalformed
    let r ← s.publisher c (match s.dev.object c.fn c.handle with
      | some (.region i) => s.dev.host.regions.find? fun r => r.id == i
      | _ => none)
    need (!r.withdrawn) stState
    need r.sealed stBusy
    let d := s.dev.updRegion r.id fun x => { x with withdrawn := true }
    return s.onDev 0 (d.revoke fun o => o == .region r.id).freeRegions)

/-! ### The journal, the device log and the health record (R433, R447, R448) -/

/-- A journal record as 64 bytes; of a virtual function's command the physical function sees only its outline (R447). -/
def JRec.bytes (r : JRec) : List Byte :=
  let vf := r.fn ≠ 0 ∧ r.kind ≤ 2
  leBytes 8 r.seq ++ leBytes 8 r.time ++ [BitVec.ofNat 8 r.kind, 0] ++ leBytes 2 r.fn ++ leBytes 2 r.opc ++
    leBytes 2 (if vf then 0 else r.cid.toNat) ++ leBytes 8 (if vf ∧ r.kind = 1 then 0 else r.value.toNat) ++
    (r.digest ++ zeroBytes (32 - r.digest.length)).take 32

/-- The usable cores of each cluster, a nibble for each, the lower cluster in the lower half (R438, R448). -/
def Dev.usableCores (d : Dev) : List Byte :=
  let n (cl : Nat) : Nat := (List.range 5).countP fun i => !d.mgmt.excluded.contains (5 * cl + i)
  (List.range 16).map fun i => BitVec.ofNat 8 (n (2 * i) + 16 * n (2 * i + 1))

/-- The health record (R448). -/
def Dev.health (d : Dev) : List Byte :=
  leBytes 4 d.mgmt.loaded.version ++ leBytes 1 d.mgmt.state ++ zeroBytes 3 ++ d.usableCores ++
    leBytes 2 ((List.range 512).countP d.mgmt.withheld.testBit) ++ zeroBytes 6 ++ leBytes 8 (2 ^ 40 - d.mgmt.hssNext) ++
    zeroBytes 24

/-- A journal record put in its place by SEQ. -/
def placeRec (r : JRec) : List JRec → List JRec
  | [] => [r]
  | x :: xs => if r.seq < x.seq then r :: x :: xs else x :: placeRec r xs

/-- The records that JOURNAL_READ returns, with the number that each is asked for by: the journal from SRAM and flash in
ascending SEQ, the device log by position, and the health record. -/
def Dev.readable (d : Dev) (src : Nat) : List (Nat × List Byte) :=
  match src with
  | 0 => (((d.mgmt.flash.filter fun r => !(d.mgmt.journal.any fun j => j.seq == r.seq)) ++ d.mgmt.journal).foldl
      (fun l r => placeRec r l) []).map fun r => (r.seq, r.bytes)
  | 1 => d.mgmt.log.zipIdx.map fun x => (x.2, x.1.bytes)
  | _ => [(0, d.health)]

/-- As many records as fit into n bytes. -/
def fitting : Nat → List (Nat × List Byte) → List (Nat × List Byte)
  | _, [] => []
  | n, r :: rs => if r.2.length ≤ n then r :: fitting (n - r.2.length) rs else []

/-- JOURNAL_READ (R448). -/
def execJournalRead (c : Cmd) (s : State) : Out :=
  s.command c 0x0080 (do
    let first := param c 24 8
    need (restZero c [(0, 1), (8, 12), (24, 8)] && c.handle == 0 && param c 0 1 ≤ 2 && param c 8 8 % 64 == 0) stMalformed
    need (c.fn == 0) stNotPermitted
    let rs := fitting (param c 16 4) ((s.dev.readable (param c 0 1)).filter fun r => param c 0 1 == 2 || first ≤ r.1)
    let next := (rs.getLast?).elim first fun r => r.1 + 1
    return (some (BitVec.ofNat 64 next),
      runAct (fun _ => Act.write .host (param c 8 8) (rs.flatMap (·.2))) s))

end Sys2Proof.Machine
end

