-- ==== Sys2Proof/Machine/Layout.lean ====
section
/-! DEFINITION. Partitions made, reset and changed (R399..R403, R449, R450), scrub, patrol and repair (R425, R438, R439), the
device's failure (R436, R437) and cold reset (R451). -/
namespace Sys2Proof.Machine

/-! ### Power cycles (R402) -/

/-- The owner of the pages of extents that wait for scrub. -/
def ownScrub : Nat := 2 ^ 40

/-- The pages of extents, as runs that nothing may be allocated from until they are scrubbed (R402). -/
def scrubRuns (extents : Nat) : List (Nat × Nat × Nat) :=
  ((List.range 512).filter extents.testBit).map fun e => (e * 16384, 16384, ownScrub)

/-- The contexts that a power cycle of clusters discards (R402): those bound in them, and every suspended one of the partition. -/
def State.lost (s : State) (part cls : Nat) : List (Nat × Bound) :=
  (s.slots.filterMap fun x => (x.2.bound.filter fun b => b.part == part && cls.testBit (clusterOf x.1)).map fun b => (b.ctx, b)) ++
    (s.dev.ctxs.filter fun c => c.bound.part == part).map fun c => (c.id, c.bound)

/-- Steps 1 to 3 of R402 for a whole partition: its work, jobs, graphs, bindings and key go. -/
def State.cutPartition (s : State) (p : Part) : State :=
  let t := s.discard (s.contexts fun b => b.part == p.num) p.num
  let t := (t.dev.host.vfs.filter fun v => v.part == p.num).foldl State.unbind t
  let d := t.dev.dropGraphs p.num fun _ => true
  { t with dev := { d.updPart p.num (fun p => { p with
      key := none, tenant := none, stopped := true, logWr := 0, logRd := 0, logLost := 0, reserve := none }) with
    jobs := d.jobs.filter fun j => j.part != p.num } }

/-- Steps 1 and 2 of R402 for clusters that a layout takes from a partition: their contexts go, and the graphs that lose an
instance end CANCELLED (log 49). -/
def State.cutClusters (s : State) (p : Part) (cls : Nat) : State :=
  let gone := s.lost p.num cls
  let t := s.discard (gone.map (·.1)) p.num
  let d := gone.foldl (fun (d : Dev) x =>
    (d.updGraph p.num x.2.graph fun g => (g.stop 3 0).evictInstance x.2.node).graphCheck p.num x.2.graph) t.dev
  { t with dev := d }

/-- The cores of a cluster under core reset, its TLBs empty and its refusal lists, channels and remembered requesters
cleared, those of host lines kept (step 4 of R402; R292; log 102). -/
def State.resetCluster (s : State) (cl extents : Nat) : State :=
  let t := (List.range 5).foldl (fun (s : State) i => s.setCore (CoreRec.reset (5 * cl + i))) s
  let here (phys : Nat) := clusterOf phys == cl
  let d := t.dev
  { t with dev := { d with
      refs := d.refs.filter fun e => !here e.phys
      tlb := d.tlb.filter fun x => !here x.1
      ctlb := d.ctlb.filter fun x => x.1 != cl
      walks := d.walks.filter fun w => w.cl != cl
      removals := d.removals.filter fun r => r.cl != cl
      chans := d.chans.filter fun c => c.cl != cl
      lines := d.lines.filter fun l => l.1 % 2 == 1 || !extents.testBit (l.1 / 2 ^ 25) } }

/-- The power domains as R451 has them: on exactly where the cluster belongs to a partition and is not gated off. -/
def Dev.repower (d : Dev) : Dev :=
  let on (c : Nat) : Bool := d.parts.any (fun p => p.clusters.testBit c) && !(d.mgmt.gates.any fun g => g.cls.testBit c)
  { d with mgmt := { d.mgmt with power := ((List.range 32).filter on).foldl (fun a c => a ||| 2 ^ c) 0 } }

/-- A power cycle of clusters begins (R402): they are gated off. -/
def Dev.gate (d : Dev) (g : Gate) : Dev := { d with mgmt := { d.mgmt with gates := d.mgmt.gates ++ [g] } }.repower

/-- Extents passed to the scrubber, for whoever asked (step 5 of R402). -/
def Dev.toScrub (d : Dev) (extents fn q head : Nat) (cid : U16) (quiet : Bool) : Dev :=
  { d with
    serial := d.serial + 1
    mgmt := { d.mgmt with scrubs := d.mgmt.scrubs ++ [⟨d.serial + 1, extents, fn, q, cid, head, quiet⟩] } }

/-- A bit taken out of a mask. -/
def clearBit (m i : Nat) : Nat := if m.testBit i then m - 2 ^ i else m

/-- A commit rolled back (R450): ROLLED_BACK is journalled, the previous layout stands, a partition that it would have removed
runs again, empty, and the completion with RESULT 2 is posted. -/
def Dev.rollBack (d : Dev) (k : Commit) (goes : Part → Bool) : Dev :=
  let d := d.journal 5 k.fn 0x0050 k.cid 2 k.digest
  { d with
    parts := d.parts.map fun (p : Part) => if goes p then { p with stopped := false } else p
    mgmt := { d.mgmt with commit := none } }.repower.completeAt k.fn k.q k.head k.cid 0 true 2

/-- A descriptor of a layout record. -/
structure Desc where
  clusters : Nat
  nslot : Nat
  qslots : Nat
  flags : Nat
  extents : Nat
  zero : Bool
  deriving DecidableEq, Repr

/-- Descriptor p of a layout record, for partition p + 1. -/
def descOf (bs : List Byte) (p : Nat) : Desc :=
  let o := 128 * p
  { clusters := bytesAt bs o 4, nslot := bytesAt bs (o + 4) 2, qslots := bytesAt bs (o + 6) 1, flags := bytesAt bs (o + 7) 1
    extents := bytesAt bs (o + 64) 64, zero := ((bs.drop o).take 128).all (· == 0) }

/-- The descriptors of a record. -/
def descs (bs : List Byte) : List Desc := (List.range 12).map (descOf bs)

def Desc.valid (x : Desc) : Bool := x.flags % 2 == 1
def Desc.lend (x : Desc) : Bool := x.flags / 2 % 2 == 1

/-- Whether a partition goes as a whole under a record: it has no valid descriptor left. One whose clusters are all other ones
stays, with the extents that it keeps (R400). -/
def Part.goes (p : Part) (bs : List Byte) : Bool := !(descOf bs (p.num - 1)).valid

/-- Extents veiled as a whole. -/
def Act.veilExtents {s0 : State} (extents : Nat) : Act s0 Unit :=
  Act.each ((List.range 512).filter extents.testBit) fun e => Act.veil (e * 2 ^ 30) (2 ^ 30)

/-- The layout that stands when a roll-back has nothing more to wait for (R450). What a partition's erased key had written reads
as bytes without information from here on (R415). -/
def State.undoLayout (s : State) : State :=
  match s.dev.mgmt.commit with
  | some k =>
    if !k.undo || s.dev.mgmt.gates.any (·.commit) then s
    else
      let gone := s.dev.parts.filter fun p => p.goes k.bytes
      runAct (fun _ => do
        Act.each gone fun p => Act.veilExtents p.extents
        Act.dev fun d => d.rollBack k fun p => p.goes k.bytes) s
  | none => s

/-- POWER_GATE_ON (R402, R449): a cluster gated for 100 µs comes up under core reset; it holds the digest of a layout in
commit, and the last cluster of a partition's reset completes the command and begins the scrub. -/
def execPowerGateOn (cl : Nat) (s : State) : Out :=
  .next (match s.dev.mgmt.gates.find? fun g => g.cls.testBit cl && g.since + 270000 ≤ s.dev.now with
    | none => s
    | some g =>
      let t := s.resetCluster cl g.extents
      let left := clearBit g.cls cl
      let others := t.dev.mgmt.gates.filter fun x => !x.cls.testBit cl
      let gates := if left = 0 then others else others ++ [{ g with cls := left }]
      let commit := t.dev.mgmt.commit.map fun (k : Commit) =>
        if g.commit then { k with preps := k.preps ||| 2 ^ cl } else k
      let d := { t.dev with mgmt := { t.dev.mgmt with gates := gates, commit := commit } }.repower
      let u : State := { t with dev := if left = 0 ∧ !g.commit then
          (d.completeAt g.fn g.q g.head g.cid 0 false 0).toScrub g.extents g.fn g.q g.head g.cid false else d }
      u.undoLayout)

/-- PART_RESET (R402, R411): completed when the clusters are powered again. -/
def execPartReset (c : Cmd) (s : State) : Out :=
  s.command c 0x0051 (do
    let part := param c 0 1
    need (restZero c [(0, 1)] && c.handle == 0 && 1 ≤ part && part ≤ 12) stMalformed
    need (c.fn == 0) stNotPermitted
    need (!s.dev.pendingPart part) stCommitPending
    let p ← must (s.dev.part part) stState
    need (s.dev.mgmt.scrubs.all fun x => x.extents &&& p.extents == 0) stBusy
    let t := s.cutPartition p
    let d := t.dev.updPart part fun p => { p with used := p.used ++ scrubRuns p.extents }
    return (none, { t with dev := d.gate ⟨p.clusters, d.now, part, p.extents, c.fn, c.q, c.cid, false, d.sqHead c.fn c.q⟩ }))

/-! ### Scrub, patrol and repair (R402, R403, R425, R439) -/

/-- Whether the bank of a failing word has a spare row left (R439; log 50). -/
def spareRow (word : Nat) : Bool := Config.secret 6 word % 2 == 1

/-- A row remapped at run time, and journalled (R439, R447). -/
def Dev.remap (d : Dev) (word : Nat) : Dev :=
  { d with mgmt := { d.mgmt with remaps := word :: d.mgmt.remaps } }.journal 7 0 0 0 (BitVec.ofNat 64 (8 * word)) []

/-- The partitions without extents that are withheld. -/
def Dev.withhold (d : Dev) (extents : Nat) : Dev :=
  let f (p : Part) : Part := { p with extents := (List.range 512).foldl (fun a e => if extents.testBit e then clearBit a e else a) p.extents }
  { d with parts := d.parts.map f, mgmt := { d.mgmt with withheld := d.mgmt.withheld ||| extents } }

/-- The extents that partitions hold. -/
def Dev.heldExtents (d : Dev) : Nat := (d.parts.map (·.extents)).foldl (· ||| ·) 0

/-- SCRUB_REPORT (R402, R403, R439): the extents hold zeros under the scrub key, so bytes without information for a partition that
has them already (R415); a row with an uncorrectable word is remapped, or its extent withheld when the bank has no spare; the
report is posted, and the pages may be allocated again. Corrections are the device's (R423, R433). -/
def execScrubReport (n : Nat) (s : State) : Out :=
  .next (match s.dev.mgmt.scrubs.find? fun x => x.id == n with
    | none => s
    | some x =>
      let es := (List.range 512).filter x.extents.testBit
      let bad := (s.dev.bad.filter fun w => w.1 == 12 && x.extents.testBit (w.2 / 2 ^ 27)).map (·.2)
      let stuck := bad.filter fun w => !spareRow w
      let held := stuck.foldl (fun a w => a ||| 2 ^ (w / 2 ^ 27)) 0
      let result : U64 := BitVec.ofNat 64 ((if stuck.isEmpty then 0 else 1) * 4096 + es.length)
      runAct (fun _ => do
        Act.each es fun e => Act.clear .hbm (e * 2 ^ 30) (2 ^ 30)
        Act.veilExtents (x.extents &&& s.dev.heldExtents)
        Act.each bad fun _ => Act.logDevice 4 0x40 12 0 0
        Act.dev fun d =>
          let seen := d.weak.countP fun w => w.1 == 12 && x.extents.testBit (w.2 / 2 ^ 27)
          let d := { d with mgmt := (d.mgmt.touch x.extents).correctedIn 12 seen }
          let d := (bad.filter spareRow).foldl Dev.remap d
          let d := if held = 0 then d else d.withhold held
          let d := { d with
            bad := d.bad.filter fun w => !(w.1 == 12 && x.extents.testBit (w.2 / 2 ^ 27) && spareRow w.2)
            weak := d.weak.filter fun w => !(w.1 == 12 && x.extents.testBit (w.2 / 2 ^ 27))
            parts := d.parts.map fun (p : Part) =>
              if p.extents &&& x.extents = 0 then p
              else { p with stopped := p.stopped && x.quiet, used := p.used.filter fun r =>
                !(r.2.2 == ownScrub && x.extents.testBit (r.1 / 16384)) }
            mgmt := { d.mgmt with scrubs := d.mgmt.scrubs.filter fun y => y.id != n } }
          if x.quiet then d else d.completeAt x.fn x.q x.head x.cid 0 true result) s)

/-- What the memory port does about an uncorrectable word of an assigned extent that the patrol has found (R439; log 78): its row
is remapped and its extent scrubbed again, or, with no spare row left, the extent is withheld. -/
def Dev.repair (d : Dev) (part w : Nat) : Dev :=
  let e := 2 ^ (w / 2 ^ 27)
  if spareRow w then
    (((if d.mgmt.remaps.contains w then d else d.remap w).updPart part fun p =>
      { p with used := p.used ++ scrubRuns e })).toScrub e 0 0 0 0 true
  else d.withhold e

/-- PATROL (R425, R439): the patrol reads the word at a device address of an assigned extent: a single-bit error is
corrected, and an uncorrectable one logged and repaired; the word fails until it is overwritten. -/
def execPatrol (addr : Nat) (s : State) : Out :=
  let w := addr / 8
  .next (match s.dev.parts.find? fun p => p.owns (8 * w) 8 with
    | none => s
    | some p =>
      let d := s.dev
      let t := if d.weak.contains (12, w) then
          { s with dev := { d with
              weak := d.weak.filter fun x => x != (12, w)
              writebacks := d.writebacks.filter fun x => x != w
              mgmt := d.mgmt.correctedIn 12 1 }.countStack 18 (8 * w) }
        else s
      if !d.bad.contains (12, w) then t
      else
        runAct (fun _ => do
          Act.log p.num 4 0x40 12 0 (BitVec.ofNat 64 (8 * w)) 0 0
          Act.dev fun d => d.repair p.num w) t)

/-! ### The layout (R399, R400, R449, R450) -/

/-- Whether masks share no bit pairwise. -/
def disjoint : List Nat → Bool
  | [] => true
  | x :: xs => xs.all (fun y => x &&& y == 0) && disjoint xs

/-- Whether a record keeps its format (R399): a device holds one partition at least. -/
def layoutFormat (bs : List Byte) : Bool :=
  (descs bs).any Desc.valid && (List.range 12).all fun p =>
    let x := descOf bs p
    bytesAt bs (128 * p + 8) 56 == 0 && x.flags < 4 &&
      (!x.valid || (16 ≤ x.nslot && x.nslot ≤ 992 && 1 ≤ x.qslots && x.qslots ≤ 128))

/-- The extents that regions hold (R400). -/
def Dev.regionExtents (d : Dev) : Nat :=
  d.host.regions.foldl (fun a r => (List.range ((r.pa + r.size + 2 ^ 30 - 1) / 2 ^ 30 - r.pa / 2 ^ 30)).foldl
    (fun a i => a ||| 2 ^ (r.pa / 2 ^ 30 + i)) a) 0

/-- Whether a record keeps R400. The extents that wait for scrub are those of a reset that is still gating, too. -/
def Dev.layoutOk (d : Dev) (bs : List Byte) : Bool :=
  let xs := (descs bs).filter Desc.valid
  let dirty := (d.mgmt.scrubs.map (·.extents) ++ (d.mgmt.gates.filter fun g => !g.commit).map (·.extents)).foldl (· ||| ·) 0
  let held := d.regionExtents ||| d.mgmt.withheld ||| dirty
  xs.all (fun x => x.clusters != 0) && disjoint (xs.map (·.clusters)) && disjoint (xs.map (·.extents)) &&
    xs.all (fun x => x.extents &&& held == 0) && (xs.map (·.nslot)).foldl (· + ·) 0 ≤ 992 &&
    (xs.map (·.qslots)).foldl (· + ·) 0 ≤ 128 && (descs bs).all fun x => x.valid || x.zero

/-- The partition that a record gives a cluster. -/
def layoutOwner (bs : List Byte) (cl : Nat) : Option Nat :=
  ((List.range 12).find? fun p => (descOf bs p).valid && (descOf bs p).clusters.testBit cl).map (· + 1)

/-- The clusters whose partition a record changes (R449). -/
def Dev.affected (d : Dev) (bs : List Byte) : Nat :=
  (List.range 32).foldl (fun a cl =>
    if (d.parts.find? fun p => p.clusters.testBit cl).map (·.num) = layoutOwner bs cl then a else a ||| 2 ^ cl) 0

/-- The work that a layout's affected clusters hold is stopped and cut off. -/
def State.cutLayout (s : State) (bs : List Byte) (cls : Nat) : State :=
  s.dev.parts.foldl (fun (s : State) p =>
    if p.clusters &&& cls = 0 then s
    else if p.goes bs then s.cutPartition p
    else s.cutClusters p cls) s

/-- LAYOUT (R400, R449): the commit is accepted, and goes on when its PREPARED reaches flash. -/
def execLayout (c : Cmd) (s : State) : Out :=
  s.command c 0x0050 (do
    need (restZero c [(0, 8)] && c.handle == 0) stMalformed
    need (c.fn == 0) stNotPermitted
    let bs := s.mems.read .host (param c 0 8) 1536
    let cls := s.dev.affected bs
    need (s.dev.mgmt.commit.isSome || cls &&& s.dev.busyClusters == 0) stCommitPending
    need (layoutFormat bs) stFormat
    need ((List.range 12).all fun p => !(descOf bs p).valid || !(descOf bs p).lend ||
      s.dev.host.vfs.all fun v => v.part != p + 1 || v.policy.isNone || v.flag 7) stPolicy
    need s.dev.mgmt.commit.isNone stBusy
    need (s.dev.layoutOk bs) stLayout
    let k : Commit := ⟨bs, sha256 bs, c.fn, c.q, c.cid, cls, 0, false, false, s.dev.sqHead c.fn c.q⟩
    return (none, { s with dev := { s.dev with mgmt := { s.dev.mgmt with commit := some k } } }))

/-- PREPARED reaches flash (R447, R449 steps 1 and 2): the command is journalled and completed, and the affected clusters stop,
are cut off and begin their power cycle. -/
def execLayoutPrepared (s : State) : Out :=
  .next (match s.dev.mgmt.commit with
    | some k =>
      if k.durable then s
      else
        let d := (s.dev.journal 1 k.fn 0x0050 k.cid 0 []).journal 3 k.fn 0x0050 k.cid 0 k.digest
        let d := d.completeAt k.fn k.q k.head k.cid 0 false 0
        let t := { s with dev := { d with mgmt := { d.mgmt with commit := some { k with durable := true } } } }.cutLayout k.bytes
          k.affected
        let own := (t.dev.parts.filter fun p => p.clusters &&& k.affected != 0).foldl (fun a p => a ||| p.extents) 0
        { t with dev := if k.affected = 0 then t.dev
                        else t.dev.gate ⟨k.affected, t.dev.now, 0, own, k.fn, k.q, k.cid, true, k.head⟩ }
    | none => s)

/-- A partition that a descriptor makes anew (R316, R322): reset parameters, BAL = CAP, and its error log's pages. -/
def Part.make (num now : Nat) (x : Desc) : Part :=
  let sched : Sched := { q := 200, refill := 65535, cap := 1048575, charge := Vector.replicate 8 0
                         hreq := Vector.replicate 8 0, copychg := 0, rsmask := 0 }
  { num := num, clusters := x.clusters, nslot := x.nslot, qslots := x.qslots, lend := x.lend, extents := x.extents
    sched := sched, pending := none, bal := [], head := [], since := now, graphs := [], reserve := none
    logWr := 0, logRd := 0, logLost := 0, logPa := 0, key := none, tenant := none, used := [], stopped := false }

/-- The pages of a partition's error log, allocated (R431). -/
def Part.withLog (p : Part) : Part := match p.alloc 2 ownLog with | some (a, q) => { q with logPa := a } | none => p

/-- The partition that a descriptor describes, kept from the one that had its number unless that one goes; `dirty` are
extents that others leave and that wait for scrub. An error log whose extent the partition loses starts anew. -/
def Dev.install (d : Dev) (bs : List Byte) (dirty : Nat) (i : Nat) : Option Part :=
  let x := descOf bs i
  if !x.valid then none
  else
    match (d.part (i + 1)).filter fun p => !p.goes bs with
    | some p =>
      let q := { p with
        clusters := x.clusters, nslot := x.nslot, qslots := x.qslots, lend := x.lend, extents := x.extents
        bal := p.bal.filter fun b => x.clusters.testBit b.1
        used := (p.used.filter fun r => x.extents.testBit (r.1 / 16384)) ++ scrubRuns (dirty &&& x.extents) }
      some (if x.extents.testBit (p.logPa / 2 ^ 30) then q else { q with logWr := 0, logRd := 0, logLost := 0 }.withLog)
    | none => some { Part.make (i + 1) d.now x with used := scrubRuns (dirty &&& x.extents) }.withLog

/-- The extents that some partition leaves under a record. -/
def Dev.freedExtents (d : Dev) (bs : List Byte) : Nat :=
  d.parts.foldl (fun a p =>
    let keep := if p.goes bs then 0 else (descOf bs (p.num - 1)).extents
    (List.range 512).foldl (fun a e => if p.extents.testBit e && !keep.testBit e then a ||| 2 ^ e else a) a) 0

/-- A layout applied (R449 steps 3 and 4): COMMITTED is journalled, the partitions take their new shape, freed extents are
scrubbed, and the completion with RESULT 1 is posted. -/
def Dev.applyLayout (d : Dev) (k : Commit) : Dev :=
  let dirty := d.freedExtents k.bytes
  let d := d.journal 4 k.fn 0x0050 k.cid 1 k.digest
  let parts := (List.range 12).filterMap (d.install k.bytes dirty)
  let d := { d with parts := parts, mgmt := { d.mgmt with commit := none } }.repower
  let d := d.completeAt k.fn k.q k.head k.cid 0 true 1
  if dirty = 0 then d else d.toScrub dirty k.fn k.q k.head k.cid false

/-- The contexts of a partition with the roots of their tables. -/
def State.partRoots (s : State) (part : Nat) : List (Nat × Nat) :=
  (s.slots.filterMap fun x => (x.2.bound.filter fun b => b.part == part).map fun b => (b.ctx, x.2.root)) ++
    (s.dev.ctxs.filter fun c => c.bound.part == part).map fun c => (c.id, c.thread.root)

/-- The extents that partitions take under a record and that hold bytes under another key (R415). -/
def Dev.newlyRead (d : Dev) (bs : List Byte) : Nat :=
  ((List.range 12).foldl (fun a i =>
    let x := descOf bs i
    let kept := ((d.part (i + 1)).filter fun p => !p.goes bs).elim 0 (·.extents)
    if x.valid then a ||| (x.extents &&& (x.extents ^^^ kept)) else a) 0) &&& d.mgmt.touched

/-- A layout applied; what a partition takes that was written under another key carries no information for it (R415), and the
error logs that have moved are mapped anew into their partitions' contexts (R431). -/
def State.applyLayout (s : State) (k : Commit) : State :=
  let t := { s with dev := s.dev.applyLayout k }
  let moved := t.dev.parts.filter fun p => s.dev.parts.any fun q => q.num == p.num && !q.goes k.bytes && q.logPa != p.logPa
  runAct (fun _ => do
    Act.veilExtents (s.dev.newlyRead k.bytes)
    Act.each moved fun p => Act.each (t.partRoots p.num) fun r =>
      Act.mapPages p.num r.1 r.2 Config.logVa p.logPa 2 0x23) t

/-- Whether PREPARED is in flash and every affected cluster's PREP latch holds the digest, no roll-back having begun. -/
def Commit.ready (k : Commit) : Bool := k.durable && !k.undo && k.affected &&& k.preps == k.affected

/-- LAYOUT_COMMIT (R449). -/
def execLayoutCommit (s : State) : Out :=
  .next (match s.dev.mgmt.commit with
    | some k => if k.ready then s.applyLayout k else s
    | none => s)

/-- MGMT_WATCHDOG_RESET (R450): a commit whose clusters all hold the digest goes forward; one whose PREPARED never reached flash
leaves nothing behind and is completed with BUSY; any other is rolled back once its power cycles are over. -/
def execMgmtWatchdogReset (s : State) : Out :=
  .next (match s.dev.mgmt.commit with
    | some k =>
      let d := s.dev
      if k.ready then s.applyLayout k
      else if !k.durable then
        { s with dev := { d with mgmt := { d.mgmt with commit := none } }.completeAt k.fn k.q k.head k.cid stBusy false 0 }
      else { s with dev := { d with mgmt := { d.mgmt with commit := some { k with undo := true } } } }.undoLayout
    | none => s)

/-! ### The device's failure and cold reset (R416, R418, R436, R437, R451) -/

/-- A slot whose instance ends as faulted with cause 0x40. -/
def Thread.fail (t : Thread) : Thread := if t.bound.isSome then { t.withdraw with run := .faulting 0x40 0 t.iss.bpc, watch := none } else t

/-- The device FAILED (R437): every bound instance ends as faulted with cause 0x40. -/
def State.deviceFails (s : State) : State :=
  { s with
    me := s.me.fail, sib := s.sib.fail, rest := s.rest.map fun c => { c with t0 := c.t0.fail, t1 := c.t1.fail }
    dev := { s.dev with mgmt := { s.dev.mgmt with state := 3 } } }

/-- BOUNDARY_LOST (R426, R433, R436, R437): the device is FAILED. -/
def execBoundaryLost (bnd : Nat) (s : State) : Out := .next (runAct (fun _ => Act.logDevice 4 0x40 15 bnd 0) s.deviceFails)

/-- What a configuration blob holds, as bytes: its version, limits and repair lists, each list behind its length (R416; log 50). -/
def Blob.bytes (b : Blob) : List Byte :=
  let list (l : List (List Byte)) : List Byte := leBytes 8 l.length ++ l.flatten
  leBytes 8 b.version ++ list (b.limits.map (leBytes 8)) ++ list (b.cells.map fun x => leBytes 8 x.1 ++ leBytes 8 x.2) ++
    list (b.cores.map (leBytes 8)) ++ list (b.rows.map (leBytes 8))

/-- The digest of a configuration blob (R417). -/
def Blob.digest (b : Blob) : List Byte := sha256 b.bytes

/-- Whether a configuration blob verifies (R416; log 15): its signature covers all that it holds. -/
def Blob.good (b : Blob) : Bool := Config.verifies 7 (digestNat b.digest + 2 ^ 256 * b.sig)

/-- The cores that the repair lists exclude (R438): by name, or because more of their cells are excluded than they have spares. -/
def Blob.coresOut (b : Blob) : List Nat :=
  (List.range 160).filter fun c =>
    b.cores.contains c || (if isS c then 4 else 8) < (b.cells.eraseDups.filter fun x => x.1 == c).length

/-- The extents of excluded rows whose bank has no spare row left (R438). -/
def Blob.extentsOut (b : Blob) : Nat :=
  (b.rows.filter fun a => !spareRow (a / 8)).foldl (fun m a => m ||| 2 ^ (a / 2 ^ 30)) 0

/-- The PREPARED record of a layout that flash holds no end of: the last of KIND 3 to 5 (R447, R450). -/
def openLayout (flash : List JRec) : Option JRec :=
  ((flash.filter fun r => 3 ≤ r.kind && r.kind ≤ 5).getLast?).filter fun r => r.kind == 3

/-- What flash keeps over a cold reset: its journal, the policy versions in it, the signature pointer, and the configuration blob,
which is loaded; the scrub and region keys are new. Under a blob that fails its signature bring-up stops there. Under another one
its repair lists apply, the record of KIND 8 is written, and a commit that was left open is rolled back (R413, R415, R416, R418,
R438, R447, R451). -/
def Mgmt.cold (m : Mgmt) : Mgmt :=
  let b := m.blob
  let kept : Mgmt := { Mgmt.reset with
    state := 1
    journal := [], flash := m.flash, seq := m.seq
    blob := b, loaded := b
    keys := m.keys + 2
    scrubKey := m.keys + 1
    regionKey := m.keys + 2
    pvers := m.pvers, hssNext := m.hssPersist, hssPersist := m.hssPersist }
  let undo : List JRec := ((openLayout m.flash).map fun k => ⟨m.seq + 2, 0, 5, k.fn, 0x0050, k.cid, 2, k.digest⟩).toList
  if b.good then
    { kept with
      state := 2
      excluded := b.coresOut
      withheld := b.extentsOut
      journal := ⟨m.seq + 1, 0, 8, 0, 0, 0, 0, []⟩ :: undo
      flash := undo.foldl (ringAdd 1048576) m.flash
      seq := m.seq + 1 + undo.length }
  else kept

/-- COLD_RESET (R416, R451): everything but flash is cleared, host memory being the host's; what the outside will do next
keeps its distance in time. -/
def execColdReset (s : State) : Out :=
  let n := s.dev.now
  .next (runAct (fun s0 => do
    Act.clear .spl 0 (160 * 1048576)
    Act.clear .hbm 0 Config.hbmBytes
    Act.clear .acc 0 (160 * 8388608)
    Act.each (s0.mems.tags.map (·.1)) fun k => Act.tag k Tag.reset
    Act.each (s0.mems.cst.map (·.1)) fun k => Act.ctl k 0
    Act.upd fun s =>
      let z := State.reset
      { s with
        me := z.me, sib := z.sib, core := z.core, rest := z.rest
        dev := { z.dev with mgmt := s.dev.mgmt.cold }
        inputs := s.inputs.map fun x => (x.1 - n, x.2) }) s)

end Sys2Proof.Machine
end

