-- ==== Sys2Proof/Machine/Links.lean ====
section
/-! DEFINITION. Token refill (R405), fabric links and their keys (R420, R435), SPDM (R417, R418) and TDISP (R419). -/
namespace Sys2Proof.Machine

/-! ### Token refill (R404, R405) -/

/-- Whether a message is a write that waits for tokens at a port of which p holds: not for its link (R435), and no load. -/
def Dev.tokensFor (d : Dev) (m : Msg) (p : Nat → Bool) : Bool :=
  m.stage == .tokens && m.isWrite && (d.portOf m).any fun n => p n && d.carries n

/-- Whether a write waits for tokens of a bucket. -/
def Dev.waitsAt (d : Dev) (b : Bucket) : Bool := d.net.any fun m => m.part == b.part && d.tokensFor m (· == b.port)

/-- A bucket after its refill (R405), with what overflows it when it shares. -/
def Bucket.refill (b : Bucket) : Bucket × Nat :=
  let t := b.tok + b.rate
  if b.depth < t then ({ b with tok := b.depth }, if b.share then t - b.depth else 0) else ({ b with tok := t }, 0)

/-- The buckets of one port after a 1 µs boundary (R405): refilled, and the pool shared once among those that have a write
waiting. The device buckets (port 25) and fill buckets (port 26) have no redistribution. -/
def Dev.refillPort (d : Dev) (port : Nat) : Dev :=
  let mine := d.mgmt.buckets.filter fun b => b.port == port
  let full := mine.map Bucket.refill
  let pool := if 25 ≤ port then 0 else (full.map (·.2)).foldl (· + ·) 0
  let wants (b : Bucket) : Bool := b.share && d.waitsAt b && b.tok < b.depth
  let rates := (((full.map (·.1)).filter wants).map (·.rate)).foldl (· + ·) 0
  (full.map (·.1)).foldl (fun (d : Dev) b =>
    d.setBucket (if wants b then { b with tok := Nat.min b.depth (b.tok + pool * b.rate / rates) } else b)) d

/-- The waiting messages tried in order: each is sent when its buckets hold its cost and none of its partition, port and
tier waits before it (R404). -/
def Dev.sendWaiting (d : Dev) : List Msg → List (Nat × Nat × Option Nat) → Dev
  | [], _ => d
  | m :: ms, stuck =>
    let key := (m.part, m.path, d.portOf m)
    if m.stage != .tokens then d.sendWaiting ms stuck
    else if stuck.contains key then d.sendWaiting ms stuck
    else match d.pay m with
      | none => d.sendWaiting ms (key :: stuck)
      | some d2 => ((d2.updMsg m.id Msg.sent).sendFlit ((d.portOf m).getD 24)).sendWaiting ms stuck

/-- TOKEN_REFILL (R405): the 1 µs boundary; the fill buckets (port 26) share nothing. -/
def execTokenRefill (s : State) : Out :=
  let d := (List.range 27).foldl Dev.refillPort s.dev
  .next { s with dev := d.sendWaiting d.net [] }

/-! ### Link keys (R420) -/

/-- A direction right after a session: its salt, and key 0 in slot 0. Flits that wait for the link are sent under the new key. -/
def LinkDir.trained (l : LinkDir) (salt : U32) : LinkDir :=
  { salt := salt, k := 0, slot0 := some 0, slot1 := none, count := l.unacked.length, unacked := l.unacked.map fun _ => 0
    rotating := false }

/-- The KID of a direction's next flit (R420). -/
def LinkDir.kid (l : LinkDir) : Nat := l.k % 2

/-- The nonce of a direction's next flit (R420): its salt, and the flit counter behind it. -/
def LinkDir.nonce (l : LinkDir) : BitVec 96 := l.salt ++ BitVec.ofNat 64 l.count

/-- The key a receiver holds in the slot that a KID names. -/
def LinkDir.held (l : LinkDir) (kid : Nat) : Option Nat := if kid % 2 = 0 then l.slot0 else l.slot1

/-- The devices behind a port reachable or not, for every job (R297). -/
def Dev.setReach (d : Dev) (port : Nat) (up : Bool) : Dev :=
  { d with jobs := d.jobs.map fun (j : Job) => { j with devs := j.devs.zipIdx.map fun (x : DevEntry × Nat) =>
      if x.1.port = port ∧ x.2 ≠ j.self then { x.1 with reach := up } else x.1 } }


/-- One direction of a port changed. -/
def Port.dir (p : Port) (outward : Bool) (f : LinkDir → LinkDir) : Port :=
  if outward then { p with out := f p.out } else { p with inw := f p.inw }

/-- A direction of a port that is up changed. -/
def State.onLink (s : State) (port : Nat) (outward : Bool) (f : LinkDir → LinkDir) : State :=
  { s with dev := s.dev.updPort port fun p => if p.st = .up then p.dir outward f else p }

/-- The sender goes over to key k + 1 when the receiver holds it; the flit counter restarts at 0 (R420). -/
def LinkDir.confirm (l : LinkDir) : LinkDir :=
  if l.rotating ∧ l.held (l.k + 1) = some (l.k + 1) then { l with k := l.k + 1, count := 0 } else l

/-- ROTATE_CONFIRM (R420). -/
def execRotateConfirm (port : Nat) (outward : Bool) (s : State) : Out := .next (s.onLink port outward LinkDir.confirm)

/-- Key k, which the sender left, erased at the receiver when no flit under it is unacknowledged (R420). -/
def LinkDir.retire (l : LinkDir) : LinkDir :=
  if l.rotating ∧ 1 ≤ l.k ∧ l.held (l.k - 1) = some (l.k - 1) ∧ !l.unacked.contains (l.k - 1) then
    { l.install (l.k - 1) none with rotating := false }
  else l

/-- RETIRE (R420). -/
def execRetire (port : Nat) (outward : Bool) (s : State) : Out := .next (s.onLink port outward LinkDir.retire)

/-- FLIT_ACKNOWLEDGEMENT (R420): the oldest unacknowledged flit is acknowledged. -/
def execFlitAcknowledgement (port : Nat) (outward : Bool) (s : State) : Out :=
  .next (s.onLink port outward fun l => { l with unacked := l.unacked.drop 1 })

/-- The flit counter of a direction of a port. -/
def State.flits (s : State) (port : Nat) (outward : Bool) : Nat :=
  (s.dev.port port).elim 0 fun p => if outward then p.out.count else p.inw.count

/-- KEY_COUNTER_EXPIRY (R420): a rotation, which moves each direction, starts by itself when a counter has reached 2^40. -/
def execKeyCounterExpiry (port : Nat) (outward : Bool) (s : State) : Out :=
  .next (if 2 ^ 40 ≤ s.flits port outward then (s.onLink port true LinkDir.rotate).onLink port false LinkDir.rotate else s)

/-- The flits of a direction that are not acknowledged sent again, under the key current now (R420). -/
def LinkDir.replay (l : LinkDir) : LinkDir := { l with unacked := l.unacked.map fun _ => l.k, count := l.count + l.unacked.length }

/-- A replay over a port that is up, counted (R445). -/
def State.replayLink (s : State) (port : Nat) (outward : Bool) : State :=
  let t := s.onLink port outward LinkDir.replay
  if (s.dev.port port).any fun p => p.st == .up then { t with dev := t.dev.countEv 26 (32 + port / 6) 1 } else t

/-- FLIT_REPLAY (R420, R435): the flits not acknowledged are sent again, encrypted under the key current now. -/
def execFlitReplay (port : Nat) (outward : Bool) (s : State) : Out := .next (s.replayLink port outward)

/-- A flit that arrives over a port that is up (R420): one whose KID names an empty slot fails its authentication, which is a link
error and leads to a replay (R435); another is received. -/
def State.flitArrives (s : State) (port kid : Nat) : State :=
  match s.dev.port port with
  | some p =>
    if p.st ≠ .up then s
    else if (p.inw.held kid).isNone then s.replayLink port false
    else
      let t := s.onLink port false LinkDir.flit
      { t with dev := t.dev.countEv 25 (32 + port / 6) 1 }
  | none => s

/-! ### Link state (R435) -/

/-- A link event in the device log (R431, R433). -/
def Act.logLink {s0 : State} (port : Nat) : Act s0 Unit := Act.logDevice 6 0 0xFF (256 + port) 0

/-- A direction of a link that is down or retraining: the receiver holds no key. -/
def LinkDir.cut (l : LinkDir) : LinkDir := { l with slot0 := none, slot1 := none, rotating := false }

/-- LINK_RETRAIN (R435): the link retrains, its session is over, and the event is logged. -/
def execLinkRetrain (port : Nat) (s : State) : Out :=
  .next (match s.dev.port port with
    | none => s
    | some p =>
      if p.st = .up then
        runAct (fun s0 => do
          Act.dev fun d => d.updPort port fun p => { p with st := .retraining s0.dev.now, out := p.out.cut, inw := p.inw.cut }
          Act.logLink port) s
      else s)

/-- Whether a link has been retraining for 10 ms. -/
def Port.expired (p : Port) (now : Nat) : Bool :=
  match p.st with
  | .retraining t => t + 27000000 ≤ now
  | _ => false

/-- The messages whose path leaves by a port answered with error response 0x41. -/
def Dev.cutPath (d : Dev) (port : Nat) : Dev :=
  { d with net := d.net.map fun (m : Msg) =>
      if d.portOf m = some port ∧ (m.stage = .away ∨ m.stage = .tokens) then { m with stage := .answered 0x41 0 } else m }

/-- A link that has not come back 10 ms after retraining began is down (R297, R435): every write across it is answered 0x41, its
devices cannot be reached, and the event is logged. -/
def State.linkDown (s : State) (port : Nat) : State :=
  match s.dev.port port with
  | none => s
  | some p =>
    if p.expired s.dev.now then
      runAct (fun _ => do
        Act.dev fun d => ((d.cutPath port).setReach port false).updPort port fun p =>
          { p with st := .down, out := LinkDir.reset, inw := LinkDir.reset }
        Act.logLink port) s
    else s

/-- LINK_DOWN (R297, R435). -/
def execLinkDown (port : Nat) (s : State) : Out := .next (s.linkDown port)

/-- The identity attested over a port void, so that the device there must attest again before a job can name it (R414). -/
def Dev.dropIdentity (d : Dev) (port : Nat) : Dev :=
  let e := { d with mgmt := { d.mgmt with attested := d.mgmt.attested.filter fun x => x.2 != port } }
  { e with jobs := e.jobs.map fun j => j.withDevs e }

/-- A session over a link that is not up (R420): after the link has been down, whoever is behind it has to attest anew (R414; log
94). Each direction has its salt, which is open, and its keys start from k = 0; the
devices behind it can be reached, and the flits that waited are sent (R435). -/
def State.trainLink (s : State) (port : Nat) : State :=
  match s.dev.port port with
  | none => s
  | some p =>
    if p.st = .up then s
    else
      let s := if p.st = .down then { s with dev := s.dev.dropIdentity port } else s
      let salt (n : Nat) : U32 := BitVec.ofNat 32 (Config.freeBits s.free n)
      let d := (s.dev.updPort port fun p =>
        { p with st := .up, out := p.out.trained (salt 0), inw := p.inw.trained (salt 1) }).setReach port true
      { s with dev := d.sendWaiting d.net [], free := s.free + 1 }

/-- LINK_TRAINING (R420, R435): a link that comes back after its 10 ms has been down in between. -/
def execLinkTraining (port : Nat) (s : State) : Out := .next ((s.linkDown port).trainLink port)

/-! ### SPDM (R417, R418; log 15) -/

/-- The measurement blocks of R417: block 4 is raw, block 6 is the digest of the policy bound to the requesting virtual
function, and the digests of firmware and configuration are the device's own. -/
def Dev.measurement (d : Dev) (fn block : Nat) : Option (List Byte) :=
  match block with
  | 1 | 2 | 5 => some (leBytes 32 (Config.secret 5 block))
  | 3 => some d.mgmt.loaded.digest
  | 4 => some (leBytes 4 d.mgmt.loaded.version)
  | 6 => (d.vf fn).bind fun v => v.policy.map (·.digest)
  | _ => none

/-- An index of the signing key used (R418): at PERSIST, PERSIST + 256 is written to flash first. None is left after
2^40. -/
def Mgmt.sign (m : Mgmt) : Option Mgmt :=
  if 2 ^ 40 ≤ m.hssNext then none
  else some { m with hssPersist := if m.hssPersist ≤ m.hssNext then m.hssPersist + 256 else m.hssPersist
                     hssNext := m.hssNext + 1 }

/-- SPDM_REQUEST (R417, R418): the answer to a request for a measurement, signed or not; no measurement where the block is
absent or no index of the signing key remains (SPDM ERROR). -/
def execSpdmRequest (fn block : Nat) (signed : Bool) (s : State) : Out :=
  let d := s.dev
  let answer (m : Mgmt) (x : Option (List Byte)) : State :=
    { s with dev := { d with mgmt := m, host := { d.host with spdm := d.host.spdm ++ [(fn, block, x)] } } }
  .next (if signed then
      match d.mgmt.sign with
      | some m => answer m (d.measurement fn block)
      | none => answer d.mgmt none
    else answer d.mgmt (d.measurement fn block))

/-! ### TDISP (R419) -/

/-- LOCK_INTERFACE_REQUEST (R419): accepted in CONFIG_UNLOCKED once a policy is bound. -/
def execLockInterfaceRequest (fn : Nat) (s : State) : Out :=
  .next { s with dev := s.dev.updVf fn fun v => if v.tdi = .unlocked ∧ v.policy.isSome then { v with tdi := .locked } else v }

/-- START_INTERFACE_REQUEST (R419): accepted in CONFIG_LOCKED. -/
def execStartInterfaceRequest (fn : Nat) (s : State) : Out :=
  .next { s with dev := s.dev.updVf fn fun v => if v.tdi = .locked then { v with tdi := .run } else v }

/-- The interface report of a function (R419): BAR0 is its only MMIO range (R387: 64 KiB). It is given from CONFIG_LOCKED on. -/
def State.interfaceReport (s : State) (fn : Nat) : State :=
  if (s.dev.vf fn).any Vf.assigned then
    { s with dev := { s.dev with host := { s.dev.host with reports := s.dev.host.reports ++ [(fn, [(0, 65536)])] } } }
  else s

/-- TDI_ERROR (R419): a locked or running interface goes to ERROR, and its work is paused as by PAUSE. -/
def execTdiError (fn : Nat) (s : State) : Out :=
  .next (if (s.dev.vf fn).any Vf.assigned then
      let t := s.pauseVf fn
      { t with dev := t.dev.updVf fn fun v => { v with tdi := .error } }
    else s)

end Sys2Proof.Machine
end

