-- ==== Sys2Proof/Machine/Queues.lean ====
section
/-! DEFINITION. Submission queues fetched and completions posted (R389, R390, R409). -/
namespace Sys2Proof.Machine

/-! ### Fetching a submission (R389, R390, R409) -/

/-- A submission entry of 64 bytes as a command. -/
def cmdOf (fn q : Nat) (bs : List Byte) : Cmd :=
  { fn := fn, q := q, cid := BitVec.ofNat 16 (bytesAt bs 2 2), handle := BitVec.ofNat 64 (bytesAt bs 8 8)
    param := BitVec.ofNat 384 (bytesAt bs 16 48) }

/-- The command that an OPC names carried out (R411); an unknown OPC or a reserved byte that is not 0 is MALFORMED
(R409). -/
def State.carryOut (s : State) (opc : Nat) (reserved : Nat) (c : Cmd) : Out :=
  if reserved ≠ 0 then s.command c opc (.error stMalformed)
  else match opc with
    | 0x0001 => execVfCreate c s
    | 0x0002 => execVfBind c s
    | 0x0003 => execVfUnbind c s
    | 0x0010 => execQpCreate c s
    | 0x0011 => execQpDelete c s
    | 0x0020 => execImageLoad c s
    | 0x0021 => execMapCmd c s
    | 0x0022 => execUnmap c s
    | 0x0023 => execSubmit c s
    | 0x0030 => execPause c s
    | 0x0031 => execResume c s
    | 0x0032 => execEvict c s
    | 0x0033 => execRelocate c s
    | 0x0040 => execCtrReq c s
    | 0x0041 => execCtrRelease c s
    | 0x0042 => execCtrEvents c s
    | 0x0050 => execLayout c s
    | 0x0051 => execPartReset c s
    | 0x0052 => execSchedSet c s
    | 0x0053 => execBucketSet c s
    | 0x0060 => execRegionPublish c s
    | 0x0061 => execRegionWithdraw c s
    | 0x0070 => execLinkRotate c s
    | 0x0080 => execJournalRead c s
    | _ => s.command c opc (.error stMalformed)

/-- Whether a queue's last command is still to be completed (R390: completions are posted in queue order): a PAUSE or EVICT
that waits for instances, a partition reset under way, a layout not yet prepared, or a publication being filled. -/
def Dev.owes (d : Dev) (fn q : Nat) : Bool :=
  (d.host.vfs.any fun v => v.act.any fun a => a.1 == fn && a.2.1 == q) ||
    (d.mgmt.gates.any fun g => !g.commit && g.fn == fn && g.q == q) ||
    (d.mgmt.commit.any fun k => !k.durable && k.fn == fn && k.q == q) ||
    d.host.regions.any fun r => !r.sealed && r.fn == fn && r.q == q

/-- Whether a queue has a submission that may be fetched now (R384, R390): a physical function's queues need no slot. -/
def Dev.fetchable (d : Dev) (x : QPair) : Bool :=
  !x.error && x.sqHead != x.sqTail && (x.fn == 0 || x.mapped.isSome) && !d.owes x.fn x.q

/-- SUBMISSION_FETCH (R388, R389, R390, R409): the next entry is read from host memory, consumed and carried out; an error of
the host's answer puts the pair in ERROR. -/
def execSubmissionFetch (fn q : Nat) (s : State) : Out :=
  match (s.dev.pair fn q).filter s.dev.fetchable with
  | none => .next s
  | some x =>
    let at_ := x.sqBase + 64 * x.sqHead
    let bs := s.mems.read .host at_ 64
    let t := { s with dev := s.dev.updPair fn q fun y => { y with sqHead := (y.sqHead + 1) % y.sqDepth } }
    if (s.dev.failing .host at_ 64).isSome then .next { s with dev := s.dev.failPair fn q }
    else t.carryOut (bytesAt bs 0 2) (bytesAt bs 4 4) (cmdOf fn q bs)

/-! ### Posting a completion (R389, R390) -/

/-- A completion entry as 16 bytes, with the LOAD byte and the PHASE of the pass. -/
def Completion.bytes (c : Completion) (load : Nat) (phase : Bool) : List Byte :=
  leBytes 2 c.cid.toNat ++ leBytes 2 c.head ++ leBytes 2 c.status.toNat ++
    [BitVec.ofNat 8 load, BitVec.ofNat 8 (phase.toNat + 2 * c.async.toNat)] ++ leBytes 8 c.result.toNat

/-- Whether a pair has room for a completion (R390): the slot written is never the last one before the host's head. -/
def QPair.room (x : QPair) : Bool := !x.error && (x.cqTail + 1) % x.cqDepth != x.cqHead

/-- A pair after its oldest completion is posted. -/
def QPair.posted (x : QPair) : QPair :=
  { x with posts := x.posts.drop 1, cqTail := (x.cqTail + 1) % x.cqDepth
           phase := if x.cqTail + 1 = x.cqDepth then !x.phase else x.phase }

/-- COMPLETION_POST (R389, R390): the oldest completion is written, and the queue's message follows it. A PAUSE or EVICT
whose instances are all suspended is completed first. An error of the write puts the pair in ERROR (R388). -/
def execCompletionPost (fn q : Nat) (s : State) : Out :=
  let s := s.settleVfs
  .next (match (s.dev.pair fn q).filter QPair.room with
    | none => s
    | some x =>
      match x.posts with
      | [] => s
      | c :: _ =>
        if (s.dev.failing .host (x.cqBase + 16 * x.cqTail) 16).isSome then { s with dev := s.dev.failPair fn q }
        else runAct (fun s0 => do
          Act.write .host (x.cqBase + 16 * x.cqTail) (c.bytes s0.dev.mgmt.load x.phase)
          Act.dev fun d => (d.updPair fn q QPair.posted).notify fn q) s)

end Sys2Proof.Machine
end

