-- ==== Sys2Proof/Machine/Dispatch.lean ====
section
/-! DEFINITION. What each instruction and each other step of the K16 does: one arm per constructor. -/
namespace Sys2Proof.Machine

/-- The meaning of a step (R106 and the rule that each meaning names). -/
def exec (i : Instr) (s : State) : Host.Outcome State Fault Refusal :=
  match i with
  | .add d a b p => Sys2Proof.Machine.execAdd d a b p s
  | .sub d a b p => Sys2Proof.Machine.execSub d a b p s
  | .and d a b p => Sys2Proof.Machine.execAnd d a b p s
  | .or d a b p => Sys2Proof.Machine.execOr d a b p s
  | .xor d a b p => Sys2Proof.Machine.execXor d a b p s
  | .andn d a b p => Sys2Proof.Machine.execAndn d a b p s
  | .sll d a b p => Sys2Proof.Machine.execSll d a b p s
  | .srl d a b p => Sys2Proof.Machine.execSrl d a b p s
  | .sra d a b p => Sys2Proof.Machine.execSra d a b p s
  | .ror d a b p => Sys2Proof.Machine.execRor d a b p s
  | .min d a b p => Sys2Proof.Machine.execMin d a b p s
  | .max d a b p => Sys2Proof.Machine.execMax d a b p s
  | .minu d a b p => Sys2Proof.Machine.execMinu d a b p s
  | .maxu d a b p => Sys2Proof.Machine.execMaxu d a b p s
  | .slt d a b p => Sys2Proof.Machine.execSlt d a b p s
  | .sltu d a b p => Sys2Proof.Machine.execSltu d a b p s
  | .addw d a b p => Sys2Proof.Machine.execAddw d a b p s
  | .subw d a b p => Sys2Proof.Machine.execSubw d a b p s
  | .sllw d a b p => Sys2Proof.Machine.execSllw d a b p s
  | .srlw d a b p => Sys2Proof.Machine.execSrlw d a b p s
  | .sraw d a b p => Sys2Proof.Machine.execSraw d a b p s
  | .mul d a b p => Sys2Proof.Machine.execMul d a b p s
  | .mulh d a b p => Sys2Proof.Machine.execMulh d a b p s
  | .mulhu d a b p => Sys2Proof.Machine.execMulhu d a b p s
  | .mulhsu d a b p => Sys2Proof.Machine.execMulhsu d a b p s
  | .mulw d a b p => Sys2Proof.Machine.execMulw d a b p s
  | .addsat d a b p => Sys2Proof.Machine.execAddsat d a b p s
  | .subsat d a b p => Sys2Proof.Machine.execSubsat d a b p s
  | .addsatw d a b p => Sys2Proof.Machine.execAddsatw d a b p s
  | .subsatw d a b p => Sys2Proof.Machine.execSubsatw d a b p s
  | .addsatu d a b p => Sys2Proof.Machine.execAddsatu d a b p s
  | .subsatu d a b p => Sys2Proof.Machine.execSubsatu d a b p s
  | .mulsatw d a b p => Sys2Proof.Machine.execMulsatw d a b p s
  | .div d a b p => Sys2Proof.Machine.execDiv d a b p s
  | .divu d a b p => Sys2Proof.Machine.execDivu d a b p s
  | .rem d a b p => Sys2Proof.Machine.execRem d a b p s
  | .remu d a b p => Sys2Proof.Machine.execRemu d a b p s
  | .addi d a imm p => Sys2Proof.Machine.execAddi d a imm p s
  | .andi d a imm p => Sys2Proof.Machine.execAndi d a imm p s
  | .ori d a imm p => Sys2Proof.Machine.execOri d a imm p s
  | .xori d a imm p => Sys2Proof.Machine.execXori d a imm p s
  | .slli d a sh p => Sys2Proof.Machine.execSlli d a sh p s
  | .srli d a sh p => Sys2Proof.Machine.execSrli d a sh p s
  | .srai d a sh p => Sys2Proof.Machine.execSrai d a sh p s
  | .rori d a sh p => Sys2Proof.Machine.execRori d a sh p s
  | .slliw d a sh p => Sys2Proof.Machine.execSlliw d a sh p s
  | .srliw d a sh p => Sys2Proof.Machine.execSrliw d a sh p s
  | .sraiw d a sh p => Sys2Proof.Machine.execSraiw d a sh p s
  | .roriw d a sh p => Sys2Proof.Machine.execRoriw d a sh p s
  | .ldi d imm p => Sys2Proof.Machine.execLdi d imm p s
  | .ldis d a imm p => Sys2Proof.Machine.execLdis d a imm p s
  | .cmp pd cond cmb a b p => Sys2Proof.Machine.execCmp pd cond cmb a b p s
  | .cmpi pd cond a imm p => Sys2Proof.Machine.execCmpi pd cond a imm p s
  | .pand pd pa pb p => Sys2Proof.Machine.execPand pd pa pb p s
  | .por pd pa pb p => Sys2Proof.Machine.execPor pd pa pb p s
  | .pxor pd pa pb p => Sys2Proof.Machine.execPxor pd pa pb p s
  | .pandn pd pa pb p => Sys2Proof.Machine.execPandn pd pa pb p s
  | .kfromg kd a p => Sys2Proof.Machine.execKfromg kd a p s
  | .gfromk d ka p => Sys2Proof.Machine.execGfromk d ka p s
  | .pfromg pd a p => Sys2Proof.Machine.execPfromg pd a p s
  | .gfromp d pa p => Sys2Proof.Machine.execGfromp d pa p s
  | .sel d a b ps p => Sys2Proof.Machine.execSel d a b ps p s
  | .seln d a b ps p => Sys2Proof.Machine.execSeln d a b ps p s
  | .bext d a b p => Sys2Proof.Machine.execBext d a b p s
  | .bextu d a b p => Sys2Proof.Machine.execBextu d a b p s
  | .bins d a b p => Sys2Proof.Machine.execBins d a b p s
  | .clz d a p => Sys2Proof.Machine.execClz d a p s
  | .ctz d a p => Sys2Proof.Machine.execCtz d a p s
  | .popc d a p => Sys2Proof.Machine.execPopc d a p s
  | .bswap d a p => Sys2Proof.Machine.execBswap d a p s
  | .brev d a p => Sys2Proof.Machine.execBrev d a p s
  | .adds d a b sh p => Sys2Proof.Machine.execAdds d a b sh p s
  | .setdev d a b p => Sys2Proof.Machine.execSetdev d a b p s
  | .setcore d a b p => Sys2Proof.Machine.execSetcore d a b p s
  | .ldSplSm d a disp sz p => Sys2Proof.Machine.execLdSplSm d a disp sz p s
  | .stSplSm x a disp sz p => Sys2Proof.Machine.execStSplSm x a disp sz p s
  | .mfsr d spr x e p => Sys2Proof.Machine.execMfsr d spr x e p s
  | .mtsr v spr x e p => Sys2Proof.Machine.execMtsr v spr x e p s
  | .shwMs reg fld a imm p => Sys2Proof.Machine.execShwMs reg fld a imm p s
  | .shwXs reg fld a imm p => Sys2Proof.Machine.execShwXs reg fld a imm p s
  | .br p off => Sys2Proof.Machine.execBr p off s
  | .brn p off => Sys2Proof.Machine.execBrn p off s
  | .call p off => Sys2Proof.Machine.execCall p off s
  | .jr a p => Sys2Proof.Machine.execJr a p s
  | .callr d a p => Sys2Proof.Machine.execCallr d a p s
  | .ret p => Sys2Proof.Machine.execRet p s
  | .lclr n p => Sys2Proof.Machine.execLclr n p s
  | .loop lid a last => Sys2Proof.Machine.execLoop lid a last s
  | .yield p => Sys2Proof.Machine.execYield p s
  | .trap a p => Sys2Proof.Machine.execTrap a p s
  | .brk p => Sys2Proof.Machine.execBrk p s
  | .halt p => Sys2Proof.Machine.execHalt p s
  | .uret p => Sys2Proof.Machine.execUret p s
  | .sret p => Sys2Proof.Machine.execSret p s
  | .rbsave a p => Sys2Proof.Machine.execRbsave a p s
  | .rbload a p => Sys2Proof.Machine.execRbload a p s
  | .rbdrop p => Sys2Proof.Machine.execRbdrop p s
  | .tlbinv a p => Sys2Proof.Machine.execTlbinv a p s
  | .tlbinvctx a p => Sys2Proof.Machine.execTlbinvctx a p s
  | .tlbinvall p => Sys2Proof.Machine.execTlbinvall p s
  | .tlbsync p => Sys2Proof.Machine.execTlbsync p s
  | .cbldBf16 t a imm p => Sys2Proof.Machine.execCbldBf16 t a imm p s
  | .cbldE4m3 t a imm p => Sys2Proof.Machine.execCbldE4m3 t a imm p s
  | .scld a imm p => Sys2Proof.Machine.execScld a imm p s
  | .mmset a imm p => Sys2Proof.Machine.execMmset a imm p s
  | .mmcov a imm p => Sys2Proof.Machine.execMmcov a imm p s
  | .mmclamp a imm p => Sys2Proof.Machine.execMmclamp a imm p s
  | .vadd d a b t k rm => Sys2Proof.Machine.execVadd d a b t k rm s
  | .vsub d a b t k rm => Sys2Proof.Machine.execVsub d a b t k rm s
  | .vmin d a b t k rm => Sys2Proof.Machine.execVmin d a b t k rm s
  | .vmax d a b t k rm => Sys2Proof.Machine.execVmax d a b t k rm s
  | .vmul d a b t k rm => Sys2Proof.Machine.execVmul d a b t k rm s
  | .vdiv d a b t k rm => Sys2Proof.Machine.execVdiv d a b t k rm s
  | .vabs d a t k rm => Sys2Proof.Machine.execVabs d a t k rm s
  | .vneg d a t k rm => Sys2Proof.Machine.execVneg d a t k rm s
  | .vsqrt d a t k rm => Sys2Proof.Machine.execVsqrt d a t k rm s
  | .vrcp d a t k rm => Sys2Proof.Machine.execVrcp d a t k rm s
  | .vfrac d a t k rm => Sys2Proof.Machine.execVfrac d a t k rm s
  | .vclass d a t k rm => Sys2Proof.Machine.execVclass d a t k rm s
  | .vfma d a b c t k rm => Sys2Proof.Machine.execVfma d a b c t k rm s
  | .vfms d a b c t k rm => Sys2Proof.Machine.execVfms d a b c t k rm s
  | .vfnma d a b c t k rm => Sys2Proof.Machine.execVfnma d a b c t k rm s
  | .vfnms d a b c t k rm => Sys2Proof.Machine.execVfnms d a b c t k rm s
  | .viadd d a b t k => Sys2Proof.Machine.execViadd d a b t k s
  | .visub d a b t k => Sys2Proof.Machine.execVisub d a b t k s
  | .viadds d a b t k => Sys2Proof.Machine.execViadds d a b t k s
  | .visubs d a b t k => Sys2Proof.Machine.execVisubs d a b t k s
  | .vimul d a b t k sat => Sys2Proof.Machine.execVimul d a b t k sat s
  | .vimulh d a b t k => Sys2Proof.Machine.execVimulh d a b t k s
  | .vimin d a b t k => Sys2Proof.Machine.execVimin d a b t k s
  | .vimax d a b t k => Sys2Proof.Machine.execVimax d a b t k s
  | .vand d a b k => Sys2Proof.Machine.execVand d a b k s
  | .vor d a b k => Sys2Proof.Machine.execVor d a b k s
  | .vxor d a b k => Sys2Proof.Machine.execVxor d a b k s
  | .vandn d a b k => Sys2Proof.Machine.execVandn d a b k s
  | .vsll d a b t k => Sys2Proof.Machine.execVsll d a b t k s
  | .vsrl d a b t k => Sys2Proof.Machine.execVsrl d a b t k s
  | .vsra d a b t k => Sys2Proof.Machine.execVsra d a b t k s
  | .vrol d a b t k => Sys2Proof.Machine.execVrol d a b t k s
  | .vfcmpEq kd a b k => Sys2Proof.Machine.execVfcmpEq kd a b k s
  | .vfcmpLt kd a b k => Sys2Proof.Machine.execVfcmpLt kd a b k s
  | .vfcmpLe kd a b k => Sys2Proof.Machine.execVfcmpLe kd a b k s
  | .vfcmpUn kd a b k => Sys2Proof.Machine.execVfcmpUn kd a b k s
  | .vicmpEq kd a b t k => Sys2Proof.Machine.execVicmpEq kd a b t k s
  | .vicmpLt kd a b t k => Sys2Proof.Machine.execVicmpLt kd a b t k s
  | .vicmpLe kd a b t k => Sys2Proof.Machine.execVicmpLe kd a b t k s
  | .vicmpLtu kd a b t k => Sys2Proof.Machine.execVicmpLtu kd a b t k s
  | .vcvtFf d a src t k part rm sat => Sys2Proof.Machine.execVcvtFf d a src t k part rm sat s
  | .vcvtFi d a src t k part rm sat => Sys2Proof.Machine.execVcvtFi d a src t k part rm sat s
  | .vperm d a b t k => Sys2Proof.Machine.execVperm d a b t k s
  | .vziplo d a b t k => Sys2Proof.Machine.execVziplo d a b t k s
  | .vziphi d a b t k => Sys2Proof.Machine.execVziphi d a b t k s
  | .vunzip d a b t k => Sys2Proof.Machine.execVunzip d a b t k s
  | .vrot d a x t k => Sys2Proof.Machine.execVrot d a x t k s
  | .vshdn d a x t k => Sys2Proof.Machine.execVshdn d a x t k s
  | .vshup d a x t k => Sys2Proof.Machine.execVshup d a x t k s
  | .vrev d a t k => Sys2Proof.Machine.execVrev d a t k s
  | .vfredsum d a t k rm => Sys2Proof.Machine.execVfredsum d a t k rm s
  | .vfredmax d a t k rm => Sys2Proof.Machine.execVfredmax d a t k rm s
  | .viredsum d a t k sat => Sys2Proof.Machine.execViredsum d a t k sat s
  | .viredmax d a t k => Sys2Proof.Machine.execViredmax d a t k s
  | .vbcast d x t k => Sys2Proof.Machine.execVbcast d x t k s
  | .vins d a x t k => Sys2Proof.Machine.execVins d a x t k s
  | .vext d a x t => Sys2Proof.Machine.execVext d a x t s
  | .vbcastl d a x t k => Sys2Proof.Machine.execVbcastl d a x t k s
  | .vexp2 d a t k rm => Sys2Proof.Machine.execVexp2 d a t k rm s
  | .vlog2 d a t k rm => Sys2Proof.Machine.execVlog2 d a t k rm s
  | .vrsqrt d a t k rm => Sys2Proof.Machine.execVrsqrt d a t k rm s
  | .vtanh d a t k rm => Sys2Proof.Machine.execVtanh d a t k rm s
  | .vsinpi d a t k rm => Sys2Proof.Machine.execVsinpi d a t k rm s
  | .vcospi d a t k rm => Sys2Proof.Machine.execVcospi d a t k rm s
  | .verf d a t k rm => Sys2Proof.Machine.execVerf d a t k rm s
  | .vsigm d a t k rm => Sys2Proof.Machine.execVsigm d a t k rm s
  | .kand kd ka kb => Sys2Proof.Machine.execKand kd ka kb s
  | .kor kd ka kb => Sys2Proof.Machine.execKor kd ka kb s
  | .kxor kd ka kb => Sys2Proof.Machine.execKxor kd ka kb s
  | .kandn kd ka kb => Sys2Proof.Machine.execKandn kd ka kb s
  | .vsel d a b k => Sys2Proof.Machine.execVsel d a b k s
  | .vimad d a b c k sat => Sys2Proof.Machine.execVimad d a b c k sat s
  | .mmake d a b k => Sys2Proof.Machine.execMmake d a b k s
  | .mgetm d a k => Sys2Proof.Machine.execMgetm d a k s
  | .mgetv d a k => Sys2Proof.Machine.execMgetv d a k s
  | .mmov d a k => Sys2Proof.Machine.execMmov d a k s
  | .madd d a b c k => Sys2Proof.Machine.execMadd d a b c k s
  | .msub d a b c k => Sys2Proof.Machine.execMsub d a b c k s
  | .mmul d a b k => Sys2Proof.Machine.execMmul d a b k s
  | .mscale d a x k => Sys2Proof.Machine.execMscale d a x k s
  | .mrelu d a k => Sys2Proof.Machine.execMrelu d a k s
  | .mexp d a k => Sys2Proof.Machine.execMexp d a k s
  | .msigm d a k => Sys2Proof.Machine.execMsigm d a k s
  | .mgelu d a k => Sys2Proof.Machine.execMgelu d a k s
  | .mcmean d a k => Sys2Proof.Machine.execMcmean d a k s
  | .mchi d a x k => Sys2Proof.Machine.execMchi d a x k s
  | .mclo d a x k => Sys2Proof.Machine.execMclo d a x k s
  | .mcdraw d a k => Sys2Proof.Machine.execMcdraw d a k s
  | .mma m sw acc gx asgn bsgn isat z p => Sys2Proof.Machine.execMma m sw acc gx asgn bsgn isat z p s
  | .mmasa m sw acc gx asgn bsgn isat z p => Sys2Proof.Machine.execMmasa m sw acc gx asgn bsgn isat z p s
  | .mmasb m sw acc gx asgn bsgn isat z p => Sys2Proof.Machine.execMmasb m sw acc gx asgn bsgn isat z p s
  | .mmam m sw acc gx z p => Sys2Proof.Machine.execMmam m sw acc gx z p s
  | .azero acc cnt p => Sys2Proof.Machine.execAzero acc cnt p s
  | .aget acc v row col p => Sys2Proof.Machine.execAget acc v row col p s
  | .agetNw acc v row col p => Sys2Proof.Machine.execAgetNw acc v row col p s
  | .amget acc md row p => Sys2Proof.Machine.execAmget acc md row p s
  | .amgetNw acc md row p => Sys2Proof.Machine.execAmgetNw acc md row p s
  | .aput acc v row col p => Sys2Proof.Machine.execAput acc v row col p s
  | .drain m sw acc gx rm sat bias p => Sys2Proof.Machine.execDrain m sw acc gx rm sat bias p s
  | .drainq m sw acc gx bias zp p => Sys2Proof.Machine.execDrainq m sw acc gx bias zp p s
  | .arsum m sw acc gx sgn isat z p => Sys2Proof.Machine.execArsum m sw acc gx sgn isat z p s
  | .acsum m sw acc gx sgn isat z p => Sys2Proof.Machine.execAcsum m sw acc gx sgn isat z p s
  | .ldSpl d a wt cons p => Sys2Proof.Machine.execLdSpl d a wt cons p s
  | .stSpl x a p => Sys2Proof.Machine.execStSpl x a p s
  | .ldSpk d a n p => Sys2Proof.Machine.execLdSpk d a n p s
  | .stSpk x a tag p => Sys2Proof.Machine.execStSpk x a tag p s
  | .putSpp x a tier tag p => Sys2Proof.Machine.execPutSpp x a tier tag p s
  | .putfSpp x a fg tier tag p => Sys2Proof.Machine.execPutfSpp x a fg tier tag p s
  | .raddSpp x a tier p => Sys2Proof.Machine.execRaddSpp x a tier p s
  | .rcopySpp x a tier tag p => Sys2Proof.Machine.execRcopySpp x a tier tag p s
  | .ldHbm d a n p => Sys2Proof.Machine.execLdHbm d a n p s
  | .stHbm x a p => Sys2Proof.Machine.execStHbm x a p s
  | .amo x a n w scope aop p => Sys2Proof.Machine.execAmo x a n w scope aop p s
  | .putPhm x a tier p => Sys2Proof.Machine.execPutPhm x a tier p s
  | .ldHst d a n p => Sys2Proof.Machine.execLdHst d a n p s
  | .stHst x a p => Sys2Proof.Machine.execStHst x a p s
  | .parm a b p => Sys2Proof.Machine.execParm a b p s
  | .prel a p => Sys2Proof.Machine.execPrel a p s
  | .pfill a p => Sys2Proof.Machine.execPfill a p s
  | .pget d a p => Sys2Proof.Machine.execPget d a p s
  | .fwait a b p => Sys2Proof.Machine.execFwait a b p s
  | .fwaitne a b p => Sys2Proof.Machine.execFwaitne a b p s
  | .binit a b p => Sys2Proof.Machine.execBinit a b p s
  | .barrive a p => Sys2Proof.Machine.execBarrive a p s
  | .bwait a p => Sys2Proof.Machine.execBwait a p s
  | .binval a p => Sys2Proof.Machine.execBinval a p s
  | .qput a b n esz tier p => Sys2Proof.Machine.execQput a b n esz tier p s
  | .qpop d n nw p => Sys2Proof.Machine.execQpop d n nw p s
  | .qdone n p => Sys2Proof.Machine.execQdone n p s
  | .fence scope grp p => Sys2Proof.Machine.execFence scope grp p s
  | .copy x sw a d n tier tag follow p => Sys2Proof.Machine.execCopy x sw a d n tier tag follow p s
  | .cchain d a n p => Sys2Proof.Machine.execCchain d a n p s
  | .cwait n b p => Sys2Proof.Machine.execCwait n b p s
  | .macroRun a idx p => Sys2Proof.Machine.execMacroRun a idx p s
  | .mcld a b p => Sys2Proof.Machine.execMcld a b p s
  | .ntile p => Sys2Proof.Machine.execNtile p s
  | .rngseed a b flush p => Sys2Proof.Machine.execRngseed a b flush p s
  | .rngpop d p => Sys2Proof.Machine.execRngpop d p s
  | .nop => Sys2Proof.Machine.execNop s
  | .hdr group e3 e2 e1 => Sys2Proof.Machine.execHdr group e3 e2 e1 s
  | .mwait => Sys2Proof.Machine.execMwait s
  | .coll a => Sys2Proof.Machine.execColl a s
  | .rsend a => Sys2Proof.Machine.execRsend a s
  | .macroStep => Sys2Proof.Machine.execMacroStep s
  | .resultLanding => Sys2Proof.Machine.execResultLanding s
  | .loadDataArrival n => Sys2Proof.Machine.execLoadDataArrival n s
  | .loadLanding => Sys2Proof.Machine.execLoadLanding s
  | .fetchFill => Sys2Proof.Machine.execFetchFill s
  | .pageWalkComplete n => Sys2Proof.Machine.execPageWalkComplete n s
  | .trapEntry ev => Sys2Proof.Machine.execTrapEntry ev s
  | .rngAppend => Sys2Proof.Machine.execRngAppend s
  | .coreReset => Sys2Proof.Machine.execCoreReset s
  | .rsplitWrite v => Sys2Proof.Machine.execRsplitWrite v s
  | .lactWrite v => Sys2Proof.Machine.execLactWrite v s
  | .qcfgWrite n v => Sys2Proof.Machine.execQcfgWrite n v s
  | .qptrWrite n v => Sys2Proof.Machine.execQptrWrite n v s
  | .pctlReady => Sys2Proof.Machine.execPctlReady s
  | .accxferWrite v => Sys2Proof.Machine.execAccxferWrite v s
  | .elogposWrite v => Sys2Proof.Machine.execElogposWrite v s
  | .ctrloRead c => Sys2Proof.Machine.execCtrloRead c s
  | .debugStop => Sys2Proof.Machine.execDebugStop s
  | .matrixEntryStart => Sys2Proof.Machine.execMatrixEntryStart s
  | .matrixEntryComplete => Sys2Proof.Machine.execMatrixEntryComplete s
  | .copyRecord cl ch => Sys2Proof.Machine.execCopyRecord cl ch s
  | .copyTransferComplete cl ch => Sys2Proof.Machine.execCopyTransferComplete cl ch s
  | .chainRecordRead cl ch => Sys2Proof.Machine.execChainRecordRead cl ch s
  | .writeArrival w => Sys2Proof.Machine.execWriteArrival w s
  | .taggedWrite n => Sys2Proof.Machine.execTaggedWrite n s
  | .release n => Sys2Proof.Machine.execRelease n s
  | .raddPerform n => Sys2Proof.Machine.execRaddPerform n s
  | .flagIncrement n => Sys2Proof.Machine.execFlagIncrement n s
  | .qputArrival n => Sys2Proof.Machine.execQputArrival n s
  | .spkStorePerform n => Sys2Proof.Machine.execSpkStorePerform n s
  | .phmPutArrival n => Sys2Proof.Machine.execPhmPutArrival n s
  | .hbmStorePerform n => Sys2Proof.Machine.execHbmStorePerform n s
  | .hstStoreEmit n => Sys2Proof.Machine.execHstStoreEmit n s
  | .atomicPerform n => Sys2Proof.Machine.execAtomicPerform n s
  | .atomicAnswer n => Sys2Proof.Machine.execAtomicAnswer n s
  | .writeAnswer n outside => Sys2Proof.Machine.execWriteAnswer n outside s
  | .eccWriteback n => Sys2Proof.Machine.execEccWriteback n s
  | .collBucketComplete n => Sys2Proof.Machine.execCollBucketComplete n s
  | .routeSendAnswer n outside => Sys2Proof.Machine.execRouteSendAnswer n outside s
  | .routingEntryArrival n => Sys2Proof.Machine.execRoutingEntryArrival n s
  | .sealArrival n => Sys2Proof.Machine.execSealArrival n s
  | .routeBatchComplete n => Sys2Proof.Machine.execRouteBatchComplete n s
  | .haltComplete => Sys2Proof.Machine.execHaltComplete s
  | .instanceFault => Sys2Proof.Machine.execInstanceFault s
  | .graphAdmit part => Sys2Proof.Machine.execGraphAdmit part s
  | .dispatchDecision part => Sys2Proof.Machine.execDispatchDecision part s
  | .gangRelease job => Sys2Proof.Machine.execGangRelease job s
  | .quantumBoundary => Sys2Proof.Machine.execQuantumBoundary s
  | .forcedSave => Sys2Proof.Machine.execForcedSave s
  | .gemmaWrite ctx => Sys2Proof.Machine.execGemmaWrite ctx s
  | .intervalBoundary part => Sys2Proof.Machine.execIntervalBoundary part s
  | .headSample cl v => Sys2Proof.Machine.execHeadSample cl v s
  | .asqbaseWrite fn v => Sys2Proof.Machine.execAsqbaseWrite fn v s
  | .acqbaseWrite fn v => Sys2Proof.Machine.execAcqbaseWrite fn v s
  | .aqdepthWrite fn v => Sys2Proof.Machine.execAqdepthWrite fn v s
  | .sqtailWrite fn q v => Sys2Proof.Machine.execSqtailWrite fn q v s
  | .cqheadWrite fn q v => Sys2Proof.Machine.execCqheadWrite fn q v s
  | .submissionFetch fn q => Sys2Proof.Machine.execSubmissionFetch fn q s
  | .completionPost fn q => Sys2Proof.Machine.execCompletionPost fn q s
  | .queueSlotMap part => Sys2Proof.Machine.execQueueSlotMap part s
  | .vfCreate c => Sys2Proof.Machine.execVfCreate c s
  | .vfBind c => Sys2Proof.Machine.execVfBind c s
  | .vfUnbind c => Sys2Proof.Machine.execVfUnbind c s
  | .qpCreate c => Sys2Proof.Machine.execQpCreate c s
  | .qpDelete c => Sys2Proof.Machine.execQpDelete c s
  | .imageLoad c => Sys2Proof.Machine.execImageLoad c s
  | .mapCmd c => Sys2Proof.Machine.execMapCmd c s
  | .unmap c => Sys2Proof.Machine.execUnmap c s
  | .submit c => Sys2Proof.Machine.execSubmit c s
  | .pause c => Sys2Proof.Machine.execPause c s
  | .resume c => Sys2Proof.Machine.execResume c s
  | .evict c => Sys2Proof.Machine.execEvict c s
  | .relocate c => Sys2Proof.Machine.execRelocate c s
  | .ctrReq c => Sys2Proof.Machine.execCtrReq c s
  | .ctrRelease c => Sys2Proof.Machine.execCtrRelease c s
  | .ctrEvents c => Sys2Proof.Machine.execCtrEvents c s
  | .layout c => Sys2Proof.Machine.execLayout c s
  | .partReset c => Sys2Proof.Machine.execPartReset c s
  | .schedSet c => Sys2Proof.Machine.execSchedSet c s
  | .bucketSet c => Sys2Proof.Machine.execBucketSet c s
  | .regionPublish c => Sys2Proof.Machine.execRegionPublish c s
  | .regionWithdraw c => Sys2Proof.Machine.execRegionWithdraw c s
  | .linkRotate c => Sys2Proof.Machine.execLinkRotate c s
  | .journalRead c => Sys2Proof.Machine.execJournalRead c s
  | .regionSeal n => Sys2Proof.Machine.execRegionSeal n s
  | .powerGateOn cl => Sys2Proof.Machine.execPowerGateOn cl s
  | .scrubReport n => Sys2Proof.Machine.execScrubReport n s
  | .layoutCommit => Sys2Proof.Machine.execLayoutCommit s
  | .mgmtWatchdogReset => Sys2Proof.Machine.execMgmtWatchdogReset s
  | .coldReset => Sys2Proof.Machine.execColdReset s
  | .tokenRefill => Sys2Proof.Machine.execTokenRefill s
  | .linkTraining port => Sys2Proof.Machine.execLinkTraining port s
  | .rotateConfirm port outward => Sys2Proof.Machine.execRotateConfirm port outward s
  | .retire port outward => Sys2Proof.Machine.execRetire port outward s
  | .keyCounterExpiry port outward => Sys2Proof.Machine.execKeyCounterExpiry port outward s
  | .flitReplay port outward => Sys2Proof.Machine.execFlitReplay port outward s
  | .linkRetrain port => Sys2Proof.Machine.execLinkRetrain port s
  | .linkDown port => Sys2Proof.Machine.execLinkDown port s
  | .boundaryLost bnd => Sys2Proof.Machine.execBoundaryLost bnd s
  | .patrol addr => Sys2Proof.Machine.execPatrol addr s
  | .spdmRequest fn block signed => Sys2Proof.Machine.execSpdmRequest fn block signed s
  | .lockInterfaceRequest fn => Sys2Proof.Machine.execLockInterfaceRequest fn s
  | .startInterfaceRequest fn => Sys2Proof.Machine.execStartInterfaceRequest fn s
  | .tdiError fn => Sys2Proof.Machine.execTdiError fn s
  | .tlbRemovalTakesEffect cl => Sys2Proof.Machine.execTlbRemovalTakesEffect cl s
  | .flitAcknowledgement port outward => Sys2Proof.Machine.execFlitAcknowledgement port outward s
  | .journalFlashMirror => Sys2Proof.Machine.execJournalFlashMirror s

end Sys2Proof.Machine
end

