-- ==== Sys2Proof/Machine/Upset.lean ====
section
/-! DEFINITION. A word of an array that is upset (R423..R429, R433, R434; log 20): where the words of the array are state, the word
can be corrected or fails from now on; elsewhere the upset stands for the access that finds it. -/
namespace Sys2Proof.Machine

/-! ### Corrections (R423, R424) -/

/-- A correction counted with a slot, and in its cluster's bank. -/
def Act.corrected {s0 : State} (slot arr : Nat) : Act s0 Unit := do
  Act.thread (slot / 2) (slot % 2 == 1) fun t => { t with sp := t.sp.countEcc arr 1 }
  Act.dev fun d => d.countEv 18 (clusterOf (slot / 2)) 1

/-- A correction counted with the device (R433). -/
def Act.correctedHere {s0 : State} (arr : Nat) : Act s0 Unit := Act.dev fun d => { d with mgmt := d.mgmt.correctedIn arr 1 }

/-- The number of a cluster's S-core slot, which a shared unit's corrections are counted with (R423). -/
def sCoreSlot (cl : Nat) : Nat := slotNo (5 * cl + 4) false

/-! ### Words that fail or can be corrected -/

/-- A word that can be corrected when it is read, or that fails. -/
def Dev.upsetWord (d : Dev) (arr w : Nat) (fails : Bool) : Dev :=
  if fails then { d with bad := (arr, w) :: d.bad.filter (· != (arr, w)), weak := d.weak.filter (· != (arr, w)) }
  else if d.bad.contains (arr, w) then d
  else { d with weak := (arr, w) :: d.weak.filter (· != (arr, w)) }

/-- A failing word of an array whose single-bit errors are counted as they are found. -/
def Act.upsetBad {s0 : State} (arr w slot : Nat) (fails : Bool) : Act s0 Unit :=
  if fails then Act.dev fun d => d.upsetWord arr w true else Act.corrected slot arr

/-- A tag word or a region's pointers (array 3). -/
def Act.upsetTag {s0 : State} (k : Nat) (fails : Bool) : Act s0 Unit := do
  let s ← Act.cur
  if fails then Act.dev fun d => { d with badTags := k :: d.badTags.filter (· != k) }
  else if 2 ^ 20 ≤ k then Act.corrected ((k - 2 ^ 20) / 16) 3
  else
    let o := s.splOwner (k / 1024 * 1048576 + k % 1024 * 1024)
    Act.corrected (slotNo o.1 o.2) 3

/-! ### Landing data and replayed entries (array 5) -/

/-- An entry in flight whose data fails (R427): cause 0x40 at its landing, with the address that a load loads from, else the array
form with the entry's place. A load whose data is still outstanding has none to fail. -/
def Infl.upset (e : Infl) (n : Nat) : Infl :=
  let info (a : Option U64) : U64 := a.getD (arrayWord 5 n)
  match e.load with
  | some l => if l.phase = .waiting then e else { e with load := some { l with phase := .failed 0x40 (info l.addr) } }
  | none => { e with load := some ⟨0, 0, 0, .failed 0x40 (info none), none⟩ }

/-- An entry of the landing store and replay buffer of a slot: the landing store holds loads alone, the frames every entry. -/
def Thread.upsetLanding (t : Thread) (n : Nat) : Thread :=
  let k := t.infl.length
  let f0 := t.f0.elim 0 fun f => f.infl.length
  if n < k then { t with infl := t.infl.modify n fun e => if e.load.isSome then e.upset n else e }
  else if n < k + f0 then { t with f0 := t.f0.map fun f => { f with infl := f.infl.modify (n - k) (·.upset n) } }
  else { t with f1 := t.f1.map fun f => { f with infl := f.infl.modify (n - k - f0) (·.upset n) } }

/-! ### Caches and TLBs (arrays 6, 8) -/

/-- A core's instruction cache without a bundle. -/
def Core.dropLine (c : Core) (pa : Nat) : Core := { c with icache := c.icache.filter fun x => x.1 != pa }

/-- The entries of TLB k for a page gone: a slot's core for a number below 320, the cluster's own beyond (R427). -/
def Dev.dropPage (d : Dev) (k page : Nat) : Dev :=
  let drop (l : List (Nat × List Pte)) (n : Nat) : List (Nat × List Pte) :=
    l.map fun x => if x.1 = n then (n, x.2.filter fun p => !(p.va ≤ 65536 * page && 65536 * page < p.va + p.size)) else x
  if k < 320 then { d with tlb := drop d.tlb (k / 2) } else { d with ctlb := drop d.ctlb (k - 320) }

/-! ### The refusal list (array 10) -/

/-- A refusal-list entry that fails (R427): it is freed, and its parked write is answered 0x40. A correction is counted with the
slot that reads the list (R434). -/
def Act.upsetRefusal {s0 : State} (n : Nat) (slot1 fails : Bool) : Act s0 Unit := do
  let s ← Act.cur
  match s.dev.refs.find? fun e => e.msg == n with
  | none => Act.done
  | some e =>
    if !fails then Act.corrected (slotNo e.phys slot1) 10
    else do
      Act.dev fun d => { d with refs := d.refs.filter fun x => x.msg != n }
      Act.answer n 0x40 0
      Act.logBad e.phys 10 (arrayWord 10 0) ((s.dev.msg n).elim 0 (·.job))

/-! ### Engine buffers (array 11) -/

/-- A token of a batch that the engine's buffer has lost (R265, R427): one still to send, else the first under way. -/
def Batch.lost (b : Batch) : Batch :=
  match b.todo, b.out with
  | _ :: ts, _ => { b with todo := ts, err := b.err + 1 }
  | [], o :: os => if b.sealing then b else { b with out := o :: os |>.drop 1, err := b.err + 1 }
  | [], [] => b

/-- The channel whose head is a transfer that is executing rows. -/
def Dev.channelOf (d : Dev) (serial : Nat) : Option (Nat × Nat × Transfer) :=
  d.chans.findSome? fun c => (c.q.head?).bind fun t =>
    if t.serial = serial ∧ t.rows ∧ t.row < rowCount t.shape then some (c.cl, c.ch, t) else none

/-- The buffer of a piece of engine work that fails (R249, R261, R265, R427): a copy's row is recorded and passed over, a collective
ends with STATUS 5, and a token counts in ERR; with the log record (R426). -/
def Act.upsetEngine {s0 : State} (n : Nat) (fails : Bool) : Act s0 Unit := do
  let s ← Act.cur
  match s.dev.channelOf n with
  | some (cl, ch, t) =>
    if !fails then Act.corrected (sCoreSlot cl) 11
    else do
      let addr := t.da + BitVec.ofNat 64 (rowDst t.shape t.row)
      Act.report t.phys t.slot1 t.who.ctx 0x40 9 addr
      Act.logBad t.phys 11 addr t.who.job
      Act.nextRow cl ch
  | none =>
    match s.dev.colls.find? fun c => c.serial == n with
    | some c =>
      if !fails then Act.correctedHere 11
      else do
        Act.dev fun d => d.updColl n fun c => if c.status = 0 ∧ c.fail = 0 then { c with fail := 5 } else c
        Act.logBad c.phys 11 (arrayWord 11 0) c.who.job
    | none =>
      match s.dev.batch n with
      | some b =>
        if !fails then Act.corrected (sCoreSlot (clusterOf b.phys)) 11
        else do
          Act.dev fun d => d.updBatch n Batch.lost
          Act.logBad b.phys 11 (arrayWord 11 0) b.who.job
      | none => Act.done

/-! ### Arrays of the device (13..15) -/

/-- A ready-pool entry that fails (R318, R427): its graph becomes FAULTED with cause 0x40. -/
def Dev.graphFails (d : Dev) (serial : Nat) : Dev :=
  match d.parts.find? fun p => (p.graph serial).isSome with
  | some p => (d.updGraph p.num serial fun g => g.stop 2 0x40).graphCheck p.num serial
  | none => d

/-! ### An upset -/

/-- An upset of word `loc` of an array, which fails or can be corrected (R423..R429). The places are those of `Dev.bad` and
`badTags`; slots are numbered by `slotNo`. For the control store and the tables the number of the slot whose access finds it stands
in place of the core, and for the refusal list the slot follows the number of the parked write (R434). -/
def State.upset (s : State) (arr loc : Nat) (fails : Bool) : State :=
  runAct (fun _ =>
    match arr with
    | 0 | 1 => Act.upsetBad arr loc (loc / 4096) fails
    | 3 => Act.upsetTag loc fails
    | 5 => if fails then Act.thread (loc / 2048 / 2) (loc / 2048 % 2 == 1) fun t => t.upsetLanding (loc % 2048)
      else Act.corrected (loc / 2048) 5
    | 6 => do
      if fails then Act.coreOf (loc / 2 ^ 48 / 2) fun c => c.dropLine (loc % 2 ^ 48)
      Act.corrected (loc / 2 ^ 48) 6
    | 7 => Act.upsetBad 7 (loc / 2048 * 1024 + loc % 1024) (loc / 1024) fails
    | 8 => do
      if fails then Act.dev fun d => d.dropPage (loc / 2 ^ 36) (loc % 2 ^ 36)
      Act.corrected (if loc / 2 ^ 36 < 320 then loc / 2 ^ 36 else sCoreSlot (loc / 2 ^ 36 - 320)) 8
    | 9 => Act.upsetBad 9 (loc / 256 * 128 + loc % 128) (loc / 128) fails
    | 10 => Act.upsetRefusal (loc / 2) (loc % 2 == 1) fails
    | 11 => Act.upsetEngine loc fails
    | 13 =>
      if fails then do
        Act.dev fun d => d.graphFails loc
        Act.logDevice 4 0x40 13 0 0
      else Act.correctedHere 13
    | 14 =>
      if fails then do
        Act.upd State.deviceFails
        Act.logDevice 4 0x40 14 0 0
      else Act.correctedHere 14
    | 15 => if fails then Act.logDevice 4 0x40 15 (256 + loc % 24) 0 else Act.correctedHere 15
    | _ => Act.dev fun d => d.upsetWord arr loc fails) s

end Sys2Proof.Machine
end

