-- ==== Sys2Proof/Machine/Outside.lean ====
section
/-! DEFINITION. What the outside world does to the device (log 1): the steps of the table that only it takes, the accesses of the host
to host memory and to BAR0 (R276, R387, R446), upsets of the arrays, and the rest of Input. -/
namespace Sys2Proof.Machine

/-! ### Steps from outside -/

/-- The steps that the outside world takes: writes and answers of other devices, register writes and messages of the host,
link events, resets, and losses. -/
def external : Instr → Bool
  | .writeArrival (.outside _) => true
  | .writeAnswer _ (some _) | .routeSendAnswer _ (some _) => true
  | .gangRelease _ | .headSample _ _ => true
  | .asqbaseWrite _ _ | .acqbaseWrite _ _ | .aqdepthWrite _ _ | .sqtailWrite _ _ _ | .cqheadWrite _ _ _ => true
  | .mgmtWatchdogReset | .coldReset | .boundaryLost _ | .patrol _ => true
  | .linkTraining _ | .rotateConfirm _ _ | .retire _ _ | .flitReplay _ _ | .linkRetrain _ | .flitAcknowledgement _ _ => true
  | .spdmRequest _ _ _ | .lockInterfaceRequest _ | .startInterfaceRequest _ | .tdiError _ => true
  | _ => false

/-- The fabric port that a step from outside comes through, when it comes as a flit: a write of another device, or an answer
of one. -/
def State.portIn (s : State) (i : Instr) : Option Nat :=
  let ofMsg (n : Nat) : Option Nat := (s.dev.msg n).bind s.dev.portOf
  match i with
  | .writeArrival (.outside w) => ((s.dev.job w.job).bind fun j => j.devs[w.srcDev]?).map (·.port)
  | .writeAnswer n _ | .routeSendAnswer n _ => ofMsg n
  | _ => none

/-- A step from outside: what comes as a flit comes over a link that is up alone (R435), under the receiver's current key (R420),
and is counted (R445). -/
def State.fromOutside (s : State) (i : Instr) : Out :=
  if !external i then .next s
  else
    match s.portIn i with
    | none => Machine.exec i s
    | some p =>
      if s.dev.carries p then Machine.exec i (s.flitArrives p ((s.dev.port p).elim 0 fun x => x.inw.kid)) else .next s

/-! ### BAR0 (R387, R446; log 41) -/

/-- A register write of the host: one of another size than the register's, or to an offset that R387 does not list as written, is
ignored. -/
def State.barWrite (s : State) (fn off n : Nat) (v : U64) : Out :=
  if n = 8 then
    if off = 0 then execAsqbaseWrite fn v s
    else if off = 8 then execAcqbaseWrite fn v s
    else .next s
  else if n = 4 then
    let x : U32 := v.setWidth 32
    if off = 0x10 then execAqdepthWrite fn x s
    else if 0x1000 ≤ off ∧ off < 0x1040 then
      let q := (off - 0x1000) / 8
      if off % 8 = 0 then execSqtailWrite fn q x s else if off % 8 = 4 then execCqheadWrite fn q x s else .next s
    else .next s
  else .next s

/-- QSTAT (R387): bit n says that queue pair n is in ERROR. -/
def Dev.qstat (d : Dev) (fn : Nat) : Nat :=
  ((List.range 8).filter fun q => (d.pair fn q).any (·.error)).foldl (fun a q => a + 2 ^ q) 0

/-- What a register read of the host gives: 0 for an access of another size than the register's, or to an offset that is not listed
as read. Physical function 0 reads the counters of its banks (R446). -/
def Dev.barRead (d : Dev) (fn off n : Nat) : Nat :=
  if !d.isFn fn then 0
  else if n = 8 then
    if off = 0 then (d.regsOf fn).asq.toNat
    else if off = 8 then (d.regsOf fn).acq.toNat
    else if fn = 0 ∧ 0x2000 ≤ off ∧ off < 0x2000 + 8 * 296 ∧ off % 8 = 0 then (d.counter 0 ((off - 0x2000) / 8)).toNat
    else 0
  else if n = 4 then
    if off = 0x10 then (d.regsOf fn).depth.toNat else if off = 0x18 then d.qstat fn else 0
  else 0

/-- A read of the host recorded with its bytes. -/
def State.hostSaw (s : State) (who : Option Nat) (a : Nat) (bs : List Byte) : State :=
  { s with dev := { s.dev with host := { s.dev.host with reads := s.dev.host.reads ++ [(who, a, bs)] } } }

/-! ### An input -/

/-- What the outside world does, done. -/
def State.input (s : State) (x : Input) : Out :=
  match x with
  | .event i => s.fromOutside i
  | .hostWrite a bs => .next (runAct (fun _ => Act.write .host a bs) s)
  | .hostRead a n => .next (s.hostSaw none a (s.mems.read .host a n))
  | .barRead fn off n => .next (s.hostSaw (some fn) off (leBytes n (s.dev.barRead fn off n)))
  | .barWrite fn off n v => s.barWrite fn off n v
  | .upset arr loc fails => .next (s.upset arr loc fails)
  | .report fn => .next (s.interfaceReport fn)
  | .attest port digest => execAttest port digest s
  | .flit port kid => .next (s.flitArrives port kid)
  | .flash b => .next { s with dev := { s.dev with mgmt := { s.dev.mgmt with blob := b } } }

end Sys2Proof.Machine
end

