-- ==== Sys2Proof/Machine/Turn.lean ====
section
/-! DEFINITION. The turn of a core: one cycle of it (R20..R23, R38, R52, R54, R58, R59, R103, R106, R137, R143, R269, R332,
R443). -/
namespace Sys2Proof.Machine

/-! ### The slots of a bundle (R18, R19, R103) -/

/-- The word of slot i of a bundle (R18). -/
def bundleWord (b : U128) (i : Nat) : U32 := b.extractLsb' (32 * i) 32

/-- Whether a bundle has a header (R19). -/
def bundleHdr (b : U128) : Bool := (bundleWord b 0).extractLsb' 28 4 == 15

/-- The extension byte that a header lends to slot i (R103). -/
def bundleExt (b : U128) (i : Nat) : Byte := if bundleHdr b && i != 0 then (bundleWord b 0).extractLsb' (8 * (i - 1)) 8 else 0

/-- Slot i of a bundle as the decoder takes it. -/
def slotEnc (b : U128) (i : Nat) : Enc := ⟨BitVec.ofNat 2 i, bundleHdr b, bundleExt b i, bundleWord b i⟩

/-- Whether a slot-0 word acts after the other slots of its bundle (R135..R150): control transfer, loops, the system
instructions but for `rbsave` and `rbload`, and translation maintenance. -/
def actsLast (w : U32) : Bool :=
  let op := (fld w 26 6).toNat
  let fn := (fld w 3 5).toNat
  0x18 ≤ op && op ≤ 0x1D && !(op == 0x1C && (fn == 6 || fn == 7))

/-- The slots in the order in which they act: slot order (R280), control last. -/
def slotOrder (b : U128) : List Nat :=
  if bundleHdr b then [1, 2, 3] else if actsLast (bundleWord b 0) then [1, 2, 3, 0] else [0, 1, 2, 3]

/-! ### Executing the slots (R20, R106) -/

/-- A decoded word executed. -/
def Decoded.exec (d : Decoded) (s : State) : Out :=
  match d with
  | .hdr g e3 e2 e1 => execHdr g e3 e2 e1 s
  | .coll a => execColl a s
  | .rsend a => execRsend a s
  | .rngpop d p => execRngpop d p s
  | .op i => Machine.exec i s

/-- The slot of the core about to execute the word of a bundle slot. -/
def Thread.atSlot (t : Thread) (e : Enc) : Thread :=
  { t with iss := { t.iss with slot := e.slot, word := e.word, res := .issued } }

/-- One slot word decoded and executed (R106); one with a failing source register traps (R427). -/
def State.runSlot (s : State) (e : Enc) : Out :=
  let t := { s with me := s.me.atSlot e }
  match decode (!isS s.core.phys) e with
  | .error r => .next (t.trapWord r.cause)
  | .ok d =>
    match Decoded.exec d t with
    | .next u => .next (t.withSources u d)
    | o => o

/-- Whether what was executed trapped. -/
def Issue.isTrap : Issue → Bool
  | .trapped _ _ => true
  | _ => false

/-- Slots executed one after another: a slot that does not issue leaves the others' state alone and is kept with the state
that its execution gave. -/
def runSlots : List Enc → State → List (Enc × State) → Host.Outcome (State × List (Enc × State)) Fault Refusal
  | [], s, bad => .next (s, bad)
  | e :: es, s, bad =>
    match s.runSlot e with
    | .next t => if t.me.iss.res = .issued then runSlots es t bad else runSlots es s (bad ++ [(e, t)])
    | .fault f => .fault f
    | .refused r => .refused r

/-- The lowest-numbered slot that trapped (R20). -/
def lowestTrap (bad : List (Enc × State)) : Option (Enc × State) :=
  [0, 1, 2, 3].findSome? fun i => bad.find? fun x => x.1.slot.toNat == i && x.2.me.iss.res.isTrap

/-- A bundle in which a slot traps (R20): no slot has any effect but that trap. -/
def State.trapBundle (s : State) (e : Enc) (x : State) : Out :=
  match s.runSlot e with
  | .next t =>
    if t.me.iss.res.isTrap then .next t
    else
      match x.me.iss.res with
      | .trapped code info => .next ({ s with me := s.me.atSlot e }.trap code info)
      | _ => .next t
  | o => o

/-- A bundle that is held (R22): nothing of it takes effect but the walks it asks for, what the TLBs took, and the watch that
its waiting instruction sets. -/
def State.holdBundle (s : State) (x : State) : State :=
  { s with
    me := { s.me with watch := x.me.watch, iss := { s.me.iss with res := .held } }
    dev := { s.dev with walks := x.dev.walks, tlb := x.dev.tlb, ctlb := x.dev.ctlb, walked := x.dev.walked } }

/-- What becomes of a bundle once its slots have executed: `s` is the state before it, `h` that after its header, `t` that
after all its slots. -/
def State.resolve (s h t : State) (bad : List (Enc × State)) : Out :=
  match lowestTrap bad with
  | some (e, x) => h.trapBundle e x
  | none =>
    match (bad.find? fun x => x.1.slot == 3).or bad.head? with
    | some x => .next (s.holdBundle x.2)
    | none => .next t

/-- A bundle executed (R20, R103, R106): the header first, then the other slots. -/
def State.runBundle (s : State) (b : U128) : Out :=
  match if bundleHdr b then s.runSlot (slotEnc b 0) else .next s with
  | .next h =>
    if h.me.iss.res ≠ .issued then .next h
    else
      match runSlots ((slotOrder b).map (slotEnc b)) h [] with
      | .next r => s.resolve h r.1 r.2
      | .fault f => .fault f
      | .refused r => .refused r
  | o => o

/-- Whether a slot-3 word is a load or atomic for which no landing tag or store is free (R51). -/
def State.lacksTags (s : State) (e : Enc) : Bool :=
  match decode (!isS s.core.phys) e with
  | .ok (.op (.ldSpk d _ _ p)) => s.pred p && !s.tagsFree (ldUnits d)
  | .ok (.op (.ldHbm d _ _ p)) => s.pred p && !s.tagsFree (ldUnits d)
  | .ok (.op (.ldHst d _ _ p)) => s.pred p && !s.tagsFree (ldUnits d)
  | .ok (.op (.amo _ _ n _ _ _ p)) => s.pred p && n != 0 && !s.tagsFree 1
  | _ => false

/-! ### Counters (R443) -/

/-- The causes of frozen cycles, in the order of R443. -/
def frLATE : Nat := 0
def frTAGS : Nat := 1
def frPORTS : Nat := 2
def frFETCH : Nat := 3
def frWAIT : Nat := 4
def frSTOP : Nat := 5

/-- The set of counters that a slot's cycle is charged to (R55, R269, R443). -/
def Thread.lset (t : Thread) : Nat := if t.inMacro then t.mac.lset else (loopOrder t.loop.lact).headD 8

/-- A word of %lprof counted up. -/
def Thread.count (t : Thread) (n : Nat) : Thread :=
  { t with sp := { t.sp with lprof := setElem t.sp.lprof n (t.sp.lprof.toList.getD n 0 + 1) } }

/-- The matrix engine's share of a cycle: word 4 while an entry of the slot's queue executes, word 9 otherwise. -/
def Thread.countArray (t : Thread) (set : Nat) : Thread :=
  t.count (16 * set + if (t.mq.head?).any (·.started) then 4 else 9)

/-- A cycle frozen under a cause, or idle (R443). -/
def Thread.charge (t : Thread) (cause : Nat) : Thread :=
  if t.bound.isNone then t.count 144 else (t.count (16 * t.lset + 10 + cause)).countArray t.lset

/-- An issued bundle charged: a slot that holds no word, and a header, counts as a no-operation. -/
def Thread.chargeBundle (t : Thread) (set : Nat) (b : U128) : Thread :=
  ([0, 1, 2, 3].foldl (fun (t : Thread) i =>
    let filled := bundleWord b i != 0 && !(i == 0 && bundleHdr b)
    t.count (16 * set + (if filled then i else 5 + i))) t).countArray set

/-- A cycle of the slot, and of its sibling with it, frozen under a cause or idle: charged, and counted in the cluster's bank
(R443, R445). -/
def State.account (s : State) (cause : Nat) (both : Bool) : State :=
  let ts := s.me :: if both then [s.sib] else []
  let idle := ts.countP fun t => t.bound.isNone
  let t := { s with me := s.me.charge cause, sib := if both then s.sib.charge cause else s.sib }
  (t.countEv (2 + cause) (ts.length - idle)).countEv 8 idle

/-- The events of an issued bundle counted in the cluster's bank (R445): the bundle, its vector slot when filled, the loads
from the scratchpad among its words, and the landing tags that it took. -/
def State.countIssue (s : State) (vec : Bool) (es : List Enc) : State :=
  let spl := es.countP fun e => match decode (!isS s.core.phys) e with
    | .ok (.op (.ldSpl _ _ _ _ p)) => s.pred p
    | .ok (.op (.ldSplSm _ _ _ _ p)) => s.pred p
    | _ => false
  let tags := s.me.iss.fresh.countP fun e => e.load.any fun l => l.units != 0
  (((s.countEv 1 1).countEv 11 (if vec then 1 else 0)).countEv 12 spl).countEv 13 tags

/-! ### The end of a cycle (R21, R58, R72, R362) -/

/-- One cycle less of a save budget (R362). -/
def Thread.spend (t : Thread) : Thread := if t.cx.req then { t with cx := { t.cx with left := t.cx.left - if t.cx.left = 0 then 0 else 1 } } else t

/-- The core goes to the end of the turn order, and the next one comes up with the slot whose turn it is. -/
def State.rotate (s : State) : State :=
  match s.rest with
  | [] => s
  | c :: cs =>
    let one := c.core.rsplit && c.core.turn1
    { s with core := c.core, me := if one then c.t1 else c.t0, sib := if one then c.t0 else c.t1, rest := cs ++ [s.packed] }

/-- A cycle of the core ends: %cycle counts, budgets run, a random word is appended, the slots alternate (unless the whole
core was frozen), and the next core has its turn; behind the last core the ends of instances in this cycle take effect (R318),
and the device's time goes on. -/
def State.tick (s : State) (whole : Bool) : State :=
  let busy := [s.me, s.sib].any fun t => (t.mq.head?).any (·.started)
  let s := (s.rngAppend.countEv 0 1).countEv 9 (if busy then 1 else 0)
  let last := s.core.phys = 159
  let s := { s with
    me := s.me.spend, sib := s.sib.spend
    core := { s.core with cycle := s.core.cycle + 1, turn1 := s.core.rsplit && (s.core.turn1 != !whole) } }
  let s := s.rotate
  if last then { s with dev := { s.dev.applyEnds with now := s.dev.now + 1 } } else s

/-- A cycle in which a slot of a row-split core is idle while its context is being saved (R364, R443): the other slot issues on. -/
def State.awaySlot (s : State) : State := ({ s with me := s.me.count 144 }.countEv 8 1).tick false

/-- A frozen cycle (R22, R59): all causes but WAIT freeze the whole core. -/
def State.freeze (s : State) (cause : Nat) : State :=
  let whole := cause != frWAIT
  (s.account cause (whole && s.core.rsplit)).tick whole

/-- The STOP cycle of a save (R59, R332, R364): the core is frozen, which both slots of a row-split one are charged with, and the
context is captured at its end when everything is settled. -/
def State.saveCycle (s : State) (forced : Bool) : State := ((s.account frSTOP s.core.rsplit).suspend forced).tick true

/-! ### Behind an issued bundle (R24, R54, R137, R143) -/

/-- Results in slot order (R26). -/
def bySlot (es : List Infl) : List Infl := [0, 1, 2, 3].flatMap fun i => es.filter fun e => e.slot.toNat == i

/-- An entry with one bundle less to wait. -/
def Infl.pass (e : Infl) : Infl := { e with rem := e.rem - 1 }

/-- What every issued bundle does to its slot: its results join those in flight, each has one bundle less to wait, %bundle
counts, and a word that was drawn leaves the random-bit queue. -/
def Thread.issued (t : Thread) : Thread :=
  { t with
    infl := (t.infl ++ bySlot t.iss.fresh).map Infl.pass
    tabq := t.tabq.map fun l => { l with rem := l.rem - 1 }
    sp := { t.sp with bundle := t.sp.bundle + 1 }
    rnq := if t.iss.usedW then t.rnq.drop 1 else t.rnq
    watch := none
    iss := { t.iss with fresh := [], cleared := none, landed := 0 } }

/-- Where the program goes on behind a bundle (R135, R137, R138, R149). -/
def Thread.goOn (t : Thread) : Thread :=
  if t.run ≠ .running ∨ t.iss.taken then t
  else
    match loopBack (pcAddr t.iss.bpc) (loopOrder t.loop.lact) t.loop with
    | (l, some a) => { t with loop := l, pc := pcOf a }
    | (l, none) => { t with loop := l, pc := t.iss.bpc + 1 }

/-- A macro that starts goes on, once it ends, where the program would have (R269); until then the program counter stays at
the macro's bundle. -/
def Thread.startMacro (t : Thread) (active : Bool) : Thread :=
  if t.mac.mpc.getLsbD 63 && !active then
    { t with mac := { t.mac with next := t.pc }, pc := pcOf t.mac.addr } else t

/-- A trap that is taken behind its own bundle (R143); cause 0x31 stays pending, with the bundle
that raised it, while a replay frame is occupied. -/
def Thread.trapAfter (t : Thread) : Thread :=
  match t.iss.after with
  | none => t
  | some (code, info) =>
    if code = 0x31 ∧ t.f0.isSome then { t with pend31 := true, yielded := some t.iss.bpc }
    else
    let r := t.takeTrap { code := code, slot := 0, land := false, async := code == 0x31, resume := t.pc
                          faulting := t.iss.bpc, info := info }
    if code = 0x31 then { r with pend31 := false, yielded := none } else r

/-- The failed walks that the slot has seen are forgotten. -/
def Dev.seenBy (d : Dev) (who : Party) : Dev := { d with walked := d.walked.filter fun w => w.who != who }

/-- An issued bundle of the program ends. -/
def State.endBundle (s : State) (set : Nat) (active : Bool) (b : U128) : State :=
  let me := ((((s.me.chargeBundle set b).issued).goOn).startMacro active).trapAfter
  let t := (s.countIssue (bundleWord b 2 != 0) ([0, 1, 2, 3].map (slotEnc b))).countEv 14
    (if s.me.iss.after.isSome && me.run == .running then 1 else 0)
  let u := if s.me.iss.taken || me.iss.res.isTrap then t.latched else t
  { u with
    me := me
    dev := u.dev.seenBy s.party }

/-- An issued macro step ends: it counts as a bundle whose slot 3 is filled (R443), and at END the program goes on behind the
macro's bundle (R269). -/
def State.endStep (s : State) (set : Nat) (e : Enc) : State :=
  let t := (s.me.chargeBundle set (1#32 ++ 0#96)).issued
  let u := s.countIssue false [e]
  { u with
    me := if t.mac.mpc.getLsbD 63 then t else { t with pc := t.mac.next }
    dev := u.dev.seenBy s.party }

/-! ### One cycle (R332) -/

/-- The cycle in which a trap is taken ends. -/
def State.endTrap (s : State) : State :=
  let t := (s.countEv 14 (if s.me.run = .running then 1 else 0)).latched
  { t with dev := t.dev.seenBy s.party }.tick false

/-- A macro step (R269, R332 row 4). -/
def State.stepMacro (s : State) : Out :=
  let set := s.me.lset
  let e : Enc := ⟨3, true, s.macroEntry.extractLsb' 64 8, s.macroEntry.extractLsb' 0 32⟩
  match execMacroStep s with
  | .next t =>
    match t.me.iss.res with
    | .issued => .next ((t.endStep set e).tick false)
    | .trapped _ _ => .next t.endTrap
    | .held => .next ((s.holdBundle t).freeze (if s.lacksTags e then frTAGS else frWAIT))
  | o => o

/-- A bundle of the program (R332 row 5). -/
def State.stepBundle (s : State) (b : U128) : Out :=
  let set := s.me.lset
  let active := s.me.mac.mpc.getLsbD 63
  match { s with me := s.me.begin 0 0 false }.runBundle b with
  | .next t =>
    match t.me.iss.res with
    | .issued => .next ((t.endBundle set active b).tick false)
    | .trapped _ _ => .next t.endTrap
    | .held => .next (t.freeze (if s.lacksTags (slotEnc b 3) then frTAGS else frWAIT))
  | o => o

/-- Whether a write of READY is due while a request is posted (R364). -/
def Thread.readyDue (t : Thread) : Bool :=
  t.cx.req && t.infl.any fun e => e.lands && match e.res with
    | .spr n _ val wr => n == 0x033 && (val &&& wr).getLsbD 0
    | _ => false

/-- What issues once everything due has landed: `f` is what the fetch found. -/
def State.issueNext (s : State) (f : Fetch) : Out :=
  let due := s.me.infl.any Infl.faulty
  let n := s.me.portCycles
  let t := s.land
  if due then .next t.landFault.endTrap
  else if 0 < n then .next ({ t with me := { t.me with ports := n - 1 } }.freeze frPORTS)
  else if t.me.inMacro then t.stepMacro
  else
    match f with
    | .bundle b => t.stepBundle b
    | .fault code info => .next ({ t with me := t.me.begin 0 0 false }.trap code info).endTrap
    | .wait => .next (t.freeze frFETCH)

/-- A bound slot that neither ends nor stops in this cycle (R332 rows 3 to 5). -/
def State.proceed (s : State) : Out :=
  match s.me.between with
  | some c => .next { s with me := s.me.takeBetween c }.endTrap
  | none =>
    if s.rowsUnsent then .next (s.freeze frWAIT)
    else if 0 < s.me.ports then .next ({ s with me := { s.me with ports := s.me.ports - 1 } }.freeze frPORTS)
    else if s.me.infl.any Infl.late then .next (s.freeze frLATE)
    else if s.me.readyDue then
      let t := s.readyLanded
      if t.me.run = .running then .next (t.saveCycle false) else .next t.endTrap
    else if s.me.inMacro then s.issueNext .wait
    else
      match s.fetch with
      | (.wait, t) => .next (t.freeze frFETCH)
      | (f, t) => t.issueNext f

/-- A running slot (R442): a stop that fires freezes it under STOP for one cycle before anything is taken. -/
def State.running (s : State) : Out :=
  let t := if s.me.stops then { s with me := { s.me with pend50 := true } } else s
  if t.me.pend50 && !t.me.stopped && t.me.takes then .next ({ t with me := { t.me with stopped := true } }.freeze frSTOP)
  else t.proceed

/-- A slot whose context is being saved (R364, R366): the capture follows once everything is settled. Until then the core stays
frozen; a slot of a row-split core is idle, and its sibling issues on. -/
def State.saving (s : State) (forced : Bool) : Out :=
  .next (if s.core.rsplit then (s.suspend forced).awaySlot else s.saveCycle forced)

/-- What a bound slot does in its cycle (R332 rows 1 and 2, R342, R364, R430, R442). -/
def State.busyCycle (s : State) : Out :=
  if s.me.spent then .next (s.saveCycle true)
  else
    match s.me.run with
    | .running => s.running
    | .saving f => s.saving f
    | .halting =>
      match execHaltComplete s with
      | .next t => .next (t.freeze frWAIT)
      | o => o
    | .faulting _ _ _ =>
      match execInstanceFault s with
      | .next t => .next (t.freeze frWAIT)
      | o => o
    | .gang => .next (s.freeze frWAIT)
    | .idle => .next (s.freeze frWAIT)

/-! ### What falls on a cycle by the clock (R322, R324, R330, R405, R447) -/

/-- Results of steps that cannot stop, one after another. -/
def andThen (s : State) : List (State → Out) → Out
  | [] => .next s
  | f :: fs =>
    match f s with
    | .next t => andThen t fs
    | o => o

/-- The slots of the core exchanged. -/
def State.swap (s : State) : State := { s with me := s.sib, sib := s.me }

/-- A step done for the sibling slot. -/
def onSibling (f : State → Out) (s : State) : Out :=
  match f s.swap with
  | .next t => .next t.swap
  | o => o

/-- Whether a number of cycles is a whole positive multiple of a period. -/
def everyCycles (period n : Nat) : Bool := n != 0 && n % period == 0

/-- The host port's and the fill engine's busy cycles, the LOAD byte at the end of each interval of 100 µs (R405), and the
cycles of the device with those in which a write waits for tokens (R445). -/
def State.gauge (s : State) : State :=
  let d := s.dev
  let m := d.mgmt
  let waiting (p : Nat → Bool) : Bool := d.net.any fun x => d.tokensFor x p
  let waits (p : Nat → Bool) : Nat := if waiting p then 1 else 0
  let busy := m.busy + waits fun p => p == 24
  let fill := m.fill + if d.host.regions.any fun r => !r.sealed then 1 else 0
  let m := if everyCycles 270000 d.now then { m with busy := 0, fill := 0, load := 255 * Nat.max busy fill / 270000 }
    else { m with busy := busy, fill := fill }
  let e : Dev := { d with mgmt := m }
  { s with dev := (e.countBy 0 fun b => if b < 32 then 0 else 1).countBy 29 fun b =>
      if b < 32 then 0 else if b < 36 then waits fun p => p / 6 == b - 32 else waits fun p => p == 24 }

/-- Every cluster's sensors read (R322); their values are open. -/
def headSamples (s : State) : Out :=
  let cls := s.dev.parts.flatMap Part.clusterList
  andThen { s with free := s.free + 1 } (cls.map fun cl => execHeadSample cl (Config.freeBits s.free cl))

/-- What falls on this cycle of the device (R316, R322, R324, R405, R447). -/
def State.clockSteps (s : State) : List (State → Out) :=
  let d := s.dev
  (if everyCycles 2700 d.now then [execTokenRefill] else []) ++
    (if everyCycles 27000 d.now then [headSamples] else []) ++
    ((d.parts.filter fun p => everyCycles 270000 (d.now - p.since)).map fun p => execIntervalBoundary p.num) ++
    (if everyCycles 13500000 d.now then [execJournalFlashMirror] else []) ++
    if d.now % 32 = 0 then d.parts.map fun p => execDispatchDecision p.num else []

/-- The clock of the device, in the turn of core 0, and the quantum boundaries of the core's slots (R330). -/
def State.clock (s : State) : Out :=
  match if s.core.phys = 0 then andThen s.gauge s.clockSteps else .next s with
  | .next t =>
    match if t.atQuantum then execQuantumBoundary t else .next t with
    | .next u => if u.core.rsplit && u.swap.atQuantum then onSibling execQuantumBoundary u else .next u
    | o => o
  | o => o

/-- The turn of a core: the clock, and one cycle (R332). -/
def State.turn (s : State) : Out :=
  match s.clock with
  | .next t => if t.me.bound.isSome then t.busyCycle else .next ((t.account 0 false).tick false)
  | o => o

end Sys2Proof.Machine
end

