-- ==== Sys2Proof/Machine/Events.lean ====
section
/-! DEFINITION. The steps that can happen at an instant beside the turn of a core (R276..R293, R404): which are enabled. -/
namespace Sys2Proof.Machine

/-! ### Steps inside the device -/

/-- Whether a write that was kept back can be sent now (R307): it is the first of its path, and there is room. -/
def State.mayEmit (s : State) (m : Msg) : Bool :=
  s.dev.unanswered m.src m.ctx m.path < 256 &&
    (ahead m.id s.dev.net).all fun x => !(x.src == m.src && x.ctx == m.ctx && x.path == m.path && x.stage == .unsent)

/-- A write that was kept back is sent (R291, R307). -/
def emitStep (n : Nat) (s : State) : Out :=
  .next (match s.dev.msg n with
    | some m =>
      let r := s.dev.emit { m with stage := .flying }
      { s with dev := r.1.updMsg n fun _ => r.2 }
    | none => s)

/-- The steps of a message where it stands (R281, R282): what its port does with it, and its answer. -/
def State.msgSteps (s : State) (m : Msg) : List (State → Out) :=
  match m.stage with
  | .tokens | .parked | .away => []
  | .unsent => if s.mayEmit m then [emitStep m.id] else []
  | .released => [execRelease m.id]
  | .answered _ _ =>
    match m.kind with
    | .amo _ => [execAtomicAnswer m.id]
    | .load _ => []
    | _ => if m.routed then [execRouteSendAnswer m.id none] else [execWriteAnswer m.id none]
  | .flying =>
    if s.dev.leaves m then (if s.dev.heldBack m then [] else [emitStep m.id])
    else if !s.ordered m then []
    else match m.kind with
      | .own => [execOwnStore m.id]
      | .pod _ => [execWriteArrival (.queued m.id)]
      | .spk => if s.spkHeld m.core m.slot1 m.job then [] else [execSpkStorePerform m.id]
      | .hbm => [execHbmStorePerform m.id]
      | .hst => [execHstStoreEmit m.id]
      | .load r => if r.need.isEmpty then [execLoadDataArrival m.id] else []
      | .amo r => if r.done then [] else [execAtomicPerform m.id]
  | .atPort =>
    match m.kind with
    | .pod .put => [execTaggedWrite m.id]
    | .pod .radd => [execRaddPerform m.id]
    | .pod .flag => [execFlagIncrement m.id]
    | .pod .qput => [execQputArrival m.id]
    | .pod .phm => [execPhmPutArrival m.id]
    | .pod .route => [execRoutingEntryArrival m.id]
    | .pod .seal => [execSealArrival m.id]
    | _ => []

/-- The walks that a walker works on: the first 32 of its cluster (R397). -/
def Dev.walkSteps (d : Dev) : List (State → Out) :=
  (d.walks.zipIdx.filter fun x => (d.walks.take x.2).countP (fun w => w.cl == x.1.cl) < 32).map fun x =>
    execPageWalkComplete x.2

/-- The steps of a copy channel (R247..R252). -/
def State.copySteps (s : State) (c : Channel) : List (State → Out) :=
  (if s.copyTurn c.cl == some c.ch then [execCopyRecord c.cl c.ch] else []) ++
    (if s.copyDone c.cl c.ch then [execCopyTransferComplete c.cl c.ch] else []) ++
    if s.chainReady c.cl c.ch then [execChainRecordRead c.cl c.ch] else []

/-- Whether the head of the queue may begin as far as a save of its slot goes (R366). -/
def State.queueOpen (s : State) : Bool := match s.me.run with | .saving _ => s.mandatory != 0 | _ => true

/-- The steps of a slot's matrix queue (R185). -/
def State.matrixSteps (s : State) : List (State → Out) :=
  match s.me.mq with
  | e :: _ =>
    if e.started then [execMatrixEntryComplete] else if s.queueOpen && s.canStart e then [execMatrixEntryStart] else []
  | [] => []

/-- Whether a collective can go on at this member (R259..R261). -/
def State.collOpen (s : State) (c : Coll) : Bool :=
  if c.status ≠ 0 then c.held.isEmpty
  else c.fail != 0 || !c.agreed || (c.done < c.started && (c.sent ≤ c.done || !s.dev.collBusy c))

/-- Whether the engine can read the arrays of a batch now (R262). -/
def State.arraysReady (s : State) (b : Batch) : Bool :=
  b.unread.any fun bs => (s.asSlot b.phys b.slot1).any fun v => v.arraysOpen b (dispatchOf bs)

/-- Whether a hardware queue slot can change hands (R385). -/
def Dev.slotsMove (d : Dev) (p : Part) : Bool :=
  let own := d.host.pairs.filter fun x => d.queuePart x == some p.num
  let free := own.any (fun x => x.mapped.isSome && x.sqHead == x.sqTail) || (own.countP fun x => x.mapped.isSome) < p.qslots ||
    own.any fun x => x.mapped.any fun t => t + p.sched.q * 2700 ≤ d.now
  own.any (fun x => x.wait.isSome) && free

/-- The steps of the host side and of Operculum (R390, R402, R403, R406, R420, R435, R449). -/
def State.hostSteps (s : State) : List (State → Out) :=
  let d := s.dev
  let acts (x : QPair) : Bool := d.host.vfs.any fun v => !s.anyBound v.fn && v.act.any fun a => a.1 == x.fn && a.2.1 == x.q
  (d.host.pairs.filter d.fetchable).map (fun x => execSubmissionFetch x.fn x.q) ++
    (d.host.pairs.filter fun x => x.room && (!x.posts.isEmpty || acts x)).map (fun x => execCompletionPost x.fn x.q) ++
    (d.parts.filter d.slotsMove).map (fun p => execQueueSlotMap p.num) ++
    (d.parts.filter fun p => p.nextGraph.isSome).map (fun p => execGraphAdmit p.num) ++
    (d.filling.toList.map fun r => execRegionFill r.id) ++
    (d.host.regions.filter fun r => !r.sealed && r.len ≤ r.got).map (fun r => execRegionSeal r.id) ++
    (d.mgmt.gates.filter fun g => g.since + 270000 ≤ d.now).flatMap (fun g =>
      ((List.range 32).filter g.cls.testBit).map execPowerGateOn) ++
    d.mgmt.scrubs.map (fun x => execScrubReport x.id) ++
    (if d.mgmt.commit.any fun k => !k.durable then [execLayoutPrepared] else []) ++
    (if d.mgmt.commit.any Commit.ready then [execLayoutCommit] else []) ++
    (d.mgmt.ports.filter fun p => p.expired d.now).map (fun p => execLinkDown p.num) ++
    d.mgmt.ports.flatMap fun p => [true, false].flatMap fun out =>
      let l := if out then p.out else p.inw
      if p.st == .up && 2 ^ 40 ≤ l.count && !l.rotating then [execKeyCounterExpiry p.num out] else []

/-- Every step that may happen now beside the turn of the core (R276, R293). -/
def State.events (s : State) : List (State → Out) :=
  let d := s.dev
  d.net.flatMap s.msgSteps ++ d.walkSteps ++
    (if d.fetches.isEmpty then [] else [execFetchFill]) ++
    ((d.removals.map (·.cl)).eraseDups.map execTlbRemovalTakesEffect) ++
    ((List.range d.writebacks.length).map execEccWriteback) ++
    d.chans.flatMap s.copySteps ++ s.matrixSteps ++
    (if s.core.rsplit then s.swap.matrixSteps.map onSibling else []) ++
    (d.colls.filter s.collOpen).map (fun c => execCollBucketComplete c.serial) ++
    (d.batches.filter s.arraysReady).map (fun b => routeArraysStep b.serial) ++
    (d.batches.filter fun b => b.unread.isNone && b.todo.isEmpty && b.out.isEmpty).map (fun b => execRouteBatchComplete b.serial) ++
    (d.ctxs.filter fun c => !c.written).map (fun c => execGemmaWrite c.id) ++ s.hostSteps

end Sys2Proof.Machine
end

