-- ==== Sys2Proof/Machine/Step.lean ====
section
/-! DEFINITION. The step of the machine, and the state in which its next step runs a given word. -/
namespace Sys2Proof.Machine

/-- What happens next inside the device: one of the steps that are enabled, or the turn of the core whose turn it is. Which
of them is open (R276, R293): a free choice, made only where something is enabled beside the turn (log 2). -/
def State.inner (s : State) : Out :=
  match s.events with
  | [] => s.turn
  | es =>
    let t := { s with free := s.free + 1 }
    match es[Config.choice s.free (es.length + 1) % (es.length + 1)]? with
    | some f => f t
    | none => t.turn

/-- One step: what the outside world does when its time has come, or what happens next inside the device. -/
def step (s : State) : Host.Outcome State Fault Refusal :=
  match s.inputs with
  | (n, i) :: rest =>
    if n ≤ s.dev.now then State.input { s with inputs := rest } i else s.inner
  | [] => s.inner

/-- The bundle that holds a table word in the first place whose decoder takes it, and no-operations elsewhere (log 3). -/
def tableBundle (w : U32) : U128 :=
  let e := ((decodeFirst w tablePlaces).map (·.1)).getD ⟨0, false, 0, w⟩
  let h : U32 := if e.hdr then 0xF0000000 ||| (e.ext.zeroExtend 32 <<< 16) else 0
  (h.zeroExtend 128) ||| (w.zeroExtend 128 <<< (32 * e.slot.toNat))

/-- The slot with a task bound and running at bundle address 0, with nothing in flight and nothing pending. -/
def Thread.atZero (t : Thread) : Thread :=
  { t with
    run := .running, pc := 0, infl := [], pend31 := false, pend32 := false, pend50 := false, stopped := false, fetchFault := none
    ports := 0, yielded := none
    bound := some { ctx := 1, part := 0, job := 0, jcore := 0, graph := 0, node := 0, inst := 0, vf := 0, since := 0
                    budget := 20000, saves := 0 }
    mac := MacroRegs.reset, sp := { t.sp with dstop := 0 }
    cx := { t.cx with ctxid := 1, req := false, left := 0 } }

/-- A program placed from outside (log 4): the word in a bundle at address 0 of the slot whose turn it is, in its core's
instruction cache and with its page translated, so that the next step issues it. -/
def State.withFetchWord (s : State) (_nbits w : Nat) : State :=
  let page : Pte := ⟨1, 0, 65536, 0x13, false⟩
  { s with
    me := s.me.atZero
    core := { s.core with icache := [(0, tableBundle (BitVec.ofNat 32 w))] }
    dev := { s.dev with tlb := (s.core.phys, [page]) :: s.dev.tlb.filter fun x => x.1 != s.core.phys
                        walked := s.dev.walked.filter fun x => x.who != s.party }
    inputs := [] }

end Sys2Proof.Machine
end

