-- ==== Sys2Proof/Safety.lean ====
section
/-! DEFINITION. What counts as a safe state and a quiet instant, in the terms the statements use. -/
namespace Sys2Proof.Machine

/-- The invariant of the machine: every memory is in canonical form, so equal memories are equal data. -/
def State.Inv (s : State) : Prop := s.mems.wf = true

/-- The frames of a replay buffer nest (R144): frame 1 is occupied, and tagged S, only while frame 0 is occupied and tagged U. -/
def Thread.Nested (t : Thread) : Prop := ∀ g, t.f1 = some g → g.tagS = true ∧ ∃ f, t.f0 = some f ∧ f.tagS = false

/-- The frames nest in every slot of every core and in every suspended context. -/
def State.Nested (s : State) : Prop :=
  s.me.Nested ∧ s.sib.Nested ∧ (∀ c ∈ s.rest, c.t0.Nested ∧ c.t1.Nested) ∧ ∀ c ∈ s.dev.ctxs, c.thread.Nested

/-- An instant at which nothing can happen but the turn of the core: no step from outside is due, and nothing inside the
device is enabled. -/
def State.quiet (s : State) : Prop := s.events = [] ∧ ∀ x ∈ s.inputs.head?, s.dev.now < x.1

/-- A slot that runs its program: a task is bound and running, no save is due, no debug stop fires, no cause is pending
between bundles, nothing due at this boundary is late or failed or takes more than one cycle to land, and no macro is
active. -/
def Thread.free (t : Thread) : Prop :=
  t.bound.isSome = true ∧ t.run = .running ∧ t.cx.req = false ∧ t.stops = false ∧ t.between = none ∧ t.ports = 0 ∧
    t.infl.any Infl.late = false ∧ t.infl.any Infl.faulty = false ∧ t.portCycles = 0 ∧ t.inMacro = false


/-! ### The words in which the statements say what a scalar instruction delivers -/

/-- A two-source form issues a scalar-class result of the latency, that sets no flag and whose value bears the relation to
the two operands read at issue. -/
def Scalar2 (c : Dst → Src → Src → U3 → Instr) (lat : Nat) (r : U64 → U64 → U64 → Prop) : Prop :=
  ∀ (d : Dst) (a b : Src) (p : U3) (s : State), ∃ v : U64,
    exec (c d a b p) s = .next (s.issueG lat d p v 0) ∧ r (s.src a) (s.src b) v

/-- As Scalar2, for a form of one source and L = 1. -/
def Scalar1 (c : Dst → Src → U3 → Instr) (r : U64 → U64 → Prop) : Prop :=
  ∀ (d : Dst) (a : Src) (p : U3) (s : State), ∃ v : U64,
    exec (c d a p) s = .next (s.issueG 1 d p v 0) ∧ r (s.src a) v

/-- As Scalar2, for a form of a source and an immediate and L = 1. -/
def ScalarI (c : Dst → Src → Imm → U3 → Instr) (r : U64 → U64 → U64 → Prop) : Prop :=
  ∀ (d : Dst) (a : Src) (m : Imm) (p : U3) (s : State), ∃ v : U64,
    exec (c d a m p) s = .next (s.issueG 1 d p v 0) ∧ r (s.src a) m.val v

/-- A saturating form (R125): the exact result, brought between the bounds, read back from the value; SAT (bit 11 of %stat)
when the two differ. -/
def Saturates (c : Dst → Src → Src → U3 → Instr) (lat : Nat) (lo hi : Int) (exact : U64 → U64 → Int) (back : U64 → Int) :
    Prop :=
  ∀ (d : Dst) (a b : Src) (p : U3) (s : State), ∃ v : U64, ∃ f : U16,
    exec (c d a b p) s = .next (s.issueG lat d p v f) ∧
      back v = (if exact (s.src a) (s.src b) < lo then lo
        else if hi < exact (s.src a) (s.src b) then hi else exact (s.src a) (s.src b)) ∧
      f = if exact (s.src a) (s.src b) = back v then 0 else 0x0800

/-- The low 32 bits as a signed number. -/
def low32 (x : U64) : Int := Int.bmod (x.toNat : Int) (2 ^ 32)

/-- The condition number decides as the relation says (R129). -/
def Compares (cond : U3) (x y : U64) (r : Prop) : Prop := condHolds cond x y = true ↔ r

/-- The position and the effective length that a field descriptor names (R132). -/
def fldPos (b : U64) : Nat := b.toNat % 64
def fldLen (b : U64) : Nat := Min.min (b.toNat / 256 % 64 + 1) (64 - b.toNat % 64)

/-! ### Frames -/

/-- Two states that differ in nothing but what the bundle in progress has recorded. -/
def State.onlyIss (s t : State) : Prop := t = { s with me := { s.me with iss := t.me.iss } }

/-- Two slots that differ in nothing but the results issued by the bundle in progress, and whether it draws a random word. -/
def Iss.onlyResults (x y : Iss) : Prop := y = { x with fresh := y.fresh, usedW := y.usedW } ∧ x.fresh <+: y.fresh

/-- The instructions whose whole effect is the results that they put in flight (R24). -/
def resultOnly : Instr → Bool
  | .add .. | .sub .. | .and .. | .or .. | .xor .. | .andn .. | .sll .. | .srl .. | .sra .. | .ror .. => true
  | .min .. | .max .. | .minu .. | .maxu .. | .slt .. | .sltu .. | .addw .. | .subw .. | .sllw .. | .srlw .. => true
  | .sraw .. | .mul .. | .mulh .. | .mulhu .. | .mulhsu .. | .mulw .. | .addsat .. | .subsat .. | .addsatw .. => true
  | .subsatw .. | .addsatu .. | .subsatu .. | .mulsatw .. | .div .. | .divu .. | .rem .. | .remu .. => true
  | .addi .. | .andi .. | .ori .. | .xori .. | .slli .. | .srli .. | .srai .. | .rori .. | .slliw .. | .srliw .. => true
  | .sraiw .. | .roriw .. | .ldi .. | .ldis .. | .cmp .. | .cmpi .. | .pand .. | .por .. | .pxor .. | .pandn .. => true
  | .kfromg .. | .gfromk .. | .pfromg .. | .gfromp .. | .sel .. | .seln .. | .bext .. | .bextu .. | .bins .. => true
  | .clz .. | .ctz .. | .popc .. | .bswap .. | .brev .. | .adds .. | .setdev .. | .setcore .. | .shwMs .. => true
  | .shwXs .. | .mmset .. | .mmcov .. | .mmclamp .. => true
  | .vadd .. | .vsub .. | .vmin .. | .vmax .. | .vmul .. | .vdiv .. | .vabs .. | .vneg .. | .vsqrt .. | .vrcp .. => true
  | .vfrac .. | .vclass .. | .vfma .. | .vfms .. | .vfnma .. | .vfnms .. | .viadd .. | .visub .. | .viadds .. => true
  | .visubs .. | .vimul .. | .vimulh .. | .vimin .. | .vimax .. | .vand .. | .vor .. | .vxor .. | .vandn .. => true
  | .vsll .. | .vsrl .. | .vsra .. | .vrol .. | .vfcmpEq .. | .vfcmpLt .. | .vfcmpLe .. | .vfcmpUn .. => true
  | .vicmpEq .. | .vicmpLt .. | .vicmpLe .. | .vicmpLtu .. | .vcvtFf .. | .vcvtFi .. | .vperm .. | .vziplo .. => true
  | .vziphi .. | .vunzip .. | .vrot .. | .vshdn .. | .vshup .. | .vrev .. | .vfredsum .. | .vfredmax .. => true
  | .viredsum .. | .viredmax .. | .vbcast .. | .vins .. | .vext .. | .vbcastl .. | .vexp2 .. | .vlog2 .. => true
  | .vrsqrt .. | .vtanh .. | .vsinpi .. | .vcospi .. | .verf .. | .vsigm .. | .kand .. | .kor .. | .kxor .. => true
  | .kandn .. | .vsel .. | .vimad .. | .mmake .. | .mgetm .. | .mgetv .. | .mmov .. | .madd .. | .msub .. => true
  | .mmul .. | .mscale .. | .mrelu .. | .mexp .. | .msigm .. | .mgelu .. | .mcmean .. | .mchi .. | .mclo .. => true
  | .mcdraw .. | .rngpop .. => true
  | _ => false

/-- Bit j of a vector register after lanes are merged under a mask (R30): lane j / 32 decides. -/
def lanesFrom (k : U64) (new old : Vec) (out : Vec) : Prop :=
  ∀ j : Nat, j < 2048 → out.getLsbD j = if k.getLsbD (j / 32) then new.getLsbD j else old.getLsbD j

/-- Two device states that differ in nothing but which words of the arrays fail, and in nothing where none did (R426). -/
def Dev.onlyBad (d e : Dev) : Prop := e = { d with bad := e.bad } ∧ (d.bad = [] → e = d)

/-- Words of the arrays, tags and region pointers that failed may no longer fail; nothing else of the device changes (R426). -/
def Dev.lessBad (d e : Dev) : Prop :=
  e = { d with bad := e.bad, badTags := e.badTags } ∧ (∀ w ∈ e.bad, w ∈ d.bad) ∧ ∀ k ∈ e.badTags, k ∈ d.badTags

/-! ### Control -/

/-- A control transfer taken (R35, R135): the queue and the latches are clear, what is in flight enters neither, and nothing
else but the program counter changes. -/
def Transferred (s t : State) : Prop :=
  t = { s with me := { s.me with
    pc := t.me.pc
    regs := { s.me.regs with q := Vector.replicate 16 0, b := Vector.replicate 3 0 }
    infl := s.me.infl.map fun e => { e with noq := true }
    iss := { s.me.iss with taken := true, fresh := s.me.iss.fresh.map fun e => { e with noq := true } } } }

/-- The state with nothing changed but the loop registers of the slot. -/
def onlyLoop (s t : State) : Prop := t = { s with me := { s.me with loop := t.me.loop } }

/-- The causes that R142 marks "D" and the bit of %tdeleg that delegates each. -/
def delegBit : List (Byte × Nat) :=
  [(0x10, 0), (0x13, 1), (0x14, 2), (0x20, 3), (0x21, 4), (0x22, 5), (0x41, 6)]

/-- Whether a cause is routed to the user vector (R142). -/
def routedToUser (t : Thread) (code : Byte) : Prop :=
  code = 0x31 ∨ code = 0x32 ∨ ∃ x ∈ delegBit, x.1 = code ∧ t.trap.tdeleg.getLsbD x.2 = true

/-- What a replay frame holds after a capture (R38, R103, R144): what is in flight, the queue and the latches, as they were
before a GROUP header of the same bundle cleared them. -/
def Captured (t : Thread) (f : Frame) : Prop :=
  match t.iss.cleared with
  | none => f.infl = t.infl ∧ f.q = t.regs.q ∧ f.b = t.regs.b
  | some c => f.infl = c.infl ∧ f.q = c.q ∧ f.b = c.b

/-- What a return leaves in flight and in the queue and the latches (R38, R150), for the frame that is restored, if any. -/
def Returned (t u : Thread) (f : Option Frame) : Prop :=
  let own := t.infl.map fun e => { e with noq := true }
  match f with
  | some f => u.infl = (f.infl.map fun e => { e with rem := e.rem + 1 }) ++ own ∧ u.regs = { t.regs with q := f.q, b := f.b }
  | none => u.infl = own ∧ u.regs = { t.regs with q := Vector.replicate 16 0, b := Vector.replicate 3 0 }

/-! ### Vectors -/

/-- t is s with a vector-class result of the latency in flight, whose enabled elements of width w are as f says, that writes
the lanes of the mask, and that sets exactly the flags of its enabled elements (R153, R156). -/
def VecResult (lat : Nat) (d : Dst) (k : U64) (w : Nat) (f : Nat → FR) (s t : State) : Prop :=
  ∃ (val : Vec) (fl : U16),
    t = s.issue lat (.v d val (if w = 64 then pairMask k else k)) fl ∧
    (∀ e : Nat, e < 2048 / w → k.getLsbD (e * w / 32) = true → velem val w e = (f e).bits % 2 ^ w) ∧
    ∀ j : Nat, fl.getLsbD j = true ↔
      ∃ e : Nat, e < 2048 / w ∧ k.getLsbD (e * w / 32) = true ∧ (f e).fl.getLsbD j = true

/-- An instruction completes with a vector result. -/
def Elements (i : Instr) (s : State) (lat : Nat) (d : Dst) (k : U3) (w : Nat) (f : Nat → FR) : Prop :=
  ∃ t, exec i s = .next t ∧ VecResult lat d (s.kmask k) w f s t

/-- The state with a random word drawn by the bundle in progress. -/
def State.drew (s : State) : State := { s with me := { s.me with iss := { s.me.iss with usedW := true } } }

/-- What becomes of a form that draws a random word if it needs one (R72, R155): without the need it completes as P says; with it,
it completes with the oldest word of the random-bit queue; and while that queue is empty its bundle is held. -/
def Draws (i : Instr) (s : State) (need : Prop) (P : U64 → State → State → Prop) : Prop :=
  (¬ need → ∃ t, exec i s = .next t ∧ P 0 s t) ∧
  (need → ∀ (x : U64) (xs : List U64), s.me.rnq = x :: xs → ∃ t, exec i s = .next t ∧ P x s.drew t) ∧
  (need → s.me.rnq = [] → exec i s = .next s.hold)

/-- A floating form completes with a vector result, drawing where RM is 4 (R155). -/
def FloatElements (i : Instr) (s : State) (lat : Nat) (d : Dst) (k rm : U3) (w : Nat) (f : Nat → Nat → FR) : Prop :=
  Draws i s (rm = 4) fun x s t => VecResult lat d (s.kmask k) w (fun e => f (stochBits x e) e) s t

/-- A two-source floating form, of each of the three types (R154, R158): what an element is of its rounding mode, its draw
and the two source elements. -/
def Float2 (c : Dst → VSrc → VSrc → U3 → U3 → U3 → Instr) (lat : Nat) (f : Fmt → Nat → Nat → Nat → Nat → FR) : Prop :=
  ∀ (d : Dst) (a b : VSrc) (t k rm : U3) (s : State), t.toNat < 3 →
    let F := fmtOf t.toNat
    FloatElements (c d a b t k rm) s lat d k rm F.width fun x e =>
      f F rm.toNat x (velem (s.vsrc a) F.width e) (velem (s.vsrc b) F.width e)

/-- A one-source floating form. -/
def Float1 (c : Dst → VSrc → U3 → U3 → U3 → Instr) (lat : Nat) (f : Fmt → Nat → Nat → Nat → FR) : Prop :=
  ∀ (d : Dst) (a : VSrc) (t k rm : U3) (s : State), t.toNat < 3 →
    let F := fmtOf t.toNat
    FloatElements (c d a t k rm) s lat d k rm F.width fun x e => f F rm.toNat x (velem (s.vsrc a) F.width e)

/-- A fused form: the value before rounding is `p + c` for the product p, with the signs given (R159). -/
def Fused (c : Dst → VSrc → VSrc → VSrc → U2 → U3 → U3 → Instr) (np nc : Bool) : Prop :=
  ∀ (d : Dst) (x y z : VSrc) (t : U2) (k rm : U3) (s : State), t.toNat < 3 →
    let F := fmtOf t.toNat
    FloatElements (c d x y z t k rm) s 4 d k rm F.width fun draw e =>
      let a := fdecode F (velem (s.vsrc x) F.width e)
      let b := fdecode F (velem (s.vsrc y) F.width e)
      let c := fdecode F (velem (s.vsrc z) F.width e)
      let p := a.mul b
      let v := (if np then p.neg else p).add (rm.toNat == 3) (if nc then c.neg else c)
      ⟨(froundV F rm.toNat false draw v).bits,
        (froundV F rm.toNat false draw v).fl ||| ivOf [a, b, c] v |||
          (if p.isNan && !a.isNan && !b.isNan then 0x0001 else 0)⟩

/-- Round the exact value once, and set the flags of the rounding and the invalid flag (R66, R68, R158). -/
def rounded (F : Fmt) (rm draw : Nat) (ins : List FV) (v : FV) : FR :=
  ⟨(froundV F rm false draw v).bits, (froundV F rm false draw v).fl ||| ivOf ins v⟩

/-- The range of an integer element type and its width. -/
def intRange (t : U3) : Int × Int := (etMin (intEt t), etMax (intEt t))

/-- A two-source integer form (R160), of each integer type: what an element's number is of the two numbers, brought to the
type by wrapping or by clamping, with VSAT when clamping changes it. -/
def Integer2 (c : Dst → VSrc → VSrc → U3 → U3 → Instr) (lat : Nat) (clamp : Bool) (f : Nat → Int → Int → Int) : Prop :=
  ∀ (d : Dst) (a b : VSrc) (t k : U3) (s : State), okInt t = true →
    let w := etWidth (intEt t)
    Elements (c d a b t k) s lat d k w fun e =>
      let x := f w (intVal (intEt t) (velem (s.vsrc a) w e)) (intVal (intEt t) (velem (s.vsrc b) w e))
      let y := if x < (intRange t).1 then (intRange t).1 else if (intRange t).2 < x then (intRange t).2 else x
      if clamp then ⟨(y % (2 ^ w : Nat)).toNat, if y = x then 0 else 0x1000⟩ else ⟨(x % (2 ^ w : Nat)).toNat, 0⟩

/-- A form that moves bits or computes on patterns and sets no flag. -/
def Patterns (i : Instr) (s : State) (lat : Nat) (d : Dst) (k : U3) (w : Nat) (f : Nat → Nat) : Prop :=
  Elements i s lat d k w fun e => ⟨f e, 0⟩

/-- A compare into a lane mask (R162): each enabled element's outcome stands in the bits of its lanes, every other bit is 0,
every bit of the destination is written, and the flags are those of the enabled elements. -/
def MaskResult (i : Instr) (s : State) (kd k : U3) (w : Nat) (c : Nat → Bool) (fl : Nat → U16) : Prop :=
  ∃ (m : U64) (f : U16), exec i s = .next (s.issue 2 (.k kd m (BitVec.allOnes 64)) f) ∧
    (∀ j : Nat, j < 64 → m.getLsbD j = ((s.kmask k).getLsbD (j * 32 / w * w / 32) && c (j * 32 / w))) ∧
    ∀ j : Nat, f.getLsbD j = true ↔
      ∃ e : Nat, e < 2048 / w ∧ (s.kmask k).getLsbD (e * w / 32) = true ∧ (fl e).getLsbD j = true

/-- A dyadic number counted in units of 2^m, for an m that is at most its exponent. -/
def unitsOf (m : Int) (x : Dy) : Int := x.n * 2 ^ (x.e - m).toNat

/-- c is the exact sum of two values (R66, R67): an exact zero is +0, or −0 when rounding is downward. -/
def Sums (down : Bool) (a b c : FV) : Prop :=
  match a, b with
  | .nan _, _ => c.isNan = true
  | _, .nan _ => c.isNan = true
  | .inf s, .inf t => c = if s = t then .inf s else .nan false
  | .inf s, _ => c = .inf s
  | _, .inf s => c = .inf s
  | .zero s, .zero t => c = .zero (if s = t then s else down)
  | .zero _, .fin y => c = .fin y
  | .fin x, .zero _ => c = .fin x
  | .fin x, .fin y => ∀ m : Int, m ≤ x.e → m ≤ y.e →
      if unitsOf m x + unitsOf m y = 0 then c = .zero down
      else ∃ z, c = .fin z ∧ m ≤ z.e ∧ unitsOf m z = unitsOf m x + unitsOf m y

/-- c is the exact product of two values (R66, R67): its sign is that of the two signs, and 0 × ∞ is no number. -/
def Multiplies (a b c : FV) : Prop :=
  match a, b with
  | .nan _, _ => c.isNan = true
  | _, .nan _ => c.isNan = true
  | .inf _, .zero _ => c = .nan false
  | .zero _, .inf _ => c = .nan false
  | .inf s, .inf t => c = .inf (s != t)
  | .inf s, .fin y => c = .inf (s != decide (y.n < 0))
  | .fin x, .inf t => c = .inf (decide (x.n < 0) != t)
  | .zero s, .zero t => c = .zero (s != t)
  | .zero s, .fin y => c = .zero (s != decide (y.n < 0))
  | .fin x, .zero t => c = .zero (decide (x.n < 0) != t)
  | .fin x, .fin y => ∃ z, c = .fin z ∧ z.e = x.e + y.e ∧ z.n = x.n * y.n

/-- The distance between two dyadic numbers. -/
def dyDist (a b : Dy) : Dy := ⟨(a.add b.neg).n.natAbs, (a.add b.neg).e⟩

/-- The dyadic number that a finite pattern stands for. -/
def dyOfBits (F : Fmt) (b : Nat) : Dy := match fdecode F b with | .fin x => x | _ => ⟨0, 0⟩

/-- Whether a pattern of the format stands for a finite number. -/
def finiteBits (F : Fmt) (b : Nat) : Bool := b < 2 ^ F.width && !(fdecode F b).isNan && !(fdecode F b).isInf

/-- Of the magnitudes lo < |x| < hi, the mode takes the greater (R70, R73). -/
def Outward (rm draw : Nat) (x lo hi : Dy) (hiEven : Prop) : Prop :=
  let a : Dy := ⟨x.n.natAbs, x.e⟩
  let past := a.add lo.neg
  let left := hi.add a.neg
  let taken (y : Dy) : Prop := Dy.le (Dy.mul ⟨draw + 1, 0⟩ (hi.add lo.neg)) (Dy.mul ⟨65536, 0⟩ y) = true
  match rm with
  | 0 => left.lt past = true ∨ ((dyDist left past).n = 0 ∧ hiEven)
  | 1 => False
  | 2 => 0 < x.n
  | 3 => x.n < 0
  | _ => (0 < x.n ∧ taken past) ∨ (x.n < 0 ∧ ¬ taken left)

/-- Rounded as if the exponent range were unbounded, x exceeds the largest finite value of the format (R68, R70): it reaches the
value that would follow it, or lies between the two and is taken there. -/
def Overflows (F : Fmt) (rm draw : Nat) (x : Dy) : Prop :=
  let a : Dy := ⟨x.n.natAbs, x.e⟩
  let last := dyOfBits F F.maxFinite
  let next := last.add ⟨1, last.e⟩
  next.le a = true ∨ (last.lt a = true ∧ a.lt next = true ∧ Outward rm draw x last next (last.n % 2 = 1))

/-- Rounded as if the exponent range were unbounded, x stays below the smallest normal 2^emin of the format (R68): it does not
exceed the value of the format's precision before that one, or it does and is not taken to the smallest normal. -/
def Tiny (F : Fmt) (rm draw : Nat) (x : Dy) : Prop :=
  let a : Dy := ⟨x.n.natAbs, x.e⟩
  let least : Dy := ⟨1, F.emin⟩
  let before : Dy := ⟨2 ^ (F.mb + 1) - 1, F.emin - 1 - F.mb⟩
  a.lt least = true ∧ (a.le before = true ∨ ¬ Outward rm draw x before least True)

/-- What an exponent field and a mantissa field with a sign stand for in a format (R65, R66). -/
def FieldsDecode (F : Fmt) (eb mb bias : Nat) (s : Bool) (e m : Nat) : Prop :=
  let v := fdecode F ((if s then 2 ^ (eb + mb) else 0) + e * 2 ^ mb + m)
  let sg : Int := if s then -1 else 1
  if e = 0 then v = if m = 0 then .zero s else .fin ⟨sg * m, 1 - bias - mb⟩
  else if F = e4m3 ∧ e = 15 ∧ m = 7 then v = .nan false
  else if F ≠ e4m3 ∧ e = 2 ^ eb - 1 then v = if m = 0 then .inf s else .nan (decide (F ≠ e5m2 ∧ m < 2 ^ (mb - 1)))
  else v = .fin ⟨sg * (2 ^ mb + m), e - bias - mb⟩

/-- The delivered value is one rounding of a real v, given by what is at most |v| and what is |v|: two neighbouring multiples of a
power of two enclose |v|, both of at least 128 bits, so that no rounding of R70 and no draw of R73 tells the numbers between them
apart, and what is rounded is |v| itself where it is the lower one, else the middle of the two. -/
def RoundsReal (F : Fmt) (rm draw : Nat) (neg : Bool) (atMost is : Dy → Prop) (r : FR) : Prop :=
  ∃ (m : Nat) (e : Int), 2 ^ 128 ≤ m ∧ atMost ⟨m, e⟩ ∧ ¬ atMost ⟨m + 1, e⟩ ∧
    let sg : Int := if neg then -1 else 1
    (is ⟨m, e⟩ → r = fround F rm false draw (⟨sg * m, e⟩ : Dy).toEx) ∧
    (¬ is ⟨m, e⟩ → r = fround F rm false draw (⟨sg * (2 * m + 1), e - 1⟩ : Dy).toEx)

/-- The quotient of two dyadic numbers rounded once. -/
def RoundsQuotient (F : Fmt) (rm draw : Nat) (p q : Dy) (r : FR) : Prop :=
  RoundsReal F rm draw (decide (p.n < 0) != decide (q.n < 0)) (fun y => (y.mul ⟨q.n.natAbs, q.e⟩).le ⟨p.n.natAbs, p.e⟩ = true)
    (fun y => (dyDist (y.mul ⟨q.n.natAbs, q.e⟩) ⟨p.n.natAbs, p.e⟩).n = 0) r

/-- The square root of a positive dyadic number rounded once. -/
def RoundsRoot (F : Fmt) (rm draw : Nat) (x : Dy) (r : FR) : Prop :=
  RoundsReal F rm draw false (fun y => (y.mul y).le x = true) (fun y => (dyDist (y.mul y) x).n = 0) r

/-- The reciprocal of the square root of a positive dyadic number rounded once. -/
def RoundsRecipRoot (F : Fmt) (rm draw : Nat) (x : Dy) (r : FR) : Prop :=
  RoundsReal F rm draw false (fun y => ((y.mul y).mul x).le ⟨1, 0⟩ = true)
    (fun y => (dyDist ((y.mul y).mul x) ⟨1, 0⟩).n = 0) r

/-- The integer n is x rounded by the mode (R71, R73). -/
def RoundsInt (rm draw : Nat) (x : Dy) (n : Int) : Prop :=
  let far := dyDist x ⟨n, 0⟩
  far.lt ⟨1, 0⟩ = true ∧
  (rm = 0 → far.le ⟨1, -1⟩ = true ∧ (far.lt ⟨1, -1⟩ = false → n % 2 = 0)) ∧
  (rm = 1 → Dy.le ⟨n.natAbs, 0⟩ ⟨x.n.natAbs, x.e⟩ = true) ∧
  (rm = 2 → x.le ⟨n, 0⟩ = true) ∧ (rm = 3 → Dy.le ⟨n, 0⟩ x = true) ∧
  (rm = 4 → ∀ f : Int, Dy.le ⟨f, 0⟩ x = true → x.lt ⟨f + 1, 0⟩ = true →
    (n = f ∨ n = f + 1) ∧ (n = f + 1 ↔ Dy.le ⟨draw + 1, 0⟩ (Dy.mul ⟨65536, 0⟩ (x.add ⟨-f, 0⟩)) = true))

/-- A number brought between two bounds. -/
def bounded (lo hi x : Int) : Int := if x < lo then lo else if hi < x then hi else x

/-- What an exact value that may be special becomes in a floating type (R70, R167): the rounded value, and for an overflow and an
infinity what the table of R167 gives. The flags of a NaN are those of the instruction. -/
def Delivers (et rm draw : Nat) (sat : Bool) (v : FV) (r : FR) : Prop :=
  let F := fmtOf et
  let signed (neg : Bool) (b : Nat) : Nat := (if neg then F.signBit else 0) + b
  match v with
  | .nan _ => r.bits = F.nan ∧ r.fl.getLsbD 12 = false
  | .inf neg => r = if et ≠ 3 then ⟨signed neg F.inf, 0⟩ else if sat then ⟨signed neg 0x7E, 0x1014⟩ else ⟨F.nan, 0x0001⟩
  | .zero neg => r = ⟨signed neg 0, 0⟩
  | .fin x =>
    let y := fround F rm false draw x.toEx
    let inward : Bool := rm == 1 || (rm == 3 && 0 < x.n) || (rm == 2 && x.n < 0)
    (y.fl.getLsbD 2 = false → r = y) ∧
    (y.fl.getLsbD 2 = true → r = if sat then ⟨signed (decide (x.n < 0)) F.maxFinite, 0x1014⟩
      else if inward then ⟨signed (decide (x.n < 0)) F.maxFinite, 0x0014⟩
      else if et = 3 then ⟨F.nan, 0x0014⟩ else ⟨signed (decide (x.n < 0)) F.inf, 0x0014⟩)

/-- An element that a reduction takes (R66): a NaN is the canonical one, with IV for a signalling one; every other is itself. -/
def quiet (F : Fmt) (a : Nat) : FR :=
  match fdecode F a with
  | .nan q => ⟨F.nan, if q then 0x0001 else 0⟩
  | _ => ⟨a, 0⟩

/-- What a reduction makes of the 2^l elements from element e on (R170): the results of its two halves meet in a node, and a half
in which no element is enabled gives way to the other. -/
def treeOf (node : Nat → Nat → FR) (on : Nat → Bool) (p : Nat → FR) : Nat → Nat → Option FR
  | 0, e => if on e then some (p e) else none
  | l + 1, e =>
    match treeOf node on p l e, treeOf node on p l (e + 2 ^ l) with
    | some a, some b => some ⟨(node a.bits b.bits).bits, a.fl ||| b.fl ||| (node a.bits b.bits).fl⟩
    | some a, none => some a
    | none, o => o

/-! ### Moments -/

/-- The number that an FP32 pattern stands for; 0 for one that is not finite. -/
def num32 (b : Nat) : Dy := dyOfBits fp32 b

/-- The pattern is the FP32 value of the exact number by the mode: a zero, of whichever sign, for the number 0. -/
def Near32 (rm : Nat) (x : Dy) (b : Nat) : Prop :=
  if x.n = 0 then b % 2 ^ 31 = 0 else b = (fround fp32 rm false 0 x.toEx).bits

/-- The pattern is the exact number rounded upward as a variance is: no zero but +0 (R82). -/
def Variance32 (x : Dy) (b : Nat) : Prop :=
  if x.n = 0 ∨ (fround fp32 2 false 0 x.toEx).bits = 2 ^ 31 then b = 0 else b = (fround fp32 2 false 0 x.toEx).bits

/-- The square root of an FP32 pattern by the mode. -/
def root32 (rm b : Nat) : Dy := num32 (fsqrtV fp32 rm 0 (fdecode fp32 b)).bits

/-- c is the product of two FP32 patterns, and the sum of two, rounded once to nearest. -/
def Times32 (a b c : Nat) : Prop := Near32 0 ((num32 a).mul (num32 b)) c
def Plus32 (a b c : Nat) : Prop := Near32 0 ((num32 a).add (num32 b)) c

/-- The steps of Phi between −9 and 9 (R86), each rounded once to nearest: y, t, the polynomial in t, e^(−y × y), and the result. A
power of e that the enclosure leaves open may be no number (log 12). -/
def PhiSteps (x r : Nat) (w : Nat → Nat) : Prop :=
  Times32 (x % 2 ^ 31) 0x3F3504F3 (w 0) ∧ Times32 0x3EA7BA05 (w 0) (w 1) ∧ Plus32 0x3F800000 (w 1) (w 2) ∧
  w 3 = (fdivV fp32 0 0 (fdecode fp32 0x3F800000) (fdecode fp32 (w 2))).bits ∧
  Times32 (w 3) 0x3F87DC22 (w 4) ∧ Plus32 0xBFBA00E3 (w 4) (w 5) ∧ Times32 (w 3) (w 5) (w 6) ∧
  Plus32 0x3FB5F0E3 (w 6) (w 7) ∧ Times32 (w 3) (w 7) (w 8) ∧ Plus32 0xBE91A98E (w 8) (w 9) ∧ Times32 (w 3) (w 9) (w 10) ∧
  Plus32 0x3E827906 (w 10) (w 11) ∧ Times32 (w 3) (w 11) (w 12) ∧ Times32 (w 0) (w 0) (w 13) ∧
  w 14 = fExp32 0 (num32 (w 13)).neg ∧
  (finiteBits fp32 (w 14) = true → Times32 (w 12) (w 14) (w 15) ∧ Times32 0x3F000000 (w 15) (w 16) ∧
    if (num32 x).n < 0 then r = w 16 else Near32 0 ((num32 0x3F800000).add (num32 (w 16)).neg) r)

/-- The members of a pair are finite, and the variance is not negative. -/
def Pair.plain (p : Pair) : Prop := finiteBits fp32 p.mu = true ∧ finiteBits fp32 p.v = true ∧ 0 ≤ (num32 p.v).n

/-- What a moment form reads in a lane: its pairs, its other FP32 operands, and those that must not be negative. -/
structure LaneOps where
  pairs : List Pair
  others : List Nat
  factors : List Nat

/-- Whether an enabled lane's inputs raise cause 0x21 (R175). -/
def LaneOps.domain (o : LaneOps) : Bool :=
  o.pairs.any (fun p => special p.mu || special p.v) || o.others.any special ||
    o.factors.any (fun k => special k || negative k)

/-- Whether a lane has a negative variance among its inputs. -/
def LaneOps.negVar (o : LaneOps) : Bool := o.pairs.any fun p => negative p.v

/-- The pair that a lane computes (R175): negative input variances enter as +0, and −0 as +0. -/
def LaneOps.value (o : LaneOps) (f : List Pair → Pair) : Pair :=
  f (o.pairs.map fun p => ⟨p.mu, if negative p.v then 0 else if p.v = 0x80000000 then 0 else p.v⟩)

/-- A checked moment form (R175), from the state u that its draw of a random word has left: the trap of the first faulting
input lane, else of the first lane whose computed variance is below zero, else the result, clamped under CLAMP, with MCLAMP
exactly when a clamp took place. -/
def MomentForm (i : Instr) (s u : State) (lat : Nat) (k : U3) (ops : Nat → LaneOps) (f : Nat → List Pair → Pair)
    (res : (Nat → Pair) → Res) : Prop :=
  let on (j : Nat) : Prop := j < 64 ∧ (s.kmask k).getLsbD j = true
  let cl : Bool := s.me.sp.mmode.getLsbD 2
  let fault (j : Nat) : Prop := (ops j).domain = true ∨ (cl = false ∧ (ops j).negVar = true)
  let low (j : Nat) : Prop := negative ((ops j).value (f j)).v = true
  (∀ j, on j → fault j → (∀ i, i < j → on i → ¬ fault i) →
    exec i s = .next (u.trap (if (ops j).domain then 0x21 else 0x20) (BitVec.ofNat 64 (j + 512)))) ∧
  ((∀ j, on j → ¬ fault j) → cl = false → ∀ j, on j → low j → (∀ i, i < j → on i → ¬ low i) →
    exec i s = .next (u.trap 0x20 (BitVec.ofNat 64 (j + 512)))) ∧
  ((∀ j, on j → ¬ fault j) → (cl = true ∨ ∀ j, on j → ¬ low j) → ∃ (out : Nat → Pair) (fl : U16),
    exec i s = .next (u.issue lat (res out) fl) ∧
    (∀ j, on j → out j = ⟨((ops j).value (f j)).mu, if negative ((ops j).value (f j)).v then 0 else ((ops j).value (f j)).v⟩) ∧
    (fl = 0x4000 ↔ ∃ j, on j ∧ ((ops j).negVar = true ∨ low j)) ∧ (fl = 0x4000 ∨ fl = 0))

/-- A form of one or two moment sources and a moment destination, by what it computes of the pairs. -/
def PairForm (i : Instr) (s : State) (lat : Nat) (d : U4) (k : U3) (ops : Nat → LaneOps) (f : Nat → List Pair → Pair) :
    Prop := MomentForm i s s lat k ops f (momRes d (s.kmask k))

/-- A form of one moment source whose means go to a vector-class destination. -/
def MeanForm (i : Instr) (s : State) (lat : Nat) (d : Dst) (k : U3) (ops : Nat → LaneOps) (f : Nat → Pair → Nat) : Prop :=
  MomentForm i s s lat k ops (fun j => on1 fun p => ⟨f j p, 0⟩) (meanRes d (s.kmask k))

/-! ### The matrix engine -/

/-- The first n bytes of each of the rows, a stride apart, lie within a scratchpad of the size. -/
def RowsWithin (base stride n size rows : Nat) : Prop := ∀ r, r < rows → base + stride * r + n ≤ size

/-- The bytes of an operand of so many rows or columns and so many elements along K lie in its scratchpad (R182, R189). -/
def Operand.within (o : Operand) (rows k : Nat) : Prop :=
  if o.kMajor then RowsWithin o.base o.stride ((fmtBits o.fmt * rows + 7) / 8) o.size k
  else RowsWithin o.base o.stride ((fmtBits o.fmt * k + 7) / 8) o.size rows

/-- The scratchpad that an operand names is the slot's own or belongs to a core of the cluster with a task of the job. -/
def State.mayRead (s : State) (nb : Nat) : Prop :=
  nb = 0 ∨ 5 * clusterOf s.core.phys + (nb - 1) = s.core.phys ∨
    ∃ b, s.me.bound = some b ∧ s.jobOn (5 * clusterOf s.core.phys + (nb - 1)) b.job = true

/-- The slot's context owns the accumulator store (R190). -/
def State.owns (s : State) : Prop :=
  s.me.cx.accown.getLsbD 63 = true ∧ s.me.cx.accown.toNat % 65536 = s.me.cx.ctxid.toNat % 65536

/-- The M and N of a shape are in range (R179). -/
def State.tileOk (s : State) (sh : U128) : Prop :=
  1 ≤ shf sh 4 ∧ shf sh 4 ≤ s.maxM ∧ 1 ≤ shf sh 5 ∧ shf sh 5 ≤ 96

/-- The shape of a product and its formats are as R189 asks. -/
def State.shapeOk (s : State) (pr : Product) (sh : U128) (gx : U64) (g : Nat) : Prop :=
  let a := s.opA sh gx s.core.tabs false
  let b := s.opB sh gx s.core.tabs false
  let N := shf sh 5
  let K := shf sh 6
  let ca := fmtClass a.fmt a.tab
  let plain (o : Operand) : Prop := o.fmt ≠ 5 ∧ o.scaled = false ∧ o.kMajor = false
  s.tileOk sh ∧ 1 ≤ K ∧ K ≤ 4096 ∧ a.fmt ≠ 7 ∧ b.fmt ≠ 7 ∧ shf sh 15 ≤ 5 ∧ shf sh 16 ≤ 5 ∧
  (if pr = .moment then a.fmt = 2 ∧ b.fmt = 6 ∧ g % 2 = 0
    else a.fmt ≠ 6 ∧ b.fmt ≠ 6 ∧ ca = fmtClass b.fmt b.tab ∧ K % classG ca = 0) ∧
  (∀ o ∈ [a, b], o.scaled = true → K % 32 = 0 ∧ o.fmt ≠ 4 ∧ o.fmt ≠ 6) ∧
  g + outGranules N (pr = .moment) ≤ granuleCount s.core ∧
  (pr = .sparseA → plain a ∧ K % 4 = 0) ∧ (pr = .sparseB → plain b ∧ K % 4 = 0)

/-- The modifiers of a product go with the class of its formats (R191). -/
def State.modsOk (s : State) (sh : U128) (gx : U64) (mods : Bool) : Prop :=
  let a := s.opA sh gx s.core.tabs false
  mods = true → fmtClass a.fmt a.tab = 2

/-- A product may execute (R189, R191): the shape, the formats, the modifiers, the bytes of the operands, of the block scales and of
the sparsity records, the cores named, and the accumulator store. -/
def State.productOk (s : State) (pr : Product) (sh : U128) (gx : U64) (g : Nat) (mods : Bool) : Prop :=
  let a := s.opA sh gx s.core.tabs false
  let b := s.opB sh gx s.core.tabs false
  let M := shf sh 4
  let N := shf sh 5
  let K := shf sh 6
  let nibs := (if a.scaled then M * (K / 32) else 0) + (if b.scaled then N * (K / 32) else 0)
  s.shapeOk pr sh gx g ∧ s.modsOk sh gx mods ∧
  a.within M (if pr = .sparseA then K / 2 else K) ∧ b.within N (if pr = .sparseB then K / 2 else K) ∧
  ((a.scaled || b.scaled) = true → shf sh 3 * 1024 + (nibs + 1) / 2 ≤ s.splSize) ∧
  (pr = .sparseA → shf sh 2 * 1024 + (M * (K / 4) + 1) / 2 ≤ s.splSize) ∧
  (pr = .sparseB → shf sh 2 * 1024 + (N * (K / 4) + 1) / 2 ≤ s.splSize) ∧
  s.mayRead (shf sh 15) ∧ s.mayRead (shf sh 16) ∧ s.owns

/-- x is the first byte outside a scratchpad of the size, of the first n bytes of each of the rows, a stride apart (R189). -/
def FirstOut (base stride n size rows x : Nat) : Prop :=
  ∃ r, r < rows ∧ RowsWithin base stride n size r ∧ size < base + stride * r + n ∧ x = Nat.max size (base + stride * r)

/-- x is the first byte of an operand outside its scratchpad. -/
def Operand.firstOut (o : Operand) (rows k x : Nat) : Prop :=
  if o.kMajor then FirstOut o.base o.stride ((fmtBits o.fmt * rows + 7) / 8) o.size k x
  else FirstOut o.base o.stride ((fmtBits o.fmt * k + 7) / 8) o.size rows x

/-- x is what the first of the things that has such an x gives. -/
def FirstOf (l : List (Nat → Prop)) (x : Nat) : Prop :=
  ∃ (n : Nat) (P : Nat → Prop), l[n]? = some P ∧ P x ∧
    ∀ (m : Nat) (Q : Nat → Prop), m < n → l[m]? = some Q → ∀ y, ¬ Q y

/-- The bytes that a product may name outside a scratchpad, in the order in which they are looked for (log 83). -/
def State.productOut (s : State) (pr : Product) (sh : U128) (gx : U64) : List (Nat → Prop) :=
  let a := s.opA sh gx s.core.tabs false
  let b := s.opB sh gx s.core.tabs false
  let M := shf sh 4
  let N := shf sh 5
  let K := shf sh 6
  let nibs := (if a.scaled then M * (K / 32) else 0) + (if b.scaled then N * (K / 32) else 0)
  [a.firstOut M (if pr = .sparseA then K / 2 else K), b.firstOut N (if pr = .sparseB then K / 2 else K),
   fun x => (a.scaled || b.scaled) = true ∧ FirstOut (shf sh 3 * 1024) 0 ((nibs + 1) / 2) s.splSize 1 x,
   fun x => pr = .sparseA ∧ FirstOut (shf sh 2 * 1024) 0 ((M * (K / 4) + 1) / 2) s.splSize 1 x,
   fun x => pr = .sparseB ∧ FirstOut (shf sh 2 * 1024) 0 ((N * (K / 4) + 1) / 2) s.splSize 1 x,
   fun x => ¬ s.mayRead (shf sh 15) ∧ x = a.base, fun x => ¬ s.mayRead (shf sh 16) ∧ x = b.base]

/-- The traps of an instruction that names granules from g on (R189, R190): 0x22 for its shape, then 0x02 for its modifiers,
then 0x12 with the first byte outside, then 0x30 where another context owns the accumulator store. -/
def State.granuleTraps (s : State) (i : Instr) (g : Nat) (shape mods : Prop) (out : List (Nat → Prop)) : Prop :=
  (¬ shape → exec i s = .next (s.trap 0x22 (BitVec.ofNat 64 g))) ∧
  (shape → ¬ mods → exec i s = .next (s.trapWord 0x02)) ∧
  (shape → mods → ∀ x, FirstOf out x → exec i s = .next (s.trap 0x12 (BitVec.ofNat 64 x))) ∧
  (shape → mods → (∀ P ∈ out, ∀ x, ¬ P x) → ¬ s.owns → exec i s = .next (s.trap 0x30 (BitVec.ofNat 64 g)))

/-- t is s with an instruction in the matrix queue and what it captured (R184, R40, R190): the shapes are exchanged first
under SW, and the granules that it will write are marked dirty. -/
def Entered (s t : State) (i : Instr) (sh : U128) (gx w : U64) (vec : Vec) (ms : U2) (sw : Bool)
    (granules : Nat → Prop) : Prop :=
  (∃ (d : Vector U64 32) (r : Regs),
    t = { s with me := { s.me with
      mq := s.me.mq ++ [{ op := .ins i, clamp := s.me.sp.mmode.getLsbD 2, gx := gx, shape := sh, w := w, vec := vec
                          base := 0, tabs := s.core.tabs, follow := s.me.follows, mark := s.dev.nextMsg
                          started := false }]
      follows := []
      regs := r
      cx := { s.me.cx with accdirty := d } } } ∧
    (∀ g : Nat, g < 2048 → ((d.toList.getD (g / 64) 0).getLsbD (g % 64) = true ↔
      ((s.me.cx.accdirty.toList.getD (g / 64) 0).getLsbD (g % 64) = true ∨ granules g))) ∧
    (sw = false → r = s.me.regs) ∧
    (sw = true → r = { s.me.regs with
      msL := s.me.regs.msL.set ms.toNat s.me.regs.msS[ms.toNat] ms.isLt
      msS := s.me.regs.msS.set ms.toNat s.me.regs.msL[ms.toNat] ms.isLt }))

/-- The shape an instruction of the matrix engine reads: the live one, or under SW the one that was the shadow (R40). -/
def State.liveShape (s : State) (ms : U2) (sw : Bool) : U128 :=
  if sw then s.me.regs.msS[ms.toNat] else s.me.regs.msL[ms.toNat]

/-- An instruction that enters the matrix queue: with fewer than 16 operations of the slot queued or on their way it completes with
its entry in the queue, with 16 its bundle is held, and under a false predicate it does nothing. -/
def EntersQueue (s : State) (i : Instr) (p : U3) (sh : U128) (gx w : U64) (vec : Vec) (ms : U2) (sw : Bool)
    (granules : Nat → Prop) : Prop :=
  (s.pred p = true → s.me.queueTaken < 16 → ∃ t, exec i s = .next t ∧ Entered s t i sh gx w vec ms sw granules) ∧
  (s.pred p = true → 16 ≤ s.me.queueTaken → exec i s = .next s.hold) ∧
  (s.pred p = false → exec i s = .next s)

/-- What an accumulator element becomes by the exact sum of a group's products (R93, R94, R97): NaN, an infinity, a zero with its
sign, or the sum rounded once by the mode. A group without products adds +0 (log 21). -/
def GroupAdded (rm : Nat) (ps : List FV) (old new : Nat) : Prop :=
  let x := fdecode fp32 old
  let up : Prop := FV.inf false ∈ ps
  let down : Prop := FV.inf true ∈ ps
  let nan : Prop := x.isNan = true ∨ (∃ p ∈ ps, p.isNan = true) ∨ (up ∧ down) ∨ (up ∧ x = .inf true) ∨ (down ∧ x = .inf false)
  let sum := ps.foldl (fun a p => a.add (dyOf p)) (dyOfBits fp32 old)
  (nan → new = 0x7FC00000) ∧
  (¬ nan → (up ∨ x = .inf false) → new = 0x7F800000) ∧ (¬ nan → (down ∨ x = .inf true) → new = 0xFF800000) ∧
  (¬ nan → ¬ up → ¬ down → x.isInf = false →
    (sum.n ≠ 0 → new = (fround fp32 rm false 0 sum.toEx).bits) ∧
    (sum.n = 0 → new = if x = .zero true ∧ ps ≠ [] ∧ ∀ p ∈ ps, p = .zero true then 0x80000000 else 0))

/-- A value brought through n steps, one after another. -/
def Chain {α : Type} (step : Nat → α → α → Prop) (n : Nat) (first last : α) : Prop :=
  ∃ c : Nat → α, c 0 = first ∧ c n = last ∧ ∀ g, g < n → step g (c g) (c (g + 1))

/-- The kept elements of a row or column of a sparse operand and their K indices, among the G indices from k on (R193): the two
of the group of four that its metadata nibble places, or the first alone where it places both at one index. -/
def keptOf (m : Mems) (area K r k G : Nat) : List (Nat × Nat) :=
  let n := nibble m area (r * (K / 4) + k / 4)
  let q := k / 4
  ((2 * q, 4 * q + n % 4) :: if n % 4 = n / 4 then [] else [(2 * q + 1, 4 * q + n / 4)]).filter fun p => k ≤ p.2 && p.2 < k + G

/-- Where the elements of an operand lie and what they stand for (R74 to R76, R181, R182): the operand of a shape with the
format, the first cell, the stride, the layout and scale bits, the scratchpad named, the codebook table, and the first of its
block nibbles. -/
def OperandElements (s : State) (o : Operand) (tb : Tables) (sh : U128) (fmt cell stride lay sc nb cb nib : Nat) (sgn : Bool) : Prop :=
  let core := 5 * clusterOf s.core.phys + (nb - 1)
  let pad := if nb = 0 ∨ core = s.core.phys then s.splAt 0 else splKey core 0
  let K := shf sh 6
  let half (m : Mems) (area n : Nat) : Nat := (m.byte .spl (area + n / 2)).toNat / (if n % 2 = 0 then 1 else 16) % 16
  ∀ (m : Mems) (r k : Nat),
    let row := pad + cell * 1024 + 16 * stride * (if lay = 0 then r else k)
    let at_ := if lay = 0 then k else r
    let table := tb.cb.toList.getD cb ⟨0, Vector.replicate 16 0⟩
    let entry := (table.ents.toList.getD (o.bits m r k) 0).toNat
    let v : FV := if fmt = 5 then (if table.typ.getLsbD 0 then fdecode e4m3 (entry % 256) else fdecode bf16 entry)
      else fdecode (if fmt = 0 then e4m3 else if fmt = 1 then e5m2 else if fmt = 2 then bf16 else fp16) (o.bits m r k)
    (∀ f ∈ [(0, 1), (1, 1), (2, 2), (3, 2), (4, 1), (6, 8)], fmt = f.1 →
      o.bits m r k = leNat (m.read .spl (row + f.2 * at_) f.2)) ∧
    (fmt = 5 → o.bits m r k = half m row at_) ∧
    (fmt ∈ [0, 1, 2, 3, 5] → o.val m K r k = if sc = 0 then v else
      v.mul (fdecode bf16 (tb.scale.toList.getD (half m (s.splAt (shf sh 3 * 1024)) (nib + r * (K / 32) + k / 32)) 0).toNat)) ∧
    (fmt = 4 → o.ival m r k = if sgn then Int.bmod (o.bits m r k) 256 else o.bits m r k)

/-- The element indices of A and of B whose products a group of an output element takes (R192, R193). -/
def pairsOf (pr : Product) (m : Mems) (area K i j k G : Nat) : List (Nat × Nat) :=
  match pr with
  | .sparseA => keptOf m area K i k G
  | .sparseB => (keptOf m area K j k G).map fun p => (p.2, p.1)
  | _ => (List.range G).map fun x => (k + x, k + x)

/-- An instruction's entry at the head of the queue completes, and what then holds. -/
def State.completes (s : State) (es : List MqEntry) (P : State → Prop) : Prop :=
  ∃ t : State, exec .matrixEntryComplete s = .next t ∧ t.me.mq = es ∧ t.me.regs = s.me.regs ∧ t.core = s.core ∧ P t

/-- Element (i, j) of granule g of the slot's part of the accumulator store (R42). -/
def State.accElem (s : State) (m : Mems) (g i j : Nat) : Nat :=
  m.nat .acc (accKey s.core.phys (firstGranule s.core s.me.slot1 + g) (128 * i + 4 * j)) 4

/-- The elements of the granules from g on that the predicate excludes are as before, and so is every other memory. -/
def State.accKept (s t : State) (written : Nat → Nat → Nat → Prop) : Prop :=
  (∀ g i j : Nat, i < 32 → j < 32 → ¬ written g i j → s.accElem t.mems g i j = s.accElem s.mems g i j) ∧
  ∀ (sp : Space) (k : Nat), sp ≠ .acc → t.mems.byte sp k = s.mems.byte sp k

/-! ### Collectives -/

/-- z is two elements of a collective combined once (R260): the FP32 sum rounded to nearest, the greater or the lesser of two,
where −0 is below +0 and no number gives the canonical NaN; or 32-bit integers. -/
def Combined (dtype rop x y z : Nat) : Prop :=
  let a := fdecode fp32 x
  let b := fdecode fp32 y
  let less : Prop := if dtype = 5 then Int.bmod x (2 ^ 32) < Int.bmod y (2 ^ 32) else a.lt b = true ∨ (a = .zero true ∧ b = .zero false)
  if dtype = 5 ∧ rop = 0 then z = (x + y) % 2 ^ 32
  else if rop = 0 then ∃ c : FV, Sums false a b c ∧ z = (froundV fp32 0 false 0 c).bits
  else if dtype ≠ 5 ∧ (a.isNan = true ∨ b.isNan = true) then z = 0x7FC00000
  else (less → z = if rop = 1 then y else x) ∧ (¬ less → x ≠ y → z = if rop = 1 then x else y) ∧ (x = y → z = x)

/-- z combines the values of all ranks from one rank on, in rank order (R260: ring). -/
def RingOf (dtype rop P : Nat) (v : Nat → Nat) (first z : Nat) : Prop :=
  ∃ acc : Nat → Nat, acc 0 = v (first % P) ∧
    (∀ i, i + 1 < P → Combined dtype rop (acc i) (v ((first + 1 + i) % P)) (acc (i + 1))) ∧ z = acc (P - 1)

/-- z combines the values of all ranks by levels: adjacent results with the lower rank on the left, an unpaired one passed up
(R260: tree). -/
def TreeOf (dtype rop P : Nat) (v : Nat → Nat) (z : Nat) : Prop :=
  let width (l : Nat) : Nat := (P + 2 ^ l - 1) / 2 ^ l
  ∃ lev : Nat → Nat → Nat, (∀ r, r < P → lev 0 r = v r) ∧ z = lev P 0 ∧
    ∀ l i, i < width (l + 1) →
      if 2 * i + 1 < width l then Combined dtype rop (lev l (2 * i)) (lev l (2 * i + 1)) (lev (l + 1) i)
      else lev (l + 1) i = lev l (2 * i)

/-- What a collective makes of a bucket at the member of a rank, from the bucket of every rank (R260): chunk c of the ring
begins with rank c + 1, a reduce-scatter keeps chunk r of it at member r, an all-gather holds the buckets in rank order; BF16
elements are combined in FP32 and rounded once at the end. -/
def Gathers (op dtype rop rank : Nat) (parts : List (List Byte)) (out : List Byte) : Prop :=
  let P := parts.length
  let size := if dtype = 1 then 2 else 4
  let chunk := (parts.headD []).length / P / size
  let elem (k r : Nat) : Nat := (if dtype = 1 then 65536 else 1) * bytesAt (parts.getD r []) (size * k) size
  let at_ (k x : Nat) : Prop := bytesAt out (size * k) size = if dtype = 1 then (froundV bf16 0 false 0 (fdecode fp32 x)).bits else x
  (op = 0 → out.length = P * chunk * size ∧ ∀ k, k < P * chunk → ∃ x, RingOf dtype rop P (elem k) (k / chunk + 1) x ∧ at_ k x) ∧
  (op = 1 → out.length = (parts.headD []).length ∧
    ∀ k, k < (parts.headD []).length / size → ∃ x, TreeOf dtype rop P (elem k) x ∧ at_ k x) ∧
  (op = 2 → out = parts.flatten) ∧
  (op = 3 → out.length = chunk * size ∧
    ∀ k, k < chunk → ∃ x, RingOf dtype rop P (elem (rank * chunk + k)) (rank + 1) x ∧ at_ k x)

/-! ### Memory -/

/-- What a load puts in flight of the bytes it reads (R7, R105, R212): little-endian, narrow values sign- or
zero-extended. -/
def Loaded (d : LdDst) (bs : List Byte) (r : Res) : Prop :=
  match d with
  | .narrow sz d => ∃ v : U64, r = .g d v true ∧
      if sz = 1 ∨ sz = 3 ∨ sz = 5 then v.toInt = Int.bmod (leNat bs) (2 ^ (8 * bs.length)) else v.toNat = leNat bs
  | .vec d _ _ => ∃ x : Vec, r = .v d x (BitVec.allOnes 64) ∧ x.toNat = leNat bs
  | .mom m => ∃ x : Mom, r = .m m x (BitVec.allOnes 64) ∧ x.toNat = leNat bs

/-- Bytes from a key of a memory on hold the list, and every other byte of that memory and the other memories are as
before. -/
def Wrote (m n : Mems) (sp : Space) (k : Nat) (bs : List Byte) : Prop :=
  (∀ i : Nat, i < bs.length → n.byte sp (k + i) = bs.getD i 0) ∧
  (∀ (q : Space) (x : Nat), q ≠ sp ∨ x < k ∨ k + bs.length ≤ x → n.byte q x = m.byte q x) ∧
  n.tags = m.tags ∧ n.cst = m.cst

/-- The same bytes in every memory, and the same control store; only tags may differ. -/
def Mems.onlyTags (m n : Mems) : Prop := n = { m with tags := n.tags }

/-- Nothing is under way that the slot must wait for before it reads n bytes of its scratchpad (R186, R281). -/
def State.splQuiet (s : State) (off n : Nat) : Prop :=
  s.me.drainPending off n = false ∧ s.ownPending (s.place.at off) n = false

/-- No word of n bytes of the slot's scratchpad fails (R426). -/
def State.splSound (s : State) (off n : Nat) : Prop := s.dev.failing .spl (s.place.at off) n = none

/-- A load of the slot's scratchpad (R49, R210, R212, R219), one that waits for presence or consumes it among them: what it
puts in flight, landing four bundles on; the fault that it raises there; when it is held; and the tag it clears. -/
def SplLoad (s : State) (i : Instr) (d : LdDst) (a : U64) (wt cons : Bool) : Prop :=
  let n := ldBytes d
  let off := a.toNat
  let cell := s.place.cell off
  let failed (code : Byte) : Prop :=
    exec i s = .next (s.issueLoad 4 (ldNone d) (some ⟨0, 0, s.me.iss.bpc, .failed code a, none⟩))
  if off % ldAlign d ≠ 0 then failed 0x10
  else if s.splSize < off + n then failed 0x12
  else if (wt = true ∨ cons = true) ∧ off / 1024 ≠ (off + n - 1) / 1024 then failed 0x10
  else if s.me.drainPending off n = true ∨ (cons = false ∧ s.ownPending (s.place.at off) n = true) then
    exec i s = .next s.hold
  else s.ownPending (s.place.at off) n = false → s.splSound off n → cell ∉ s.dev.badTags → s.dev.weak = [] →
    if wt = true ∧ (s.mems.tag cell).full = false then exec i s = .next s.hold
    else ∃ (r : Res) (t : State), exec i s = .next t ∧ Loaded d (s.mems.read .spl (s.place.at off) n) r ∧
      t.me = s.me.push ⟨4, false, s.me.iss.slot, 0, r, none⟩ ∧ (cons = false → t = s.issueLoad 4 r none) ∧
      s.mems.onlyTags t.mems ∧ ∀ c : Nat, t.mems.tag c =
        if cons = true ∧ c = cell then { s.mems.tag c with full := false, count := 0 } else s.mems.tag c

/-- A write of the slot into its own scratchpad (R186, R210, R215, R427): the trap of an address that is not aligned or not
inside; the bundle held while bytes of it are under way; the trap at a word that fails; the bytes, where no engine is still to
read some of them, and what becomes of them where one is. -/
def SplWrite (s : State) (i : Instr) (a : U64) (align : Nat) (bs : List Byte) (bad : Option Nat) (late : Prop) : Prop :=
  let off := a.toNat
  if off % align ≠ 0 then exec i s = .next (s.trap 0x10 a)
  else if s.splSize < off + bs.length then exec i s = .next (s.trap 0x12 a)
  else if s.me.drainPending off bs.length = true ∨ s.ownPending (s.place.at off) bs.length = true then exec i s = .next s.hold
  else if s.readAhead off bs.length = true then bad = none → late
  else if bad ≠ none then
    ∃ t, exec i s = .next t ∧ t.me = (s.trap 0x40 a).me ∧ ∀ x : Nat, t.mems.byte .spl x = s.mems.byte .spl x
  else s.dev.weak = [] →
    ∃ t, exec i s = .next t ∧ Wrote s.mems t.mems .spl (s.place.at off) bs ∧
      t.me = { s.me with watch := t.me.watch } ∧ t.core = s.core

/-- The message of a store of the slot that its own port holds until an engine has read the bytes (R186, R255). -/
def State.ownStore (s : State) (a : U64) (bs : List Byte) : Msg :=
  { s.blank .own with path := 5, core := s.core.phys, slot1 := s.me.slot1, addr := a.toNat, data := bs, raddr := a }

/-- t is s with messages appended in issue order under the next numbers, wherever the tokens let each of them stand. -/
def PostedAll (s t : State) (ms : List Msg) : Prop :=
  t = { s with dev := t.dev } ∧ t.dev.nextMsg = s.dev.nextMsg + ms.length ∧
  ∃ st : Nat → Stage, t.dev.net = s.dev.net ++
    (ms.zipIdx.map fun x => { x.1 with id := s.dev.nextMsg + x.2, stage := st x.2 })

/-- An instruction completes by sending messages. -/
def Sends (i : Instr) (s : State) (ms : List Msg) : Prop := ∃ t, exec i s = .next t ∧ PostedAll s t ms

/-- A store (R215, R427): a word that it covers in part alone must not fail, and while an engine is still to read bytes of it the
port holds it. -/
def SplStore (s : State) (i : Instr) (a : U64) (align : Nat) (bs : List Byte) : Prop :=
  SplWrite s i a align bs (s.dev.partFailing .spl (s.place.at a.toNat) bs.length) (Sends i s [s.ownStore a bs])

/-- A barrier object rewritten (R232): its word is read too, and while an engine is still to read it the bundle is held, by the
model's choice (log 68). -/
def BarrierWrite (s : State) (i : Instr) (a : U64) (bs : List Byte) : Prop :=
  SplWrite s i a 8 bs (s.dev.failing .spl (s.place.at a.toNat) bs.length) (exec i s = .next s.hold)

/-- t is s with a timed load on its way (R50, R51): a landing entry that waits for data, and the message that fetches it. -/
def LoadsFrom (s t : State) (d : LdDst) (n : Nat) (m : Msg) : Prop :=
  ∃ st : Stage, t.dev.net = s.dev.net ++ [{ m with id := s.dev.nextMsg, stage := st }] ∧
    t.me = { s.me.push ⟨n, false, s.me.iss.slot, 0, ldResult d [],
        some ⟨s.me.loadId, ldUnits d, s.me.iss.bpc, .waiting, some m.raddr⟩⟩ with
      loadId := s.me.loadId + 1 } ∧ t.mems = s.mems ∧ t.core = s.core

/-- The bytes of an access to HBM or host memory lie within one 64 KiB page that the core's TLB holds, and the page allows a write
there (R210, R394, R396). -/
def State.onPage (s : State) (p : Pte) (a : U64) (n : Nat) (host : Option Bool) : Prop :=
  a.toNat + n ≤ 2 ^ 48 ∧ a.toNat / 65536 = (a.toNat + n - 1) / 65536 ∧ 0 < n ∧
    s.dev.coreHit s.core.phys s.ctx (pageBase a.toNat) = some p ∧ p.va ≤ a.toNat ∧ a.toNat + n ≤ p.va + p.size ∧
    s.failedWalk false (pageBase a.toNat) = none ∧ p.denies ⟨s.me.priv, true, false, host⟩ = none

/-! ### Waiting -/

/-- %wstat written with L = 1 (R230): the outcome in bits [7:0], the value seen in bits [39:8]. -/
def Reports (s t : State) (value outcome : Nat) : Prop :=
  ∃ w : U64, w.toNat = value * 256 + outcome ∧ t = s.issue 1 (.spr 0x011 0 w (BitVec.allOnes 64)) 0

/-- A wait on n bytes of the slot's scratchpad at its first evaluation (R227, R228): trapped, held and watching until a write
makes the condition hold, or, when it holds, completed unless an error response is recorded. -/
def Waits (s : State) (i : Instr) (a : U64) (n : Nat) (c : Await) (now : Option (Nat × Nat)) : Prop :=
  if a.toNat % n ≠ 0 then exec i s = .next (s.trap 0x10 a)
  else if s.splSize < a.toNat + n then exec i s = .next (s.trap 0x12 a)
  else if s.me.drainPending a.toNat n = true ∨ s.ownPending (s.place.at a.toNat) n = true then exec i s = .next s.hold
  else s.splSound a.toNat n → s.me.watch = none → s.dev.weak = [] →
    match now with
    | none => exec i s = .next { s with me := { s.hold.me with watch := some ⟨s.place.at a.toNat, c, none⟩ } }
    | some (value, outcome) => ∃ t, exec i s = .next t ∧
        if s.me.sp.rfault.getLsbD 63 then t = s.trap (s.me.sp.rfault.extractLsb' 8 8) s.me.sp.rfaddr
        else Reports s t value outcome
/-! ### Events -/

/-- The answer to a message is on its way; every other message stands where it stood. -/
def Answered (s t : State) (n : Nat) (code : Byte) (free : Nat) : Prop :=
  t.dev.net = s.dev.net.map fun x => if x.id = n then { x with stage := .answered code free } else x

/-- The message with the number is gone, every other one stands where it stood. -/
def Left (s t : State) (n : Nat) : Prop := t.dev.net = s.dev.net.filter fun x => x.id != n

/-- A message was sent by the slot whose turn it is, and the context that sent it is still bound there. -/
def State.sentHere (s : State) (m : Msg) : Prop :=
  m.src = .slot s.core.phys s.me.slot1 ∧ ∃ b, s.me.bound = some b ∧ b.ctx = m.ctx

/-- A write into a scratchpad that also changes the presence tag of one cell. -/
def WroteTagged (m n : Mems) (k : Nat) (bs : List Byte) (c : Nat) (tag : Tag) : Prop :=
  Wrote m { n with tags := m.tags } .spl k bs ∧ ∀ x : Nat, n.tag x = if x = c then tag else m.tag x

/-- What a marked, looping or ending macro step makes of the sequencer (R269). -/
def MacroAdvanced (e : U128) (m n : MacroRegs) : Prop :=
  let sel := e.toNat / 2 ^ 89 % 4
  let count (x : U64) : Nat := x.toNat / 2 ^ (16 * sel) % 65536
  n.spc = m.spc + 1 ∧ n.marked = e.getLsbD 77 ∧ n.addr = m.addr ∧ n.next = m.next ∧
  (if e.getLsbD 88 = true ∧ 1 < count m.mlc then
    n.mpc.toNat = 2 ^ 63 + e.toNat / 2 ^ 78 % 1024 ∧ count n.mlc = count m.mlc - 1
   else
    (if e.getLsbD 88 then count n.mlc = Nat.max 1 (count m.mlinit) else n.mlc = m.mlc) ∧
    if e.getLsbD 76 then n.mpc.getLsbD 63 = false else n.mpc.toNat = 2 ^ 63 + (m.mpc.toNat + 1) % 1024)

/-- The slot's context suspended (R364, R366): a saved context of the same identity, its slot idle and without a task. -/
def SuspendedHere (s t : State) (b : Bound) (forced : Bool) : Prop :=
  ∃ c : SavedCtx, t.dev.ctxs = s.dev.ctxs ++ [c] ∧ c.id = b.ctx ∧ c.phys = s.core.phys ∧ c.slot1 = s.me.slot1 ∧
    c.forced = forced ∧ c.thread.pend32 = forced ∧ c.thread.regs = s.me.regs ∧ c.thread.infl = s.me.infl ∧
    t.me.bound = none ∧ t.me.run = .idle ∧ t.me.cx.ctxid = 0

/-- What an atomic writes of the old value and its operands (R237); `.fadd` rounds the exact sum once to nearest, and delivers the
canonical NaN for no number. -/
def AmoValue (aop w old x y new : Nat) : Prop :=
  let sg (v : Nat) : Int := Int.bmod v (2 ^ w)
  let a := x % 2 ^ w
  match aop with
  | 0 => new = (old + x) % 2 ^ w
  | 1 => new = old &&& a
  | 2 => new = old ||| a
  | 3 => new = old ^^^ a
  | 4 => new = if sg a < sg old then a else old
  | 5 => new = if sg old < sg a then a else old
  | 6 => new = if old ≤ a then old else a
  | 7 => new = if a ≤ old then old else a
  | 8 => new = a
  | 9 => new = if old = a then y % 2 ^ w else old
  | 10 => w = 32 → ∃ c : FV, Sums false (fdecode fp32 old) (fdecode fp32 a) c ∧ new = match c with
      | .nan _ => 0x7FC00000
      | .inf z => if z then 0xFF800000 else 0x7F800000
      | .zero z => if z then 0x80000000 else 0
      | .fin v => (fround fp32 0 false 0 v.toEx).bits
  | _ => True

/-- A region of a slot is open to an entry of a message (R234, R265): enabled, of the entry's size, and granted by a segment. -/
def State.regionOpen (s : State) (m : Msg) (p : Place) : Prop :=
  (s.regionAt p m.region).en = true ∧ (s.regionAt p m.region).esz = m.esz ∧
    s.dev.segmentOk m (s.regionAt p m.region).next (s.regionAt p m.region).entry = true

/-- The pointers of a region of the executing slot count one more full entry, when the region is of that slot. -/
def TookEntry (s t : State) (m : Msg) (p : Place) : Prop :=
  p.phys = s.core.phys → p.slot1 = s.me.slot1 →
    t.me.sp = s.me.sp.setRegion m.region { s.regionAt p m.region with full := (s.regionAt p m.region).full + 1 }

/-- A pod write that this device's port accepts at a place (R301, R302): a job and a segment entry for it, the core mapped, its
context bound there, and the bytes inside its scratchpad. -/
def State.accepts (s : State) (m : Msg) (p : Place) : Prop :=
  (s.dev.job m.job).isSome = true ∧ s.dev.segmentOk m m.addr m.size = true ∧
    ∃ e, s.dev.mapped m.job m.core = some e ∧ s.placeAt e.phys e.slot1 = some p ∧ m.addr + m.size ≤ p.size ∧
      s.present e = true

/-- A command accepted with a result (R389, R390, R410, R447): journalled with KIND 1, and its completion with STATUS 0 is
the last that its queue pair has to post. -/
def Accepted (s t : State) (i : Instr) (c : Cmd) (opc : Nat) (r : U64) : Prop :=
  exec i s = .next t ∧
  (∃ j, t.dev.mgmt.journal.getLast? = some j ∧ j.kind = 1 ∧ j.fn = c.fn ∧ j.opc = opc ∧ j.cid = c.cid ∧ j.value = r) ∧
  ∀ x, t.dev.pair c.fn c.q = some x → x.error = false → x.posts.getLast? = some ⟨c.cid, x.sqHead, 0, false, r⟩

/-- A handle that has been issued to no function is now this function's handle of the object (R412). -/
def Issues (s t : State) (fn : Nat) (h : U64) (o : Obj) : Prop :=
  h ≠ 0 ∧ (∀ x ∈ s.dev.host.handles, x.1 ≠ h) ∧ t.dev.object fn h = some o

/-- A command accepted whose completion is posted later. -/
def AcceptedLater (s t : State) (i : Instr) (c : Cmd) (opc : Nat) : Prop :=
  exec i s = .next t ∧ ∃ j, t.dev.mgmt.journal.getLast? = some j ∧ j.kind = 1 ∧ j.fn = c.fn ∧ j.opc = opc ∧ j.cid = c.cid

/-- A command refused with a code: its completion carries the code, and nothing else changes. -/
def RefusedWith (s : State) (i : Instr) (c : Cmd) (st : U16) : Prop :=
  exec i s = .next { s with dev := s.dev.complete c.fn c.q c.cid st false 0 }

/-- The 24 commands of R411. -/
def IsCommand (c : Cmd) (i : Instr) : Prop :=
  i ∈ [.vfCreate c, .vfBind c, .vfUnbind c, .qpCreate c, .qpDelete c, .imageLoad c, .mapCmd c, .unmap c, .submit c, .pause c,
   .resume c, .evict c, .relocate c, .ctrReq c, .ctrRelease c, .ctrEvents c, .layout c, .partReset c, .schedSet c,
   .bucketSet c, .regionPublish c, .regionWithdraw c, .linkRotate c, .journalRead c]

/-- A direction of a link in which a rotation is under way: the receiver holds key k + 1 beside key k (R420). -/
def LinkDir.rotated (l : LinkDir) : LinkDir :=
  if l.rotating then l
  else if l.k % 2 = 1 then { l with slot0 := some (l.k + 1), rotating := true }
  else { l with slot1 := some (l.k + 1), rotating := true }

/-- The last completion that a queue pair has to post, if it is not in ERROR. -/
def Dev.lastPost (d : Dev) (fn q : Nat) (c : Completion) : Prop :=
  ∀ y, d.pair fn q = some y → y.error = false → y.posts.getLast? = some c

/-- One direction of a port. -/
def Port.half (p : Port) (outward : Bool) : LinkDir := if outward then p.out else p.inw

/-- A step changes one direction of a port that is up, and nothing else. -/
def OneDirection (i : Instr) (s : State) (port : Nat) (outward : Bool) (l : LinkDir) : Prop :=
  ∃ (t : State) (y : Port), exec i s = .next t ∧ t.me = s.me ∧ t.mems = s.mems ∧ t.dev.port port = some y ∧
    y.half outward = l ∧ y.st = .up ∧ ∀ x, s.dev.port port = some x → y.half (!outward) = x.half (!outward)

/-! ### Dispatch -/

/-- One candidate goes before another (R321). -/
def Candidate.Before (a b : Candidate) : Prop :=
  b.eprio < a.eprio ∨ (a.eprio = b.eprio ∧ (a.since < b.since ∨ (a.since = b.since ∧ (a.ord < b.ord ∨ (a.ord = b.ord ∧
    (a.node < b.node ∨ (a.node = b.node ∧ a.inst < b.inst)))))))

/-- A candidate is what a node or a suspended context of a graph offers (R320). -/
def Dev.Offers (d : Dev) (p : Part) (c : Candidate) : Prop :=
  ∃ g ∈ p.graphs, g.admitted = true ∧ g.verdict = 0 ∧ d.runs g.vf = true ∧ ∃ n : GNode, g.nodes[c.node]? = some n ∧
    c.ord = g.ord ∧ c.energy = n.energy ∧ c.isS = n.classS ∧ c.rsplit = d.splits g n ∧ c.image = g.image ∧
    c.eprio = Nat.min 7 (n.prio + (d.now - c.since) / (p.sched.q * 2700)) ∧
    ((c.cand = .fresh g.serial c.node ∧ n.st = .ready ∧ n.undisp ≠ 0 ∧ c.since = n.wait ∧ c.inst = n.instances - n.undisp ∧
        c.home = none) ∨
      ∃ x ∈ d.ctxs, c.cand = .saved x.id ∧ x.written = true ∧ x.bound.part = p.num ∧ x.bound.graph = g.serial ∧
        x.bound.node = c.node ∧ c.since = x.bound.since ∧ c.inst = x.bound.inst ∧ c.home = some (x.phys, x.slot1))

/-- A cluster is eligible for a candidate (R323, R325). -/
def State.MayTake (s : State) (p : Part) (c : Candidate) (x : Nat) : Prop :=
  x < Config.clusters ∧ p.clusters.testBit x = true ∧ (∃ phys sl, clusterOf phys = x ∧ s.freeFor p c phys sl = true) ∧
    p.chargeOf c ≤ p.balOf x ∧ p.hreqOf c ≤ p.headOf x ∧ ∀ r, p.reserve = some r → r.1 ≠ x ∨ r.2 = c.cand

/-- The place that R324 chooses for a candidate: a cluster with a half-bound row-split core first where the candidate is row-split,
then the greatest headroom, the greatest balance, the lowest number; and within it the free slot of a half-bound core first, then
the lowest index. -/
def State.Chosen (s : State) (p : Part) (c : Candidate) (cl phys : Nat) (sl : Bool) : Prop :=
  let half (x : Nat) : Prop := c.rsplit = true ∧ s.halfBound x = true
  let beside (phys : Nat) (sl : Bool) : Bool := (s.coreAt phys).any fun k => k.otherBound sl
  s.MayTake p c cl ∧ clusterOf phys = cl ∧ s.freeFor p c phys sl = true ∧
  (∀ x, s.MayTake p c x → (half x → half cl) ∧ ((half cl → half x) → x = cl ∨ p.headOf x < p.headOf cl ∨
    (p.headOf x = p.headOf cl ∧ (p.balOf x < p.balOf cl ∨ (p.balOf x = p.balOf cl ∧ cl < x))))) ∧
  ∀ phys' sl', clusterOf phys' = cl → s.freeFor p c phys' sl' = true → (beside phys' sl' = true → beside phys sl = true) ∧
    (beside phys' sl' = beside phys sl → phys < phys' ∨ (phys = phys' ∧ (sl = false ∨ sl' = true)))

/-! ### A step of the machine -/

/-- At s nothing can happen but the turn of a slot that issues the bundle b next; u is the state with everything due at the
bundle boundary landed (R332, R38). -/
def IssuesNext (s : State) (b : U128) (u : State) : Prop :=
  s.quiet ∧ ∃ c f : State, s.clock = .next c ∧ c.me.free ∧ c.rowsUnsent = false ∧ c.fetch = (.bundle b, f) ∧ f.me.free ∧
    f.land.me.inMacro = false ∧ u = { f.land with me := f.land.me.begin 0 0 false }

/-- The slots named execute one after another: each decodes, no word that it reads fails, and each issues (R20, R280,
R427). -/
inductive IssuesSlots (b : U128) : List Nat → State → State → Prop
  | nil (s : State) : IssuesSlots b [] s s
  | cons {k : Nat} {ks : List Nat} {s t u : State} (d : Decoded)
      (dec : decode (!isS s.core.phys) (slotEnc b k) = .ok d)
      (sound : s.badSource d = none)
      (run : exec d.instr { s with me := s.me.atSlot (slotEnc b k) } = .next t) (ok : t.me.iss.res = .issued)
      (more : IssuesSlots b ks t u) : IssuesSlots b (k :: ks) s u

/-- The order in which the words of a bundle act: the header first, else slot order with control last (R103, R280). -/
def wordOrder (b : U128) : List Nat := if bundleHdr b then [0, 1, 2, 3] else slotOrder b

/-- A bundle without a header in which slot k alone holds a word. -/
def onlySlot (b : U128) (k : Nat) : Prop :=
  k < 4 ∧ bundleHdr b = false ∧ ∀ i, i < 4 → i ≠ k → bundleWord b i = 0

end Sys2Proof.Machine
end

