-- ==== Sys2Proof/Certificates/Slice0/Obligations.lean ====
section
/-! DEFINITION. The statements about the K16 model, for the provers. -/
open Sys2Proof Sys2Proof.Machine

/-! ### Scalar instructions -/

/-- R124: the value of every two-source form that does not saturate or divide, its latency, and that it sets no flag. -/
def Obligations.TwoSourceIntegerResults : Prop :=
  Scalar2 .add 1 (fun x y v => v.toNat = (x.toNat + y.toNat) % 2 ^ 64) ∧
  Scalar2 .sub 1 (fun x y v => (v.toNat : Int) = ((x.toNat : Int) - y.toNat) % 2 ^ 64) ∧
  Scalar2 .and 1 (fun x y v => ∀ i, v.getLsbD i = (x.getLsbD i && y.getLsbD i)) ∧
  Scalar2 .or 1 (fun x y v => ∀ i, v.getLsbD i = (x.getLsbD i || y.getLsbD i)) ∧
  Scalar2 .xor 1 (fun x y v => ∀ i, v.getLsbD i = (x.getLsbD i ^^ y.getLsbD i)) ∧
  Scalar2 .andn 1 (fun x y v => ∀ i, v.getLsbD i = (x.getLsbD i && !y.getLsbD i)) ∧
  Scalar2 .sll 1 (fun x y v => v.toNat = x.toNat * 2 ^ (y.toNat % 64) % 2 ^ 64) ∧
  Scalar2 .srl 1 (fun x y v => v.toNat = x.toNat / 2 ^ (y.toNat % 64)) ∧
  Scalar2 .sra 1 (fun x y v => v.toInt = x.toInt / 2 ^ (y.toNat % 64)) ∧
  Scalar2 .ror 1 (fun x y v => ∀ i, i < 64 → v.getLsbD i = x.getLsbD ((i + y.toNat % 64) % 64)) ∧
  Scalar2 .min 1 (fun x y v => v.toInt = Min.min x.toInt y.toInt) ∧
  Scalar2 .max 1 (fun x y v => v.toInt = Max.max x.toInt y.toInt) ∧
  Scalar2 .minu 1 (fun x y v => v.toNat = Min.min x.toNat y.toNat) ∧
  Scalar2 .maxu 1 (fun x y v => v.toNat = Max.max x.toNat y.toNat) ∧
  Scalar2 .slt 1 (fun x y v => v.toNat = if x.toInt < y.toInt then 1 else 0) ∧
  Scalar2 .sltu 1 (fun x y v => v.toNat = if x.toNat < y.toNat then 1 else 0) ∧
  Scalar2 .addw 1 (fun x y v => v.toInt = Int.bmod ((x.toNat : Int) + y.toNat) (2 ^ 32)) ∧
  Scalar2 .subw 1 (fun x y v => v.toInt = Int.bmod ((x.toNat : Int) - y.toNat) (2 ^ 32)) ∧
  Scalar2 .sllw 1 (fun x y v => v.toInt = Int.bmod ((x.toNat : Int) * 2 ^ (y.toNat % 32)) (2 ^ 32)) ∧
  Scalar2 .srlw 1 (fun x y v => v.toInt = Int.bmod ((x.toNat : Int) % 2 ^ 32 / 2 ^ (y.toNat % 32)) (2 ^ 32)) ∧
  Scalar2 .sraw 1 (fun x y v => v.toInt = Int.bmod (x.toNat : Int) (2 ^ 32) / 2 ^ (y.toNat % 32)) ∧
  Scalar2 .mul 3 (fun x y v => v.toNat = x.toNat * y.toNat % 2 ^ 64) ∧
  Scalar2 .mulh 3 (fun x y v => v.toInt = x.toInt * y.toInt / 2 ^ 64) ∧
  Scalar2 .mulhu 3 (fun x y v => v.toNat = x.toNat * y.toNat / 2 ^ 64) ∧
  Scalar2 .mulhsu 3 (fun x y v => v.toInt = x.toInt * (y.toNat : Int) / 2 ^ 64) ∧
  Scalar2 .mulw 3 (fun x y v => v.toInt = Int.bmod ((x.toNat : Int) * y.toNat) (2 ^ 32)) ∧
  Scalar2 .setdev 1 (fun x y v => ∀ i, i < 64 → v.getLsbD i = if 54 ≤ i then y.getLsbD (i - 54) else x.getLsbD i) ∧
  Scalar2 .setcore 1 (fun x y v =>
    ∀ i, i < 64 → v.getLsbD i = if 46 ≤ i ∧ i < 54 then y.getLsbD (i - 46) else x.getLsbD i) ∧
  (∀ sh : U4, Scalar2 (fun d a b => .adds d a b sh) 1
    (fun x y v => v.toNat = (x.toNat + y.toNat * 2 ^ sh.toNat) % 2 ^ 64))

/-- R125: the saturating forms deliver the exact result brought into range and set SAT exactly when the two differ; no other
form of R124 sets a flag or traps on its data; and division and remainder, with their results for a zero divisor and for the
overflow. -/
def Obligations.SaturationAndDivision : Prop :=
  (Saturates .addsat 1 (-2 ^ 63) (2 ^ 63 - 1) (fun x y => x.toInt + y.toInt) (fun v => v.toInt) ∧
  Saturates .subsat 1 (-2 ^ 63) (2 ^ 63 - 1) (fun x y => x.toInt - y.toInt) (fun v => v.toInt) ∧
  Saturates .addsatw 1 (-2 ^ 31) (2 ^ 31 - 1) (fun x y => low32 x + low32 y) (fun v => v.toInt) ∧
  Saturates .subsatw 1 (-2 ^ 31) (2 ^ 31 - 1) (fun x y => low32 x - low32 y) (fun v => v.toInt) ∧
  Saturates .mulsatw 3 (-2 ^ 31) (2 ^ 31 - 1) (fun x y => low32 x * low32 y) (fun v => v.toInt) ∧
  Saturates .addsatu 1 0 (2 ^ 64 - 1) (fun x y => (x.toNat : Int) + y.toNat) (fun v => v.toNat) ∧
  Saturates .subsatu 1 0 (2 ^ 64 - 1) (fun x y => (x.toNat : Int) - y.toNat) (fun v => v.toNat)) ∧
  (∀ c ∈ [Instr.add, .sub, .and, .or, .xor, .andn, .sll, .srl, .sra, .ror, .min, .max, .minu, .maxu, .slt, .sltu, .addw,
      .subw, .sllw, .srlw, .sraw, .mul, .mulh, .mulhu, .mulhsu, .mulw, .div, .divu, .rem, .remu],
    ∀ (d : Dst) (a b : Src) (p : U3) (s : State), ∃ (lat : Nat) (v : U64), exec (c d a b p) s = .next (s.issueG lat d p v 0)) ∧
  Scalar2 .div 24 (fun x y v => if y = 0 then v.toInt = -1
    else if x = 0x8000000000000000 ∧ y.toInt = -1 then v = 0x8000000000000000 else v.toInt = Int.tdiv x.toInt y.toInt) ∧
  Scalar2 .divu 24 (fun x y v => if y = 0 then v = 0xFFFFFFFFFFFFFFFF else v.toNat = x.toNat / y.toNat) ∧
  Scalar2 .rem 24 (fun x y v => if y = 0 then v = x
    else if x = 0x8000000000000000 ∧ y.toInt = -1 then v = 0 else v.toInt = Int.tmod x.toInt y.toInt) ∧
  Scalar2 .remu 24 (fun x y v => if y = 0 then v = x else v.toNat = x.toNat % y.toNat)

/-- R126, R127, R128: the immediate forms, with the immediate's value as R100 gives it. -/
def Obligations.ImmediateResults : Prop :=
  (∀ i : U11, (Imm.narrow i).val.toInt = i.toInt) ∧
  (∀ (x : Byte) (i : U11), (Imm.wide x i).val.toInt = (x ++ i).toInt) ∧
  ScalarI .addi (fun x m v => v.toNat = (x.toNat + m.toNat) % 2 ^ 64) ∧
  ScalarI .andi (fun x m v => ∀ i, v.getLsbD i = (x.getLsbD i && m.getLsbD i)) ∧
  ScalarI .ori (fun x m v => ∀ i, v.getLsbD i = (x.getLsbD i || m.getLsbD i)) ∧
  ScalarI .xori (fun x m v => ∀ i, v.getLsbD i = (x.getLsbD i ^^ m.getLsbD i)) ∧
  (∀ (d : Dst) (m : Imm) (p : U3) (s : State), exec (.ldi d m p) s = .next (s.issueG 1 d p m.val 0)) ∧
  (∀ (d : Dst) (a : Src) (i : U11) (p : U3) (s : State), ∃ v : U64,
    exec (.ldis d a (.narrow i) p) s = .next (s.issueG 1 d p v 0) ∧
      v.toNat = ((s.src a).toNat * 2 ^ 16 % 2 ^ 64) ||| i.toNat) ∧
  (∀ (d : Dst) (a : Src) (x : Byte) (i : U11) (p : U3) (s : State), x.toNat < 32 → ∃ v : U64,
    exec (.ldis d a (.wide x i) p) s = .next (s.issueG 1 d p v 0) ∧
      v.toNat = ((s.src a).toNat * 2 ^ 16 % 2 ^ 64) + x.toNat * 2 ^ 11 + i.toNat) ∧
  (∀ sh : U6, Scalar1 (fun d a => .slli d a sh) (fun x v => v.toNat = x.toNat * 2 ^ sh.toNat % 2 ^ 64) ∧
    Scalar1 (fun d a => .srli d a sh) (fun x v => v.toNat = x.toNat / 2 ^ sh.toNat) ∧
    Scalar1 (fun d a => .srai d a sh) (fun x v => v.toInt = x.toInt / 2 ^ sh.toNat) ∧
    Scalar1 (fun d a => .rori d a sh) (fun x v => ∀ i, i < 64 → v.getLsbD i = x.getLsbD ((i + sh.toNat) % 64))) ∧
  (∀ sh : U5, Scalar1 (fun d a => .slliw d a sh) (fun x v => v.toInt = Int.bmod ((x.toNat : Int) * 2 ^ sh.toNat) (2 ^ 32)) ∧
    Scalar1 (fun d a => .srliw d a sh)
      (fun x v => v.toInt = Int.bmod ((x.toNat : Int) % 2 ^ 32 / 2 ^ sh.toNat) (2 ^ 32)) ∧
    Scalar1 (fun d a => .sraiw d a sh) (fun x v => v.toInt = Int.bmod (x.toNat : Int) (2 ^ 32) / 2 ^ sh.toNat) ∧
    Scalar1 (fun d a => .roriw d a sh)
      (fun x v => ∀ i, i < 64 → v.getLsbD i = x.getLsbD ((Min.min i 31 + sh.toNat) % 32)))

/-- R129, R130: compares and the moves and combinations of predicates and lane masks, under a true and a false predicate. -/
def Obligations.PredicateResults : Prop :=
  (∀ (x y : U64), Compares 0 x y (x.toNat = y.toNat) ∧ Compares 1 x y (x.toNat ≠ y.toNat) ∧
    Compares 2 x y (x.toInt < y.toInt) ∧ Compares 3 x y (x.toInt ≥ y.toInt) ∧ Compares 4 x y (x.toNat < y.toNat) ∧
    Compares 5 x y (x.toNat ≥ y.toNat) ∧ Compares 6 x y ((x.toNat &&& y.toNat) ≠ 0) ∧
    Compares 7 x y ((x.toNat &&& y.toNat) = 0)) ∧
  (∀ (pd cond : U3) (a b : Src) (p : U3) (s : State),
    exec (.cmp pd cond 0 a b p) s = .next (s.issueP pd p (condHolds cond (s.src a) (s.src b))) ∧
    exec (.cmp pd cond 1 a b p) s = .next (s.issueP pd p (s.pred pd && condHolds cond (s.src a) (s.src b))) ∧
    exec (.cmp pd cond 2 a b p) s = .next (s.issueP pd p (s.pred pd || condHolds cond (s.src a) (s.src b)))) ∧
  (∀ (pd cond : U3) (a : Src) (m : Imm) (p : U3) (s : State),
    exec (.cmpi pd cond a m p) s = .next (s.issueP pd p (condHolds cond (s.src a) m.val))) ∧
  (∀ (pd pa pb p : U3) (s : State),
    exec (.pand pd pa pb p) s = .next (s.issueP pd p (s.pred pa && s.pred pb)) ∧
    exec (.por pd pa pb p) s = .next (s.issueP pd p (s.pred pa || s.pred pb)) ∧
    exec (.pxor pd pa pb p) s = .next (s.issueP pd p (s.pred pa ^^ s.pred pb)) ∧
    exec (.pandn pd pa pb p) s = .next (s.issueP pd p (s.pred pa && !s.pred pb))) ∧
  (∀ (pd kd : U3) (a : Src) (p : U3) (s : State),
    exec (.pfromg pd a p) s = .next (s.issueP pd p (decide ((s.src a).toNat ≠ 0))) ∧
    exec (.kfromg kd a p) s = .next (s.issue 1 (.k kd (s.src a) (if s.pred p then BitVec.allOnes 64 else 0)) 0)) ∧
  (∀ (d : Dst) (ka pa p : U3) (s : State),
    exec (.gfromk d ka p) s = .next (s.issueG 1 d p (s.kmask ka) 0) ∧
    exec (.gfromp d pa p) s = .next (s.issueG 1 d p (if s.pred pa then 1 else 0) 0))

/-- R131, R132: select, bit fields and bit counts. -/
def Obligations.SelectAndBitFieldResults : Prop :=
  (∀ (d : Dst) (a b : Src) (ps p : U3) (s : State),
    exec (.sel d a b ps p) s = .next (s.issueG 1 d p (if s.pred ps then s.src a else s.src b) 0) ∧
    exec (.seln d a b ps p) s = .next (s.issueG 1 d p (if s.pred ps then s.src b else s.src a) 0)) ∧
  Scalar2 .bext 1 (fun x y v => v.toInt = Int.bmod ((x.toNat : Int) / 2 ^ fldPos y) (2 ^ fldLen y)) ∧
  Scalar2 .bextu 1 (fun x y v => v.toNat = x.toNat / 2 ^ fldPos y % 2 ^ fldLen y) ∧
  (∀ (d : U5) (a b : Src) (p : U3) (s : State), ∃ v : U64,
    exec (.bins d a b p) s = .next (s.issueG 1 (.reg d) p v 0) ∧
      ∀ i, i < 64 → v.getLsbD i = if fldPos (s.src b) ≤ i ∧ i < fldPos (s.src b) + fldLen (s.src b)
        then (s.src a).getLsbD (i - fldPos (s.src b)) else (s.me.regs.readG d).getLsbD i) ∧
  Scalar1 .clz (fun x v => v.toNat ≤ 64 ∧ x.toNat < 2 ^ (64 - v.toNat) ∧ (v.toNat < 64 → 2 ^ (63 - v.toNat) ≤ x.toNat)) ∧
  Scalar1 .ctz (fun x v => v.toNat ≤ 64 ∧ x.toNat % 2 ^ v.toNat = 0 ∧ (v.toNat < 64 → x.getLsbD v.toNat = true)) ∧
  Scalar1 .popc (fun x v => v.toNat = ((List.range 64).filter fun i => x.getLsbD i).length) ∧
  Scalar1 .bswap (fun x v => ∀ i, i < 64 → v.getLsbD i = x.getLsbD (8 * (7 - i / 8) + i % 8)) ∧
  Scalar1 .brev (fun x v => ∀ i, i < 64 → v.getLsbD i = x.getLsbD (63 - i))

/-- R39, R180, R243, R173: shadow writes of the shape registers and the writes of %mmode land with L = 1 and touch the
named field or bits only; under a false predicate they write nothing. -/
def Obligations.ShadowAndModeWrites : Prop :=
  (∀ (reg : U2) (fld : U5) (a : Src) (m : Imm9) (p : U3) (s : State),
    exec (.shwMs reg fld a m p) s = .next (s.issue 1 (.shp false reg fld (s.src a + m.val) (s.pred p)) 0) ∧
    exec (.shwXs reg fld a m p) s = .next (s.issue 1 (.shp true reg fld (s.src a + m.val) (s.pred p)) 0)) ∧
  (∀ (a : Src) (m : Imm9) (p : U3) (s : State),
    exec (.mmset a m p) s = .next (s.issue 1 (.spr 0x010 0 (s.src a + m.val) (if s.pred p then 7 else 0)) 0) ∧
    exec (.mmcov a m p) s = .next (s.issue 1 (.spr 0x010 0 (s.src a + m.val) (if s.pred p then 3 else 0)) 0) ∧
    exec (.mmclamp a m p) s = .next (s.issue 1 (.spr 0x010 0 ((s.src a + m.val) <<< 2) (if s.pred p then 4 else 0)) 0)) ∧
  (∀ (r : Regs) (q : Bool) (reg : U2) (f : U5) (v : U64) (j : Nat), j < 128 →
    (r.land q (.shp false reg f v true)).msS[reg.toNat].getLsbD j =
      (if (msField f).1 ≤ j ∧ j < (msField f).1 + (msField f).2 then v.getLsbD (j - (msField f).1)
        else r.msS[reg.toNat].getLsbD j) ∧
    (r.land q (.shp true reg f v true)).xsS[reg.toNat].getLsbD j =
      (if (xsField f).1 ≤ j ∧ j < (xsField f).1 + (xsField f).2 then v.getLsbD (j - (xsField f).1)
        else r.xsS[reg.toNat].getLsbD j)) ∧
  (∀ (r : Regs) (q xs : Bool) (reg : U2) (f : U5) (v : U64), r.land q (.shp xs reg f v false) = r)

/-! ### Results in flight and their landing -/

/-- R26, R27, R29, R30, R31, R33, R34, R41, R48, R156, R426: a due result lands. A scalar-class one writes its register (g0 never
changes, and a suppressed result writes none) and enters the queue, a vector-class one writes the lanes of its mask and enters the
latches, unless they were cleared behind its bundle (R35); moment, predicate, lane-mask and tile-coordinate results write their
register alone; the flags are set; nothing else changes, but that a failing word of a register that is written whole no longer
fails (log 20). -/
def Obligations.ResultsLand : Prop :=
  (∀ (s : State) (e : Infl) (d : Dst) (val : U64) (wr : Bool),
     s.me.due = some e → e.load = none → e.res = .g d val wr →
     ∃ (g : Vector U64 32) (q : Vector U64 16) (dev : Dev),
       exec .resultLanding s = .next { s with dev := dev, me := { s.me with
         infl := s.me.infl.erase e
         regs := { s.me.regs with g := g, q := q }
         sp := { s.me.sp with stat := s.me.sp.stat ||| e.stat.zeroExtend 64 }
         iss := { s.me.iss with landed := s.me.iss.landed ||| e.stat.zeroExtend 64 } } } ∧
       s.dev.onlyBad dev ∧
       (∀ r : U5, g[r.toNat] = if d = .reg r ∧ r ≠ 0 ∧ wr = true then val else s.me.regs.g[r.toNat]) ∧
       (e.noq = true → q = s.me.regs.q) ∧
       (e.noq = false →
         q[0] = (if wr then val else match d with | .reg r => s.me.regs.readG r | .tr => 0) ∧
         ∀ (i : Nat) (h : i < 15), q[i + 1] = s.me.regs.q[i])) ∧
  (∀ (s : State) (e : Infl) (d : Dst) (val : Vec) (wr : U64),
     s.me.due = some e → e.load = none → e.res = .v d val wr →
     ∃ (v : Vector Vec 32) (b : Vector Vec 3) (x : Vec) (dev : Dev),
       exec .resultLanding s = .next { s with dev := dev, me := { s.me with
         infl := s.me.infl.erase e
         regs := { s.me.regs with v := v, b := b }
         sp := { s.me.sp with stat := s.me.sp.stat ||| e.stat.zeroExtend 64 }
         iss := { s.me.iss with landed := s.me.iss.landed ||| e.stat.zeroExtend 64 } } } ∧
       s.dev.onlyBad dev ∧
       lanesFrom wr val (match d with | .reg r => s.me.regs.v[r.toNat] | .tr => 0) x ∧
       (∀ r : U5, v[r.toNat] = if d = .reg r then x else s.me.regs.v[r.toNat]) ∧
       (e.noq = true → b = s.me.regs.b) ∧
       (e.noq = false → b[0] = x ∧ b[1] = s.me.regs.b[0] ∧ b[2] = s.me.regs.b[1])) ∧
  (∀ (s : State) (e : Infl), s.me.due = some e → e.load = none → e.stat = 0 →
     (∀ (d : U4) (val : Mom) (wr : U64), e.res = .m d val wr → ∃ (m : Vector Mom 16) (dev : Dev),
       exec .resultLanding s = .next { s with dev := dev, me := { s.me with
         infl := s.me.infl.erase e, regs := { s.me.regs with m := m } } } ∧
       s.dev.onlyBad dev ∧
       (∀ r : U4, r ≠ d → m[r.toNat] = s.me.regs.m[r.toNat]) ∧
       lanesFrom wr (val.extractLsb' 0 2048) (s.me.regs.m[d.toNat].extractLsb' 0 2048) (m[d.toNat].extractLsb' 0 2048) ∧
       lanesFrom wr (val.extractLsb' 2048 2048) (s.me.regs.m[d.toNat].extractLsb' 2048 2048)
         (m[d.toNat].extractLsb' 2048 2048)) ∧
     (∀ (d : U3) (val wr : Bool), e.res = .p d val wr → ∃ p : Vector Bool 8,
       exec .resultLanding s = .next { s with me := { s.me with
         infl := s.me.infl.erase e, regs := { s.me.regs with p := p } } } ∧
       ∀ r : U3, p[r.toNat] = if r = d ∧ d ≠ 0 ∧ wr = true then val else s.me.regs.p[r.toNat]) ∧
     (∀ (d : U3) (val wr : U64), e.res = .k d val wr → ∃ k : Vector U64 8,
       exec .resultLanding s = .next { s with me := { s.me with
         infl := s.me.infl.erase e, regs := { s.me.regs with k := k } } } ∧
       (∀ r : U3, r ≠ d ∨ d = 0 → k[r.toNat] = s.me.regs.k[r.toNat]) ∧
       (d ≠ 0 → ∀ j : Nat, k[d.toNat].getLsbD j = if wr.getLsbD j then val.getLsbD j else s.me.regs.k[d.toNat].getLsbD j)) ∧
     (∀ (r : U2) (val : U64), e.res = .tc r val → ∃ tc : Vector U64 4,
       exec .resultLanding s = .next { s with me := { s.me with
         infl := s.me.infl.erase e, regs := { s.me.regs with tc := tc } } } ∧
       ∀ x : U2, tc[x.toNat] = if x = r then val &&& 0x8000FFFFFFFFFFFF else s.me.regs.tc[x.toNat]))

/-- R24, R27: the instructions that deliver results only. When one issues, every register, flag, special register,
memory byte and device field is as before; what changes is the list of results in flight, which keeps what it had, and
whether the bundle draws a random word. None of them answers with a fault or a refusal. -/
def Obligations.ResultInstructionsFrame : Prop :=
  ∀ (i : Instr) (s : State), resultOnly i = true → s.me.iss.res = .issued →
    ∃ t : State, exec i s = .next t ∧ (t.me.iss.res = .issued → s.onlyIss t ∧ s.me.iss.onlyResults t.me.iss)

/-- R29, R32: the constant registers read as the rule says whatever was written to them, and a write to one leaves every
register as it was; a result whose destination is one of them lands and leaves the register as it was, and that of g0 enters
the queue; and what each value of a six-bit scalar source field selects: the general registers, the queue by age, and the
constants −8 to 7. -/
def Obligations.OperandsRead : Prop :=
  (∀ (r : Regs) (x : U64) (b : Bool),
     r.readG 0 = 0 ∧ r.readP 0 = true ∧ r.readK 0 = BitVec.allOnes 64 ∧
     r.writeG 0 x = r ∧ r.writeP 0 b = r ∧ r.writeK 0 x = r ∧
     (∀ i j : U5, (r.writeG i x).readG j = if j = i ∧ i ≠ 0 then x else r.readG j) ∧
     (∀ i j : U3, (r.writeP i b).readP j = if j = i ∧ i ≠ 0 then b else r.readP j) ∧
     (∀ i j : U3, (r.writeK i x).readK j = if j = i ∧ i ≠ 0 then x else r.readK j)) ∧
  (∀ (r : Regs) (x w : U64) (b c noq : Bool),
     r.land noq (.g (.reg 0) x b) = (if noq then r else r.enterQ (if b then x else 0)) ∧
     r.land noq (.p 0 b c) = r ∧ r.land noq (.k 0 x w) = r) ∧
  (∀ (r : Regs) (x : U6),
     (x.toNat < 32 → r.src (srcOf x) = r.readG (x.setWidth 5)) ∧
     (∀ (_ : 32 ≤ x.toNat) (h : x.toNat < 48), r.src (srcOf x) = r.q[x.toNat - 32]) ∧
     (48 ≤ x.toNat → (r.src (srcOf x)).toInt = (x.toNat : Int) - 56))

/-- R24, R28, R44, R57, R134, R141, R233, R382, R422, R440: a write of a special register lands its value, and a register's
reserved bits stay as they were: the trap registers of R146 and R147, %stat, %mmode, the loop registers and the other registers
of R45 that software writes; core reset; what a write of RSPLIT, of the order of active loops, of a queue region, of an
accumulator transfer (whose entry captures, MASKED, the dirty bits of its range) and of the log position does, and what a value
that they do not allow does; the latch that a read of a counter's low half loads. Where it says so by the
model's choice: %accxfer on an S-core is cause 0x01 and the landing of RSPLIT acts on any core (log 27), and the values at
core reset that the spec does not give are those of log 5. -/
def Obligations.SpecialRegisterWritesLand : Prop :=
  ∀ (s : State) (v : U64),
    s.landSpr 0x008 0 v (BitVec.allOnes 64) =
      { s with me := { s.me with sp := { s.me.sp with stat := (v &&& 0xF81F) ||| s.me.iss.landed } } } ∧
    (∀ w : U64, s.landSpr 0x010 0 v w =
      { s with me := { s.me with sp := { s.me.sp with mmode :=
        if w = 0 then s.me.sp.mmode else ((v &&& w) ||| (s.me.sp.mmode &&& ~~~ w)) &&& 7 } } }) ∧
    (∀ n : Nat, n = 0x071 ∨ n = 0x074 ∨ n = 0x081 ∨ n = 0x084 →
      (s.landSpr n 0 v (BitVec.allOnes 64)).readSpr n 0 = v &&& 0xFFFFFFFFFFFFFFF0) ∧
    (∀ n : Nat, n = 0x070 ∨ n = 0x080 → (s.landSpr n 0 v (BitVec.allOnes 64)).readSpr n 0 = v &&& 0xFFF) ∧
    (∀ n : Nat, n = 0x075 ∨ n = 0x085 → (s.landSpr n 0 v (BitVec.allOnes 64)).readSpr n 0 = v) ∧
    (∀ n : Nat, 0x040 ≤ n → n < 0x058 → (s.landSpr n 0 v (BitVec.allOnes 64)).readSpr n 0 = v) ∧
    (∀ x ∈ ([(0x076, 1), (0x077, 0xFFFFFFFF), (0x078, 0x7F), (0x086, 0xFFFFFFFF), (0x011, 0xFFFFFFFF07), (0x012, 0xC00000000000FF0F), (0x018, 3),
        (0x030, 0x800000000000FFFF), (0x035, 0xFFFFFFFFFFFFF000), (0x038, 0x800000007FFFFFFF), (0x039, 0xF8000000007FFFFF),
        (0x0B0, BitVec.allOnes 64), (0x0B1, 0xFFFFFFFFFFFFFFF1), (0x0D0, 0xFFFF), (0x0D8, BitVec.allOnes 64),
        (0x0D9, BitVec.allOnes 64), (0x0E8, 0x8000FFFFFFFFFFFF)] : List (Nat × U64)),
      (s.landSpr x.1 0 v (BitVec.allOnes 64)).readSpr x.1 0 = v &&& x.2 ∧
      s.landSpr x.1 0 v (BitVec.allOnes 64) =
        { s with me := { s.me with
          trap := (s.landSpr x.1 0 v (BitVec.allOnes 64)).me.trap, sp := (s.landSpr x.1 0 v (BitVec.allOnes 64)).me.sp
          cx := (s.landSpr x.1 0 v (BitVec.allOnes 64)).me.cx } } ∧
      ∀ m : Nat, (sprInfo s.core m).isSome = true → m ≠ x.1 → ∀ y : Nat, (s.landSpr x.1 0 v (BitVec.allOnes 64)).readSpr m y = s.readSpr m y) ∧
    s.landSpr 0x033 0 v (BitVec.allOnes 64) = s ∧
    (∀ x ∈ [(0x031, 32), (0x034, 12), (0x0E9, 145)], ∀ i y : Nat, i < x.2 →
      (s.landSpr x.1 i v (BitVec.allOnes 64)).readSpr x.1 y = if y = i then v else s.readSpr x.1 y) ∧
    (∀ n : Nat, 0x040 ≤ n → n < 0x090 → n ≠ 0x058 →
      (s.landSpr n 0 v (BitVec.allOnes 64)).me.regs = s.me.regs ∧ (s.landSpr n 0 v (BitVec.allOnes 64)).mems = s.mems) ∧
    (∃ t : State, exec .coreReset s = .next t ∧ t = { s with me := t.me, sib := t.sib, core := t.core, dev := t.dev } ∧
      s.dev.lessBad t.dev ∧
      t.me.regs.g = Vector.replicate 32 0 ∧ t.me.regs.q = Vector.replicate 16 0 ∧ t.me.regs.v = Vector.replicate 32 0 ∧
      t.me.regs.b = Vector.replicate 3 0 ∧ t.me.regs.m = Vector.replicate 16 0 ∧
      (∀ i : U3, t.me.regs.readP i = (i == 0) ∧ t.me.regs.readK i = if i = 0 then BitVec.allOnes 64 else 0) ∧
      t.me.regs.tc = Vector.replicate 4 0x8000000000000000 ∧ t.me.infl = [] ∧ t.me.f0 = none ∧ t.me.f1 = none ∧
      t.me.bound = none ∧ t.me.rnq.length = 64 ∧ t.core.rsplit = false ∧ t.core.phys = s.core.phys) ∧
    (∀ w : Bool, (w = s.core.rsplit → exec (.rsplitWrite w) s = .next s) ∧
      (w ≠ s.core.rsplit → ∃ t : State, exec (.rsplitWrite w) s = .next t ∧
        t = { s with me := t.me, sib := t.sib, core := { s.core with rsplit := w, turn1 := false }, dev := t.dev } ∧
        s.dev.lessBad t.dev ∧
        t.me.regs = Regs.reset ∧ t.sib.regs = Regs.reset ∧ t.me.infl = [] ∧ t.sib.infl = [] ∧ t.me.pc = s.me.pc ∧
        t.me.rnq.length = if w then 32 else 64)) ∧
    exec (.lactWrite v) s = .next (if lactOk v = true then
        { s with me := { s.me with loop := { s.me.loop with
          lact := v &&& BitVec.ofNat 64 (2 ^ (8 + 3 * ((List.range 8).countP fun n => v.getLsbD n)) - 1) } } }
      else s.trapWord 0x02) ∧
    (∀ n : U4,
      let e := 16 * 2 ^ (v.toNat / 2 ^ 40 % 8)
      let base := v.toNat % 2 ^ 20
      let size := v.toNat / 2 ^ 20 % 2 ^ 20
      let ok := v.toNat / 2 ^ 40 % 8 ≤ 6 ∧ base % e = 0 ∧ size % e = 0 ∧ 2 * e ≤ size ∧ base + size ≤ s.splSize
      exec (.qcfgWrite n v) s = .next { s with
        dev := { s.dev with badTags := s.dev.badTags.filter (· != regionKey (slotNo s.core.phys s.me.slot1) n.toNat) }
        me := { s.me with sp := { s.me.sp with
          qcfg := s.me.sp.qcfg.set n.toNat (v &&& (if ok then 0x800007FFFFFFFFFF else 0x7FFFFFFFFFF)) n.isLt
          qptr := s.me.sp.qptr.set n.toNat 0 n.isLt } } }) ∧
    (∀ n : U4,
      let cfg := s.me.sp.qcfg[n.toNat].toNat
      let cap := cfg / 2 ^ 20 % 2 ^ 20 / (16 * 2 ^ (cfg / 2 ^ 40 % 8))
      let ok := if cfg / 2 ^ 63 = 1 then
          v.toNat % 65536 < cap ∧ v.toNat / 2 ^ 32 % 65536 + v.toNat / 65536 % 65536 ≤ cap
        else v.toNat % 2 ^ 48 = 0
      exec (.qptrWrite n v) s = .next (if ok then
          { s with
            dev := { s.dev with badTags := s.dev.badTags.filter (· != regionKey (slotNo s.core.phys s.me.slot1) n.toNat) }
            me := { s.me with sp := { s.me.sp with
              qptr := s.me.sp.qptr.set n.toNat (v &&& 0xFFFFFFFFFFFF) n.isLt } } }
        else s.trapWord 0x02)) ∧
    (let first := v.toNat % 2 ^ 11
     let more := v.toNat / 2 ^ 16 % 2 ^ 11
     if isS s.core.phys then exec (.accxferWrite v) s = .next (s.trapWord 0x01)
     else if granuleCount s.core ≤ first + more then exec (.accxferWrite v) s = .next (s.trap 0x22 (BitVec.ofNat 64 first))
     else if 16 ≤ s.me.mq.length then exec (.accxferWrite v) s = .next s.hold
     else ∃ (t : State) (e : MqEntry) (m : Vector U64 32), exec (.accxferWrite v) s = .next t ∧ t = { s with me := { s.me with
         mq := s.me.mq ++ [e], follows := []
         cx := { s.me.cx with accxfer := v &&& 0xC000000007FF07FF, accdirty := t.me.cx.accdirty } } } ∧
       e.op = .xfer (v &&& 0xC000000007FF07FF) m ∧ e.base = s.me.cx.accbase ∧ e.started = false ∧ e.follow = s.me.follows ∧
       (∀ g : Nat, g < 2048 → (m.toList.getD (g / 64) 0).getLsbD (g % 64) =
         (v.getLsbD 62 && first ≤ g && g ≤ first + more &&
           (s.me.cx.accdirty.toList.getD (g / 64) 0).getLsbD (g % 64))) ∧
       ∀ g : Nat, g < 2048 → (t.me.cx.accdirty.toList.getD (g / 64) 0).getLsbD (g % 64) =
         ((s.me.cx.accdirty.toList.getD (g / 64) 0).getLsbD (g % 64) &&
           !(v.getLsbD 62 && first ≤ g && g ≤ first + more))) ∧
    (∀ p : Part, s.dev.part s.me.part = some p → ∃ t : State, exec (.elogposWrite v) s = .next t ∧
      t = { s with dev := { s.dev with parts := t.dev.parts } } ∧
      t.dev.part s.me.part = some { p with logRd := v.toNat / 65536 % 65536, logLost := 0 }) ∧
    (∀ c : Nat, exec (.ctrloRead c) s = .next { s with me := { s.me with sp := { s.me.sp with
      latch := (c, BitVec.ofNat 32 ((s.counter c).toNat / 2 ^ 32)) } } })

/-- R44, R106, R134: `mfsr` of a listed register that the level may read delivers its value with L = 1; `mtsr` of one that the
level may write and that checks nothing puts the write in flight with L = 1; an unlisted number, an index beyond the
register's words and a write of a read-only register raise cause 0x01; an access that the map does not allow at user level
raises cause 0x03; under a false predicate a write does nothing. The writes that check their value raise their cause at the
bundle: of the row-split mode (R57), the order of active loops (R141), a queue region's pointers, whose reserved bits are
ignored (R233; log 89), and an accumulator transfer (R382), which an S-core has no granules for (log 27). -/
def Obligations.SpecialRegisterAccesses : Prop :=
  (∀ (d : Dst) (n : U11) (p : U3) (s : State),
     (∀ i : SprInfo, sprInfo s.core n.toNat = some i → i.words = 0 → (s.me.priv = true ∨ i.userRead = true) →
       exec (.mfsr (dstBits d) n 0 0 p) s = .next (s.issueG 1 d p (s.readSpr n.toNat 0) 0)) ∧
     (∀ (i : SprInfo) (x : U6), sprInfo s.core n.toNat = some i → (s.src (srcOf x)).toNat < i.words → n ≠ 0x0EA →
       (s.me.priv = true ∨ i.userRead = true) →
       exec (.mfsr (dstBits d) n x 0 p) s = .next (s.issueG 1 d p (s.readSpr n.toNat (s.src (srcOf x)).toNat) 0)) ∧
     (∀ x : U6, (s.src (srcOf x)).toNat < 296 → s.pred p = true →
       exec (.mfsr (dstBits d) 0x0EA x 0 p) s =
         .next ((s.latchCounter (s.src (srcOf x)).toNat).issueG 1 d p (s.readSpr 0x0EA (s.src (srcOf x)).toNat) 0)) ∧
     (∀ x : U6, sprInfo s.core n.toNat = none → exec (.mfsr (dstBits d) n x 0 p) s = .next (s.trapWord 0x01)) ∧
     (∀ (i : SprInfo) (x : U6), sprInfo s.core n.toNat = some i → i.words ≠ 0 → i.words ≤ (s.src (srcOf x)).toNat →
       exec (.mfsr (dstBits d) n x 0 p) s = .next (s.trapWord 0x01)) ∧
     (∀ i : SprInfo, sprInfo s.core n.toNat = some i → i.words = 0 → s.me.priv = false → i.userRead = false →
       exec (.mfsr (dstBits d) n 0 0 p) s = .next (s.trapWord 0x03))) ∧
  (∀ (v : Src) (n : U11) (p : U3) (s : State) (i : SprInfo), sprInfo s.core n.toNat = some i → i.words = 0 →
     (i.write = 0 → exec (.mtsr v n 0 0 p) s = .next (s.trapWord 0x01)) ∧
     (i.write = 1 → s.me.priv = false → exec (.mtsr v n 0 0 p) s = .next (s.trapWord 0x03)) ∧
     (i.write ≠ 0 → (s.me.priv = true ∨ i.write = 2) →
       (s.pred p = false → exec (.mtsr v n 0 0 p) s = .next s) ∧
       (s.pred p = true → n ≠ 0x001 → n ≠ 0x058 → n ≠ 0x036 → ¬ (0x0A0 ≤ n.toNat ∧ n.toNat < 0x0B0) →
         exec (.mtsr v n 0 0 p) s = .next (s.issue 1 (.spr n 0 (s.src v) (BitVec.allOnes 64)) 0)))) ∧
  -- an indexed register
  (∀ (v : Src) (n : U11) (x : U6) (p : U3) (s : State) (i : SprInfo), sprInfo s.core n.toNat = some i → i.words ≠ 0 →
     let k := (s.src (srcOf x)).toNat
     (i.words ≤ k ∨ i.write = 0 → exec (.mtsr v n x 0 p) s = .next (s.trapWord 0x01)) ∧
     (k < i.words → i.write = 1 → s.me.priv = false → exec (.mtsr v n x 0 p) s = .next (s.trapWord 0x03)) ∧
     (k < i.words → i.write ≠ 0 → s.me.priv = true ∨ i.write = 2 →
       ¬ (n = 0x001 ∨ n = 0x058 ∨ n = 0x036 ∨ (0x0A0 ≤ n.toNat ∧ n.toNat < 0x0B0)) →
       exec (.mtsr v n x 0 p) s =
         .next (if s.pred p then s.issue 1 (.spr n k (s.src v) (BitVec.allOnes 64)) 0 else s))) ∧
  -- the registers whose writes check their value at the bundle
  ∀ (v : Src) (p : U3) (s : State), s.me.priv = true → s.pred p = true →
    let x := s.src v
    let writes (n : U11) : Prop := exec (.mtsr v n 0 0 p) s = .next (s.issue 1 (.spr n 0 x (BitVec.allOnes 64)) 0)
    let traps (n : U11) (code : Byte) : Prop := exec (.mtsr v n 0 0 p) s = .next (s.trapWord code)
    (let idle : Prop := isS s.core.phys = false ∧ ∀ t ∈ s.packed.slots, t.bound = none ∧ t.loads = []
     (x.getLsbD 0 = s.core.rsplit ∨ idle → writes 0x001) ∧ (x.getLsbD 0 ≠ s.core.rsplit → ¬ idle → traps 0x001 0x01)) ∧
    (let m := (List.range 8).countP fun i => x.getLsbD i
     let loop (i : Nat) : Nat := x.toNat / 2 ^ (8 + 3 * i) % 8
     let good : Prop := (∀ i, i < m → x.getLsbD (loop i) = true) ∧ ∀ i j, i < j → j < m → loop i ≠ loop j
     (good → writes 0x058) ∧ (¬ good → traps 0x058 0x02)) ∧
    (∀ r : Nat, r < 16 →
      let cfg := (s.me.sp.qcfg.toList.getD r 0).toNat
      let C := cfg / 2 ^ 20 % 2 ^ 20 / (16 * 2 ^ (cfg / 2 ^ 40 % 8))
      let head := x.toNat % 2 ^ 16
      let pops := x.toNat / 2 ^ 16 % 2 ^ 16
      let full := x.toNat / 2 ^ 32 % 2 ^ 16
      let good : Prop := if cfg / 2 ^ 63 = 1 then head < C ∧ full + pops ≤ C else x.toNat % 2 ^ 48 = 0
      (good → writes (BitVec.ofNat 11 (0x0A0 + r))) ∧ (¬ good → traps (BitVec.ofNat 11 (0x0A0 + r)) 0x02)) ∧
    (let gran := x.toNat % 2 ^ 11
     let last := gran + x.toNat / 2 ^ 16 % 2 ^ 11
     (isS s.core.phys = true → traps 0x036 0x01) ∧
     (isS s.core.phys = false → granuleCount s.core ≤ last →
       exec (.mtsr v 0x036 0 0 p) s = .next (s.trap 0x22 (BitVec.ofNat 64 gran))) ∧
     (isS s.core.phys = false → last < granuleCount s.core → 16 ≤ s.me.queueTaken → exec (.mtsr v 0x036 0 0 p) s = .next s.hold) ∧
     (isS s.core.phys = false → last < granuleCount s.core → s.me.queueTaken < 16 → writes 0x036))


/-! ### Control transfer, loops, traps and returns -/

/-- R135: when each branch, call and return is taken, where the next bundle issues, what is linked, and that an indirect
target with bits [3:0] not zero raises cause 0x10 and changes nothing else; one that is not taken has no effect but that of
R27. -/
def Obligations.BranchesTransferControl : Prop :=
  ∀ (p : U3) (off : BitVec 19) (d : Dst) (a : Src) (s : State),
    let pc := pcAddr s.me.iss.bpc
    let target := pc + 16 * off.signExtend 64
    let link := s.me.regs.readG 31
    let goes (i : Instr) (u : State) (x : U64) : Prop := ∃ t, exec i s = .next t ∧ Transferred u t ∧ pcAddr t.me.pc = x
    (s.pred p = true →
      goes (.br p off) s target ∧ exec (.brn p off) s = .next s ∧
      goes (.call p off) (s.issueG 1 (.reg 31) p (pc + 16) 0) target ∧
      ((s.src a).toNat % 16 = 0 → goes (.jr a p) s (s.src a) ∧ goes (.callr d a p) (s.issueG 1 d p (pc + 16) 0) (s.src a)) ∧
      (link.toNat % 16 = 0 → goes (.ret p) s link) ∧
      ((s.src a).toNat % 16 ≠ 0 →
        exec (.jr a p) s = .next (s.trap 0x10 (s.src a)) ∧ exec (.callr d a p) s = .next (s.trap 0x10 (s.src a))) ∧
      (link.toNat % 16 ≠ 0 → exec (.ret p) s = .next (s.trap 0x10 link))) ∧
    (s.pred p = false →
      exec (.br p off) s = .next s ∧ goes (.brn p off) s target ∧
      exec (.call p off) s = .next (s.issueG 1 (.reg 31) p (pc + 16) 0) ∧ exec (.jr a p) s = .next s ∧
      exec (.callr d a p) s = .next (s.issueG 1 d p (pc + 16) 0) ∧ exec (.ret p) s = .next s)

/-- R136, R139: a loop that starts, one whose count is zero, and one that is cleared. -/
def Obligations.LoopsStartAndClear : Prop :=
  ∀ (n p : U3) (a : Src) (last : BitVec 17) (s : State), lactOk s.me.loop.lact = true →
    let pc := pcAddr s.me.iss.bpc
    (s.src a = 0 → ∃ t, exec (.loop n a last) s = .next t ∧ Transferred s t ∧
      pcAddr t.me.pc = pc + 16 * last.zeroExtend 64 + 16) ∧
    (s.src a ≠ 0 → ∃ t, exec (.loop n a last) s = .next t ∧ onlyLoop s t ∧
        t.me.loop.lcnt[n.toNat] = s.src a ∧ t.me.loop.lbeg[n.toNat] = pc + 16 ∧
        t.me.loop.lend[n.toNat] = pc + 16 * last.zeroExtend 64 ∧
        (∀ m : U3, m ≠ n → t.me.loop.lcnt[m.toNat] = s.me.loop.lcnt[m.toNat] ∧
          t.me.loop.lbeg[m.toNat] = s.me.loop.lbeg[m.toNat] ∧ t.me.loop.lend[m.toNat] = s.me.loop.lend[m.toNat]) ∧
        loopOrder t.me.loop.lact = n.toNat :: (loopOrder s.me.loop.lact).filter (· != n.toNat) ∧
        (∀ m : U3, t.me.loop.lact.getLsbD m.toNat = (decide (m = n) || s.me.loop.lact.getLsbD m.toNat)) ∧
        lactOk t.me.loop.lact = true) ∧
    ((s.pred p = false ∨ s.me.loop.lact.getLsbD n.toNat = false) → exec (.lclr n p) s = .next s) ∧
    (s.pred p = true → s.me.loop.lact.getLsbD n.toNat = true → ∃ t, exec (.lclr n p) s = .next t ∧ onlyLoop s t ∧
        t.me.loop.lcnt[n.toNat] = 0 ∧ (∀ m : U3, m ≠ n → t.me.loop.lcnt[m.toNat] = s.me.loop.lcnt[m.toNat]) ∧
        t.me.loop.lbeg = s.me.loop.lbeg ∧ t.me.loop.lend = s.me.loop.lend ∧
        loopOrder t.me.loop.lact = (loopOrder s.me.loop.lact).filter (· != n.toNat) ∧ lactOk t.me.loop.lact = true)

/-- R137, R138: the back edge behind a bundle that took no branch. With no active loop ending there the next bundle follows;
the innermost active loop that ends there goes back while its count is more than 1; behind a taken transfer no loop is
examined. A misaligned %lbeg goes to the bundle that holds it (log 23). -/
def Obligations.LoopsTakeTheBackEdge : Prop :=
  ∀ t : Thread, t.run = .running →
    let x := pcAddr t.iss.bpc
    let ends := (loopOrder t.loop.lact).filter fun n => t.loop.lend.toList.getD n 0 == x
    (t.iss.taken = true → t.goOn = t) ∧
    (t.iss.taken = false → ends = [] → t.goOn = { t with pc := t.iss.bpc + 1 }) ∧
    (∀ (n : U3) (ns : List Nat), t.iss.taken = false → ends = n.toNat :: ns → 1 < t.loop.lcnt[n.toNat].toNat →
      t.goOn = { t with
        pc := pcOf t.loop.lbeg[n.toNat]
        loop := { t.loop with lcnt := t.loop.lcnt.set n.toNat (t.loop.lcnt[n.toNat] - 1) n.isLt } }) ∧
    (∀ n : U3, t.iss.taken = false → ends = [n.toNat] → t.loop.lcnt[n.toNat].toNat ≤ 1 →
      t.goOn = { t with
        pc := t.iss.bpc + 1
        loop := { t.loop with
          lcnt := t.loop.lcnt.set n.toNat 0 n.isLt
          lact := lactOf ((loopOrder t.loop.lact).filter (· != n.toNat)) } })

/-- R148, R149: `yield` takes cause 0x31 after its bundle when a pre-emption request is posted and PRIV is 0, with the save
budget; `trap` takes 0x04 with its operand; `brk` 0x50 with 0; `halt` starts the wait that ends the task, and a request for its
core is withdrawn (R330). Under a false
predicate none has an effect. -/
def Obligations.TrapsAfterTheBundle : Prop :=
  ∀ (p : U3) (a : Src) (s : State),
    let after (x : Byte × U64) : State := { s with me := { s.me with iss := { s.me.iss with after := some x } } }
    exec (.trap a p) s = .next (if s.pred p then after (0x04, s.src a) else s) ∧
    exec (.brk p) s = .next (if s.pred p then after (0x50, 0) else s) ∧
    exec (.yield p) s = .next
      (if s.pred p = true ∧ s.me.cx.req = true ∧ s.me.priv = false then after (0x31, s.me.budget) else s) ∧
    (∀ b : Bound, s.me.bound = some b → s.me.budget.toNat = b.budget.toNat) ∧
    exec (.halt p) s = .next (if s.pred p then
      { s with me := { s.me with run := .halting, cx := { s.me.cx with left := 0, req := false }, pend31 := false, yielded := none } }
      else s)

/-- R38, R142, R144, R145, R147: a trap that is delivered at user level, one that is delivered at supervisor level, and one
that finds no frame free: which frame captures, what the trap registers hold, PRIV, and where the handler begins; a double trap
stops the slot with the cause that could not be delivered and the faulting bundle, and no register of the slot changes, but that a
request for its core is withdrawn (R330). -/
def Obligations.TrapEntry : Prop :=
  (∀ (ev : TrapEvent) (s : State), routedToUser s.me ev.code → s.me.trap.uvec ≠ 0 → s.me.f0 = none →
     ∃ (f : Frame) (cause : U64) (iss : Iss) (dev : Dev), Captured s.me f ∧ s.dev.onlyBad dev ∧ f.tagS = false ∧
       cause.toNat = ev.code.toNat + (if ev.async then 256 else 0) + (if ev.land then 512 else 0) + 1024 * ev.slot.toNat ∧
       exec (.trapEntry ev) s = .next { s with dev := dev, me := { s.me with
         f0 := some f
         trap := { s.me.trap with
           ucause := cause, uepc := pcAddr ev.resume, ufpc := pcAddr ev.faulting, uinfo := ev.info
           ulact := s.me.loop.lact }
         pc := s.me.trap.uvec.extractLsb' 4 60
         loop := { s.me.loop with lact := 0 }
         infl := []
         regs := { s.me.regs with q := Vector.replicate 16 0, b := Vector.replicate 3 0 }
         fetchFault := none, watch := none, iss := iss } }) ∧
  (∀ (ev : TrapEvent) (s : State), ¬ (routedToUser s.me ev.code ∧ s.me.trap.uvec ≠ 0 ∧ s.me.f0 = none) →
     (s.me.f0 = none ∨ ((∃ g, s.me.f0 = some g ∧ g.tagS = false) ∧ s.me.f1 = none)) →
     ∃ (f : Frame) (cause : U64) (iss : Iss) (dev : Dev), Captured s.me f ∧ s.dev.onlyBad dev ∧ f.tagS = true ∧
       cause.toNat = ev.code.toNat + (if ev.async then 256 else 0) + (if ev.land then 512 else 0) + 1024 * ev.slot.toNat ∧
       exec (.trapEntry ev) s = .next { s with dev := dev, me := { s.me with
         f0 := if s.me.f0 = none then some f else s.me.f0
         f1 := if s.me.f0 = none then s.me.f1 else some f
         trap := { s.me.trap with
           scause := cause, sepc := pcAddr ev.resume, sfpc := pcAddr ev.faulting, sinfo := ev.info
           sprev := if s.me.priv then 1 else 0, slact := s.me.loop.lact }
         priv := true
         pc := s.me.trap.svec.extractLsb' 4 60
         loop := { s.me.loop with lact := 0 }
         infl := []
         regs := { s.me.regs with q := Vector.replicate 16 0, b := Vector.replicate 3 0 }
         fetchFault := none, watch := none, iss := iss } }) ∧
  (∀ (ev : TrapEvent) (s : State) (g : Frame), s.me.f0 = some g → (g.tagS = true ∨ s.me.f1.isSome = true) →
     ∃ (iss : Iss) (dev : Dev), s.dev.onlyBad dev ∧ exec (.trapEntry ev) s = .next { s with dev := dev, me := { s.me with
       run := .faulting ev.code ev.info ev.faulting, watch := none, iss := iss
       cx := { s.me.cx with left := 0, req := false }, pend31 := false, yielded := none } })

/-- R150, R38: `uret` and `sret`: where the program goes on, the loops, PRIV, and what the frame gives back; and when each
raises cause 0x01 or, at user level, 0x03. -/
def Obligations.ReturnsFromTraps : Prop :=
  ∀ (p : U3) (s : State), s.pred p = true →
    (s.me.priv = true ∨ s.me.top = none ∨ (∃ f, s.me.top = some f ∧ f.tagS = true) →
      exec (.uret p) s = .next (s.trapWord 0x01)) ∧
    (∀ f : Frame, s.me.priv = false → s.me.top = some f → f.tagS = false → ∃ t, exec (.uret p) s = .next t ∧
      pcAddr t.me.pc = s.me.trap.uepc &&& 0xFFFFFFFFFFFFFFF0 ∧ t.me.loop = { s.me.loop with lact := s.me.trap.ulact } ∧
        t.me.priv = s.me.priv ∧ Returned s.me t.me s.me.top ∧ t.mems = s.mems ∧
        (s.me.f1 = none → t.me.f0 = none) ∧ (s.me.f1 ≠ none → t.me.f0 = s.me.f0 ∧ t.me.f1 = none)) ∧
    (s.me.priv = false → exec (.sret p) s = .next (s.trapWord 0x03)) ∧
    (∀ f : Frame, s.me.priv = true → s.me.top = some f → f.tagS = false → exec (.sret p) s = .next (s.trapWord 0x01)) ∧
    (s.me.priv = true → (∀ f, s.me.top = some f → f.tagS = true) → ∃ t, exec (.sret p) s = .next t ∧
      pcAddr t.me.pc = s.me.trap.sepc &&& 0xFFFFFFFFFFFFFFF0 ∧ t.me.loop = { s.me.loop with lact := s.me.trap.slact } ∧
        t.me.priv = s.me.trap.sprev.getLsbD 0 ∧ Returned s.me t.me s.me.top ∧ t.mems = s.mems ∧
        (s.me.f1 = none → t.me.f0 = none) ∧ (s.me.f1 ≠ none → t.me.f0 = s.me.f0 ∧ t.me.f1 = none))

/-- R123, R106: the instructions that R148 and R152 give to supervisor code raise cause 0x03 at user level, whatever their
predicate, with the slot word as information. -/
def Obligations.SupervisorInstructionsTrapAtUserLevel : Prop :=
  ∀ (p : U3) (a : Src) (s : State), s.me.priv = false →
    ∀ i ∈ [Instr.sret p, .rbsave a p, .rbload a p, .tlbinv a p, .tlbinvctx a p, .tlbinvall p, .tlbsync p],
      exec i s = .next (s.trap 0x03 (s.me.iss.word.zeroExtend 64))

/-- R152, R398: what each removal names, that the core's own TLB loses it at once and the cluster's shared TLB is still to
lose it; `tlbsync` completes when no removal of the core is left, and until then holds the bundle; and when the oldest removal
of a cluster takes effect, the shared TLB and the cores' TLBs of that cluster lose what it names and no other entry, and nothing
else changes: no other cluster's TLB, and no walk in flight. That the core's own TLB loses the entry at once, and that a walk in
flight stands, is the model's choice (log 32). -/
def Obligations.TranslationMaintenance : Prop :=
  (∀ (p : U3) (a : Src) (s : State), s.me.priv = true → s.pred p = true →
     let gone (names : Pte → Bool) (target : Option (Nat × Option Nat)) : State :=
       { s with dev := { s.dev with
         tlb := s.dev.tlb.map fun x => if x.1 == s.core.phys then (x.1, x.2.filter fun e => !names e) else x
         removals := s.dev.removals ++ [⟨clusterOf s.core.phys, s.core.phys, s.me.slot1, target⟩] } }
     exec (.tlbinv a p) s = .next (gone (fun e => e.ctx == s.ctx && decide (e.va ≤ (s.src a).toNat) &&
       decide ((s.src a).toNat < e.va + e.size)) (some (s.ctx, some (s.src a).toNat))) ∧
     exec (.tlbinvctx a p) s = .next (gone (fun e => e.ctx == (s.src a).toNat) (some ((s.src a).toNat, none))) ∧
     exec (.tlbinvall p) s = .next (gone (fun _ => true) none) ∧
     ((∀ r ∈ s.dev.removals, r.phys ≠ s.core.phys) → exec (.tlbsync p) s = .next s) ∧
     (∀ r ∈ s.dev.removals, r.phys = s.core.phys → exec (.tlbsync p) s = .next s.hold)) ∧
  (∀ (p : U3) (a : Src) (s : State), s.me.priv = true → s.pred p = false →
     ∀ i ∈ [Instr.tlbinv a p, .tlbinvctx a p, .tlbinvall p, .tlbsync p], exec i s = .next s) ∧
  (∀ (cl : Nat) (r : Removal) (s : State), s.dev.removals.find? (fun r => r.cl == cl) = some r →
     ∃ tlb ctlb : List (Nat × List Pte),
       exec (.tlbRemovalTakesEffect cl) s = .next { s with dev := { s.dev with
         removals := s.dev.removals.erase r, tlb := tlb, ctlb := ctlb } } ∧
       (∀ (k : Nat) (e : Pte), (∃ x ∈ ctlb, x.1 = k ∧ e ∈ x.2) ↔
         (∃ x ∈ s.dev.ctlb, x.1 = k ∧ e ∈ x.2) ∧ ¬ (k = cl ∧ r.names e = true)) ∧
       (∀ (k : Nat) (e : Pte), (∃ x ∈ tlb, x.1 = k ∧ e ∈ x.2) ↔
         (∃ x ∈ s.dev.tlb, x.1 = k ∧ e ∈ x.2) ∧ ¬ (clusterOf k = cl ∧ r.names e = true)) ∧
       ∀ e : Pte, r.names e = true ↔ ∀ x, r.target = some x → e.ctx = x.1 ∧ ∀ va, x.2 = some va → e.va ≤ va ∧ va < e.va + e.size)

/-- R151: `rbdrop` frees the top frame; the loads of it that still wait for data keep their landing store until it comes;
with no frame it does nothing at PRIV 1, and at PRIV 0 that, and a frame tagged S, raise cause 0x01. -/
def Obligations.FramesAreDropped : Prop :=
  ∀ (p : U3) (s : State), s.pred p = true →
    (s.me.top = none → exec (.rbdrop p) s = .next (if s.me.priv then s else s.trapWord 0x01)) ∧
    (∀ f : Frame, s.me.top = some f → s.me.priv = false → f.tagS = true → exec (.rbdrop p) s = .next (s.trapWord 0x01)) ∧
    (∀ f : Frame, s.me.top = some f → (s.me.priv = true ∨ f.tagS = false) → ∃ o : List Load,
      exec (.rbdrop p) s = .next { s with me := { s.me.freeTop with orphans := s.me.orphans ++ o } } ∧
      ∀ l : Load, l ∈ o ↔ l.phase = .waiting ∧ ∃ e ∈ f.infl, e.load = some l)

/-! ### Vector instructions -/

/-- R65, R66, R68, R70, R73: the value of every pattern of the five formats, and one rounding. The result overflows exactly when the
exact value, rounded as if the exponent range were unbounded, exceeds the largest finite one; OF is then set, and the result is the
largest finite value of the sign where saturation or a mode that points toward zero asks for it, else the infinity, or the NaN of
E4M3. Otherwise the result is a finite value of the format with the sign of the exact one and no value of the format between;
toward zero, upward and downward it lies on the side that the mode says; to nearest no value of the format is nearer, and at a tie
it is the even one; rounding at random takes the higher neighbour exactly when the draw is below the number of 65536ths by which the
exact value exceeds the lower. NX is set when the two differ, and UF beside it when the exact value rounded as if the exponent range
were unbounded lies below the smallest normal. -/
def Obligations.RoundingChoosesTheAdjacentValue : Prop :=
  (∀ f ∈ [(fp32, 8, 23, 127), (bf16, 8, 7, 127), (fp16, 5, 10, 15), (e4m3, 4, 3, 7), (e5m2, 5, 2, 15)], ∀ (s : Bool) (e m : Nat),
    e < 2 ^ f.2.1 → m < 2 ^ f.2.2.1 → FieldsDecode f.1 f.2.1 f.2.2.1 f.2.2.2 s e m) ∧
  ([fp32, bf16, fp16, e4m3, e5m2].map Fmt.maxFinite = [0x7F7FFFFF, 0x7F7F, 0x7BFF, 0x7E, 0x7B] ∧
    [fp32, bf16, fp16, e4m3, e5m2].map Fmt.nan = [0x7FC00000, 0x7FC0, 0x7E00, 0x7F, 0x7E] ∧
    [fp32, bf16, fp16, e5m2].map Fmt.inf = [0x7F800000, 0x7F80, 0x7C00, 0x7C]) ∧
  ∀ F ∈ [fp32, bf16, fp16, e4m3, e5m2], ∀ (rm draw : Nat) (sat : Bool) (x : Dy), x.n ≠ 0 → rm < 5 →
    let r := fround F rm sat draw x.toEx
    let y := dyOfBits F r.bits
    let signed (b : Nat) : Nat := (if x.n < 0 then F.signBit else 0) + b
    (Overflows F rm draw x → r = if sat then ⟨signed F.maxFinite, 0x1014⟩
      else if rm = 1 ∨ (rm = 3 ∧ 0 < x.n) ∨ (rm = 2 ∧ x.n < 0) then ⟨signed F.maxFinite, 0x0014⟩
      else if F = e4m3 then ⟨F.nan, 0x0014⟩ else ⟨signed F.inf, 0x0014⟩) ∧
    (¬ Overflows F rm draw x →
      finiteBits F r.bits = true ∧ (F.signBit ≤ r.bits ↔ x.n < 0) ∧
      ((dyDist x y).n = 0 → r.fl = 0) ∧
      ((dyDist x y).n ≠ 0 → (Tiny F rm draw x → r.fl = 0x0018) ∧ (¬ Tiny F rm draw x → r.fl = 0x0010)) ∧
      (rm = 0 → ∀ b, finiteBits F b = true → (dyDist x y).le (dyDist x (dyOfBits F b)) = true ∧
        ((dyDist (dyDist x y) (dyDist x (dyOfBits F b))).n = 0 → (dyDist y (dyOfBits F b)).n ≠ 0 → r.bits % 2 = 0)) ∧
      (rm = 1 → Dy.le ⟨y.n.natAbs, y.e⟩ ⟨x.n.natAbs, x.e⟩ = true) ∧
      (rm = 2 → x.le y = true) ∧ (rm = 3 → y.le x = true) ∧
      (rm = 4 → ∀ b c, finiteBits F b = true → finiteBits F c = true →
        let lo := dyOfBits F b
        let hi := dyOfBits F c
        lo.lt x = true → x.lt hi = true →
        (∀ d, finiteBits F d = true → ¬ (lo.lt (dyOfBits F d) = true ∧ (dyOfBits F d).lt hi = true)) →
        ((dyDist y hi).n = 0 ↔
          Dy.le (Dy.mul ⟨draw + 1, 0⟩ (hi.add lo.neg)) (Dy.mul ⟨65536, 0⟩ (x.add lo.neg)) = true)) ∧
      (∀ b, finiteBits F b = true → ¬ ((x.lt (dyOfBits F b) = true ∧ (dyOfBits F b).lt y = true) ∨
        (y.lt (dyOfBits F b) = true ∧ (dyOfBits F b).lt x = true))))

/-- R158: the floating forms that round once: the exact sum, difference, product, quotient, root and reciprocal, with their special
values and the invalid flag (R66, R67, R68). -/
def Obligations.FloatingArithmetic : Prop :=
  Float2 .vadd 4 (fun F rm x a b =>
    rounded F rm x [fdecode F a, fdecode F b] ((fdecode F a).add (rm == 3) (fdecode F b))) ∧
  Float2 .vsub 4 (fun F rm x a b =>
    rounded F rm x [fdecode F a, fdecode F b] ((fdecode F a).add (rm == 3) (fdecode F b).neg)) ∧
  Float2 .vmul 4 (fun F rm x a b => rounded F rm x [fdecode F a, fdecode F b] ((fdecode F a).mul (fdecode F b))) ∧
  Float2 .vdiv 12 (fun F rm x a b => fdivV F rm x (fdecode F a) (fdecode F b)) ∧
  Float1 .vsqrt 12 (fun F rm x a => fsqrtV F rm x (fdecode F a)) ∧
  Float1 .vrcp 8 (fun F rm x a => fdivV F rm x (.fin ⟨1, 0⟩) (fdecode F a)) ∧
  (∀ (down : Bool) (a b : FV), Sums down a b (a.add down b) ∧ Multiplies a b (a.mul b)) ∧
  (∀ (s : Bool) (x : Dy), FV.neg (.nan s) = .nan s ∧ FV.neg (.inf s) = .inf (!s) ∧ FV.neg (.zero s) = .zero (!s) ∧
    FV.neg (.fin x) = .fin ⟨-x.n, x.e⟩) ∧
  (∀ (ins : List FV) (v : FV), ivOf ins v =
    if FV.nan true ∈ ins ∨ (v.isNan = true ∧ ∀ x ∈ ins, x.isNan = false) then 0x0001 else 0) ∧
  (∀ F ∈ [fp32, bf16, fp16], ∀ (rm x : Nat) (s : Bool) (y : Dy),
    froundV F rm false x (.nan s) = ⟨F.nan, 0⟩ ∧ froundV F rm false x (.fin y) = fround F rm false x y.toEx ∧
    froundV F rm false x (.inf s) = ⟨(if s then F.signBit else 0) + F.inf, 0⟩ ∧
    froundV F rm false x (.zero s) = ⟨if s then F.signBit else 0, 0⟩) ∧
  (∀ F ∈ [fp32, bf16, fp16], ∀ (rm x : Nat) (p q : Dy) (y z : Bool) (u : FV), p.n ≠ 0 → q.n ≠ 0 → q.n.natAbs < 2 ^ 64 →
    let signed (neg : Bool) (b : Nat) : Nat := (if neg then F.signBit else 0) + b
    RoundsQuotient F rm x p q (fdivV F rm x (.fin p) (.fin q)) ∧
    fdivV F rm x (.fin p) (.zero z) = ⟨signed (decide (p.n < 0) != z) F.inf, 0x0002⟩ ∧
    fdivV F rm x (.fin p) (.inf z) = ⟨signed (decide (p.n < 0) != z) 0, 0⟩ ∧
    fdivV F rm x (.zero y) (.fin q) = ⟨signed (y != decide (q.n < 0)) 0, 0⟩ ∧
    fdivV F rm x (.zero y) (.inf z) = ⟨signed (y != z) 0, 0⟩ ∧
    fdivV F rm x (.inf y) (.fin q) = ⟨signed (y != decide (q.n < 0)) F.inf, 0⟩ ∧
    fdivV F rm x (.inf y) (.zero z) = ⟨signed (y != z) F.inf, 0⟩ ∧
    fdivV F rm x (.zero y) (.zero z) = ⟨F.nan, 0x0001⟩ ∧ fdivV F rm x (.inf y) (.inf z) = ⟨F.nan, 0x0001⟩ ∧
    fdivV F rm x (.nan y) u = ⟨F.nan, if y || u.isSnan then 0x0001 else 0⟩ ∧
    fdivV F rm x u (.nan y) = ⟨F.nan, if y || u.isSnan then 0x0001 else 0⟩ ∧
    (0 < p.n → RoundsRoot F rm x p (fsqrtV F rm x (.fin p))) ∧
    (p.n < 0 → fsqrtV F rm x (.fin p) = ⟨F.nan, 0x0001⟩) ∧ fsqrtV F rm x (.zero z) = ⟨signed z 0, 0⟩ ∧
    fsqrtV F rm x (.inf z) = (if z then ⟨F.nan, 0x0001⟩ else ⟨F.inf, 0⟩) ∧
    fsqrtV F rm x (.nan y) = ⟨F.nan, if y then 0x0001 else 0⟩)

/-- R159: the fused forms round once from the exact ±(a × b) ± c. -/
def Obligations.FusedMultiplyAdd : Prop :=
  Fused .vfma false false ∧ Fused .vfms false true ∧ Fused .vfnma true false ∧ Fused .vfnms true true

/-- R158: minimum, maximum, absolute value, negation, fraction and class: NaN, −0 and +0, sign bits, a − trunc(a), which is
exact and keeps the sign of a, and the class codes. That the first four take every rounding mode, and draw a word under the fifth,
is the model's choice (log 75). -/
def Obligations.FloatingSelections : Prop :=
  (∀ mx : Bool, Float2 (if mx then .vmax else .vmin) 4 (fun F _ _ a b =>
    let x := fdecode F a
    let y := fdecode F b
    if x.isNan || y.isNan then ⟨F.nan, if x.isSnan || y.isSnan then 0x0001 else 0⟩
    else if x.lt y then ⟨if mx then b else a, 0⟩
    else if y.lt x then ⟨if mx then a else b, 0⟩
    else if x = .zero true ∧ y = .zero false then ⟨if mx then b else a, 0⟩
    else ⟨if mx then a else if x = .zero false ∧ y = .zero true then b else a, 0⟩)) ∧
  (∀ ng : Bool, Float1 (if ng then .vneg else .vabs) 2 (fun F _ _ a =>
    if (fdecode F a).isNan then ⟨F.nan, if (fdecode F a).isSnan then 0x0001 else 0⟩
    else ⟨if ng then (a + F.signBit) % (2 * F.signBit) else a % F.signBit, 0⟩)) ∧
  Float1 .vfrac 4 (fun F _ _ a => ffrac F a) ∧
  (∀ F ∈ [fp32, bf16, fp16], ∀ a : Nat, match fdecode F a with
    | .nan q => ffrac F a = ⟨F.nan, if q then 0x0001 else 0⟩
    | .inf _ => ffrac F a = ⟨F.nan, 0x0001⟩
    | .zero z => ffrac F a = ⟨if z then F.signBit else 0, 0⟩
    | .fin y => ∃ t : Int,
        (0 < y.n → Dy.le ⟨t, 0⟩ y = true ∧ y.lt ⟨t + 1, 0⟩ = true) ∧ (y.n < 0 → y.le ⟨t, 0⟩ = true ∧ Dy.lt ⟨t - 1, 0⟩ y = true) ∧
        (ffrac F a).fl = 0 ∧ finiteBits F (ffrac F a).bits = true ∧ (dyDist (dyOfBits F (ffrac F a).bits) (y.add ⟨-t, 0⟩)).n = 0 ∧
        ((y.add ⟨-t, 0⟩).n = 0 → (ffrac F a).bits = if y.n < 0 then F.signBit else 0)) ∧
  Float1 .vclass 2 (fun F _ _ a => ⟨2 ^ (match fdecode F a with
    | .inf true => 0
    | .fin x => if a / 2 ^ F.mb % 2 ^ F.eb = 0 then (if x.n < 0 then 2 else 5) else if x.n < 0 then 1 else 6
    | .zero true => 3
    | .zero false => 4
    | .inf false => 7
    | .nan true => 8
    | .nan false => 9), 0⟩)

/-- R171: the elementary functions element by element: every special value that the rule gives; the arguments at which the exact
value is a dyadic number, and there that number rounded once; NX at every other; the reciprocal root, rounded once; and of each of
the others a value worked by hand to FP32. A rounding that the model's enclosure does not decide is open (log 12). -/
def Obligations.ElementaryFunctions : Prop :=
  Float1 .vexp2 8 (fun F rm x a => ftrans .exp2 F rm x a) ∧ Float1 .vlog2 8 (fun F rm x a => ftrans .log2 F rm x a) ∧
  Float1 .vrsqrt 8 (fun F rm x a => ftrans .rsqrt F rm x a) ∧ Float1 .vtanh 8 (fun F rm x a => ftrans .tanh F rm x a) ∧
  Float1 .vsinpi 8 (fun F rm x a => ftrans .sinpi F rm x a) ∧ Float1 .vcospi 8 (fun F rm x a => ftrans .cospi F rm x a) ∧
  Float1 .verf 8 (fun F rm x a => ftrans .erf F rm x a) ∧ Float1 .vsigm 8 (fun F rm x a => ftrans .sigm F rm x a) ∧
  (∀ F ∈ [fp32, bf16, fp16], ∀ rm x a : Nat, rm < 5 →
    let one := F.bias * 2 ^ F.mb
    let signed (neg : Bool) (b : Nat) : FR := ⟨(if neg then F.signBit else 0) + b, 0⟩
    let invalid : FR := ⟨F.nan, 0x0001⟩
    let inexact (t : Trans) : Prop := (ftrans t F rm x a).fl.getLsbD 4 = true
    match fdecode F a with
    | .nan q => ∀ t : Trans, ftrans t F rm x a = ⟨F.nan, if q then 0x0001 else 0⟩
    | .inf neg =>
        ftrans .exp2 F rm x a = signed false (if neg then 0 else F.inf) ∧
        ftrans .log2 F rm x a = (if neg then invalid else signed false F.inf) ∧
        ftrans .rsqrt F rm x a = (if neg then invalid else signed false 0) ∧ ftrans .tanh F rm x a = signed neg one ∧
        ftrans .sinpi F rm x a = invalid ∧ ftrans .cospi F rm x a = invalid ∧ ftrans .erf F rm x a = signed neg one ∧
        ftrans .sigm F rm x a = signed false (if neg then 0 else one)
    | .zero neg =>
        ftrans .exp2 F rm x a = signed false one ∧ ftrans .log2 F rm x a = ⟨F.signBit + F.inf, 0x0002⟩ ∧
        ftrans .rsqrt F rm x a = ⟨(if neg then F.signBit else 0) + F.inf, 0x0002⟩ ∧ ftrans .tanh F rm x a = signed neg 0 ∧
        ftrans .sinpi F rm x a = signed neg 0 ∧ ftrans .cospi F rm x a = signed false one ∧
        ftrans .erf F rm x a = signed neg 0 ∧ ftrans .sigm F rm x a = signed false (one - 2 ^ F.mb)
    | .fin y =>
        (y.n < 0 → ftrans .log2 F rm x a = invalid ∧ ftrans .rsqrt F rm x a = invalid) ∧
        (0 < y.n → RoundsRecipRoot F rm x y (ftrans .rsqrt F rm x a)) ∧
        inexact .tanh ∧ inexact .erf ∧ inexact .sigm ∧
        (∀ k : Int, (dyDist y ⟨k, 0⟩).n = 0 → ftrans .exp2 F rm x a = fround F rm false x (⟨1, k⟩ : Dy).toEx ∧
          ftrans .sinpi F rm x a = signed (decide (y.n < 0)) 0 ∧ ftrans .cospi F rm x a = signed (decide (k % 2 = 1)) one) ∧
        (∀ k : Int, (dyDist y ⟨1, k⟩).n = 0 →
          ftrans .log2 F rm x a = if k = 0 then signed false 0 else fround F rm false x (⟨k, 0⟩ : Dy).toEx) ∧
        (∀ k : Int, (dyDist y ⟨2 * k + 1, -1⟩).n = 0 →
          ftrans .sinpi F rm x a = signed (decide (k % 2 = 1)) one ∧ ftrans .cospi F rm x a = signed false 0) ∧
        ((∀ k : Int, (dyDist y ⟨k, 0⟩).n ≠ 0) → inexact .exp2) ∧
        (0 < y.n → (∀ k : Int, (dyDist y ⟨1, k⟩).n ≠ 0) → inexact .log2) ∧
        ((∀ k : Int, (dyDist y ⟨k, -1⟩).n ≠ 0) → inexact .sinpi ∧ inexact .cospi)) ∧
  ftrans .exp2 fp32 0 0 0x3F000000 = ⟨0x3FB504F3, 0x0010⟩ ∧ ftrans .log2 fp32 0 0 0x40400000 = ⟨0x3FCAE00D, 0x0010⟩ ∧
  ftrans .tanh fp32 0 0 0x3F800000 = ⟨0x3F42F7D6, 0x0010⟩ ∧ ftrans .erf fp32 0 0 0x3F800000 = ⟨0x3F57BB3D, 0x0010⟩ ∧
  ftrans .sigm fp32 0 0 0x3F800000 = ⟨0x3F3B26A8, 0x0010⟩ ∧ ftrans .sinpi fp32 0 0 0x3E800000 = ⟨0x3F3504F3, 0x0010⟩ ∧
  ftrans .cospi fp32 0 0 0xBE800000 = ⟨0x3F3504F3, 0x0010⟩

/-- R160, R165: the integer forms, by wrapping or by clamping with VSAT. -/
def Obligations.IntegerVectors : Prop :=
  Integer2 .viadd 2 false (fun _ x y => x + y) ∧ Integer2 .visub 2 false (fun _ x y => x - y) ∧
  Integer2 .viadds 2 true (fun _ x y => x + y) ∧ Integer2 .visubs 2 true (fun _ x y => x - y) ∧
  (∀ sat : Bool, Integer2 (fun d a b t k => .vimul d a b t k sat) 4 sat (fun _ x y => x * y)) ∧
  Integer2 .vimulh 4 false (fun w x y => x * y / (2 ^ w : Nat)) ∧
  Integer2 .vimin 2 false (fun _ x y => Min.min x y) ∧ Integer2 .vimax 2 false (fun _ x y => Max.max x y) ∧
  (∀ (d : Dst) (a b c : VSrc) (k : U3) (sat : Bool) (s : State),
    Elements (.vimad d a b c k sat) s 4 d k 32 fun e =>
      let x := (BitVec.ofNat 32 (velem (s.vsrc a) 32 e)).toInt * (BitVec.ofNat 32 (velem (s.vsrc b) 32 e)).toInt +
        (BitVec.ofNat 32 (velem (s.vsrc c) 32 e)).toInt
      let y := if sat then (if x < -2 ^ 31 then -2 ^ 31 else if 2 ^ 31 - 1 < x then 2 ^ 31 - 1 else x) else x
      ⟨(y % 2 ^ 32).toNat, if y = x then 0 else 0x1000⟩)

/-- R161, R163, R164: the logical forms on lanes, the shifts of elements, the lane-mask forms and select. -/
def Obligations.LogicShiftsMasksAndSelect : Prop :=
  (∀ (d : Dst) (a b : VSrc) (k : U3) (s : State),
    exec (.vand d a b k) s = .next (s.issue 2 (.v d (s.vsrc a &&& s.vsrc b) (s.kmask k)) 0) ∧
    exec (.vor d a b k) s = .next (s.issue 2 (.v d (s.vsrc a ||| s.vsrc b) (s.kmask k)) 0) ∧
    exec (.vxor d a b k) s = .next (s.issue 2 (.v d (s.vsrc a ^^^ s.vsrc b) (s.kmask k)) 0) ∧
    exec (.vandn d a b k) s = .next (s.issue 2 (.v d (s.vsrc a &&& ~~~ s.vsrc b) (s.kmask k)) 0)) ∧
  (∀ (d : Dst) (a b : VSrc) (t k : U3) (s : State), okInt t = true →
    let w := etWidth (intEt t)
    let x (e : Nat) := velem (s.vsrc a) w e
    let n (e : Nat) := velem (s.vsrc b) w e % w
    Patterns (.vsll d a b t k) s 2 d k w (fun e => x e * 2 ^ n e) ∧
    Patterns (.vsrl d a b t k) s 2 d k w (fun e => x e / 2 ^ n e) ∧
    Patterns (.vsra d a b t k) s 2 d k w
      (fun e => (intVal (intEt t) (x e) / (2 ^ n e : Nat) % (2 ^ w : Nat)).toNat) ∧
    Patterns (.vrol d a b t k) s 2 d k w (fun e => x e * 2 ^ n e + x e / 2 ^ (w - n e))) ∧
  (∀ (kd ka kb : U3) (s : State),
    exec (.kand kd ka kb) s = .next (s.issue 2 (.k kd (s.kmask ka &&& s.kmask kb) (BitVec.allOnes 64)) 0) ∧
    exec (.kor kd ka kb) s = .next (s.issue 2 (.k kd (s.kmask ka ||| s.kmask kb) (BitVec.allOnes 64)) 0) ∧
    exec (.kxor kd ka kb) s = .next (s.issue 2 (.k kd (s.kmask ka ^^^ s.kmask kb) (BitVec.allOnes 64)) 0) ∧
    exec (.kandn kd ka kb) s = .next (s.issue 2 (.k kd (s.kmask ka &&& ~~~ s.kmask kb) (BitVec.allOnes 64)) 0)) ∧
  (∀ (d : Dst) (a b : VSrc) (k : U3) (s : State), ∃ v : Vec,
    exec (.vsel d a b k) s = .next (s.issue 2 (.v d v (BitVec.allOnes 64)) 0) ∧
    lanesFrom (s.kmask k) (s.vsrc a) (s.vsrc b) v)

/-- R162: the compares. -/
def Obligations.VectorCompares : Prop :=
  (∀ (kd : U3) (a b : VSrc) (k : U3) (s : State),
    let x (e : Nat) := fdecode fp32 (velem (s.vsrc a) 32 e)
    let y (e : Nat) := fdecode fp32 (velem (s.vsrc b) 32 e)
    let some1 (e : Nat) : Bool := (x e).isNan || (y e).isNan
    let quiet (e : Nat) : U16 := if (x e).isSnan || (y e).isSnan then 0x0001 else 0
    let loud (e : Nat) : U16 := if some1 e then 0x0001 else 0
    MaskResult (.vfcmpEq kd a b k) s kd k 32 (fun e => !some1 e && !(x e).lt (y e) && !(y e).lt (x e)) quiet ∧
    MaskResult (.vfcmpLt kd a b k) s kd k 32 (fun e => !some1 e && (x e).lt (y e)) loud ∧
    MaskResult (.vfcmpLe kd a b k) s kd k 32 (fun e => !some1 e && !(y e).lt (x e)) loud ∧
    MaskResult (.vfcmpUn kd a b k) s kd k 32 some1 quiet) ∧
  (∀ (kd : U3) (a b : VSrc) (t k : U3) (s : State), t = 1 ∨ t = 5 →
    let w := if t = 1 then 64 else 32
    let x (e : Nat) := velem (s.vsrc a) w e
    let y (e : Nat) := velem (s.vsrc b) w e
    let v (n : Nat) : Int := if n < 2 ^ (w - 1) then n else n - (2 ^ w : Nat)
    MaskResult (.vicmpEq kd a b t k) s kd k w (fun e => x e == y e) (fun _ => 0) ∧
    MaskResult (.vicmpLt kd a b t k) s kd k w (fun e => decide (v (x e) < v (y e))) (fun _ => 0) ∧
    MaskResult (.vicmpLe kd a b t k) s kd k w (fun e => decide (v (x e) ≤ v (y e))) (fun _ => 0) ∧
    MaskResult (.vicmpLtu kd a b t k) s kd k w (fun e => decide (x e < y e)) (fun _ => 0))

/-- R166, R167, R71: a conversion widens a part of the source into the whole destination, or narrows the whole source into a
part of it and writes no other lane. An element between floating formats is rounded once, with the table's values for an overflow
and for an infinite source; one to an integer type is rounded to an integer and brought into the type's range; one from an integer
type is its number rounded once. That an integer's overflow sets OF with NX, and VSAT under SAT, is the model's choice (log 82). -/
def Obligations.Conversions : Prop :=
  (∀ (d : Dst) (a : VSrc) (src : U4) (t k : U3) (part : U2) (rm : U3) (sat : Bool) (s : State) (ff : Bool),
    (if ff then okCvtFf src t part rm sat else okCvtFi src t part rm sat) = true →
    let dst := if ff then t.toNat else cvtFiDst src t
    let ws := etWidth src.toNat
    let wd := etWidth dst
    let n := 2048 / Max.max ws wd
    let lanes := n * wd / 32
    Draws (if ff then .vcvtFf d a src t k part rm sat else .vcvtFi d a src t k part rm sat) s (rm = 4) fun x s u =>
        let one (e y : Nat) : FR := fconvert src.toNat dst rm.toNat sat (stochBits x e) y
        if ws ≤ wd then
          VecResult 4 d (s.kmask k) wd (fun e => one e (velem (s.vsrc a) ws (part.toNat * n + e))) s u
        else
          VecResult 4 d (s.kmask k &&& BitVec.ofNat 64 ((2 ^ lanes - 1) * 2 ^ (part.toNat * lanes))) wd
            (fun e => one e (velem (s.vsrc a) ws (e - part.toNat * n))) s u) ∧
  (∀ (rm draw bits : Nat) (sat : Bool), rm < 5 →
    (∀ src dst : Nat, src ≤ 4 → dst ≤ 4 →
      let v := fdecode (fmtOf src) bits
      let r := fconvert src dst rm sat draw bits
      Delivers dst rm draw sat v r ∧ ∀ q, v = .nan q → r.fl = if q then 0x0001 else 0) ∧
    (∀ src dst : Nat, src ≤ 4 → 5 ≤ dst → dst ≤ 9 →
      let r := fconvert src dst rm sat draw bits
      let w := etWidth dst
      let lo : Int := if dst = 8 then 0 else -2 ^ (w - 1)
      let hi : Int := if dst = 8 then 255 else 2 ^ (w - 1) - 1
      match fdecode (fmtOf src) bits with
      | .nan _ => r = ⟨0, 0x0001⟩
      | .inf neg => r = ⟨((if neg then lo else hi) % 2 ^ w).toNat, 0x1000⟩
      | .zero _ => r = ⟨0, 0⟩
      | .fin x => ∃ n : Int, RoundsInt rm draw x n ∧ r.bits = (bounded lo hi n % 2 ^ w).toNat ∧
          r.fl = if bounded lo hi n ≠ n then 0x1000 else if (dyDist x ⟨n, 0⟩).n = 0 then 0 else 0x0010) ∧
    (∀ src dst : Nat, 5 ≤ src → src ≤ 9 → dst ≤ 4 → bits < 2 ^ etWidth src →
      let n : Int := if src = 8 ∨ bits < 2 ^ (etWidth src - 1) then bits else bits - 2 ^ etWidth src
      fconvert src dst rm sat draw bits =
        if n = 0 then ⟨0, 0⟩ else fround (fmtOf dst) rm sat draw (⟨n, 0⟩ : Dy).toEx))

/-- R168, R169: the moves of elements, by the width of the type. -/
def Obligations.ElementMoves : Prop :=
  ∀ (d : Dst) (a b : VSrc) (x : Src) (t k : U3) (s : State),
    let w := if t = 0 ∨ t = 5 then 32 else if t = 1 ∨ t = 2 ∨ t = 6 then 16 else 8
    let n := 2048 / w
    let p := velem (s.vsrc a) w
    let q := velem (s.vsrc b) w
    let y := (s.src x).toNat
    Patterns (.vperm d a b t k) s 3 d k w (fun i => p (q i % n)) ∧
    Patterns (.vziplo d a b t k) s 3 d k w (fun i => if i % 2 = 0 then p (i / 2) else q ((i - 1) / 2)) ∧
    Patterns (.vziphi d a b t k) s 3 d k w (fun i => if i % 2 = 0 then p (n / 2 + i / 2) else q (n / 2 + (i - 1) / 2)) ∧
    Patterns (.vunzip d a b t k) s 3 d k w (fun i => if i < n / 2 then p (2 * i) else q (2 * (i - n / 2))) ∧
    Patterns (.vrot d a x t k) s 3 d k w (fun i => p ((i + y) % n)) ∧
    Patterns (.vshdn d a x t k) s 3 d k w (fun i => if i + y < n then p (i + y) else 0) ∧
    Patterns (.vshup d a x t k) s 3 d k w (fun i => if y ≤ i then p (i - y) else 0) ∧
    Patterns (.vrev d a t k) s 3 d k w (fun i => p (n - 1 - i)) ∧
    Patterns (.vbcast d x t k) s 2 d k w (fun _ => y % 2 ^ w) ∧
    Patterns (.vins d a x t k) s 2 d k w (fun i => if i = y / 2 ^ 32 % 256 % n then y % 2 ^ w else p i) ∧
    Patterns (.vbcastl d a x t k) s 2 d k w (fun _ => p (y % 256 % n)) ∧
    (∃ v : U64, exec (.vext d a x t) s = .next (s.issue 2 (.g d v true) 0) ∧
      (if t = 5 ∨ t = 6 ∨ t = 7 then v.toInt = Int.bmod (p (y % 256 % n) : Int) (2 ^ w) else v.toNat = p (y % 256 % n)))

/-- R170: the reductions: element 0 is the result, every other element is written as 0; the floating tree over whichever elements
are enabled, with the sum rounded at every node, and the value when none is enabled; the exact integer sum and the maximum. That a
NaN which meets no other element is delivered as the canonical one, and sets IV if it signals, is the model's reading (log 88). -/
def Obligations.Reductions : Prop :=
  ∀ (d : Dst) (a : VSrc) (t k rm : U3) (s : State),
    (t.toNat < 3 → rm.toNat < 4 →
      let F := fmtOf t.toNat
      let on (e : Nat) : Bool := (s.kmask k).getLsbD (e * F.width / 32)
      let p (e : Nat) : FR := quiet F (velem (s.vsrc a) F.width e)
      let levels := if t = 0 then 6 else 7
      let sum (x y : Nat) : FR :=
        rounded F rm.toNat 0 [fdecode F x, fdecode F y] ((fdecode F x).add (rm == 3) (fdecode F y))
      let x := (treeOf sum on p levels 0).getD ⟨0, 0⟩
      let y := (treeOf (fminmax F true) on p levels 0).getD ⟨F.inf + F.signBit, 0⟩
      exec (.vfredsum d a t k rm) s = .next (s.issue 6 (.v d (BitVec.ofNat 2048 x.bits) (BitVec.allOnes 64)) x.fl) ∧
      exec (.vfredmax d a t k rm) s = .next (s.issue 6 (.v d (BitVec.ofNat 2048 y.bits) (BitVec.allOnes 64)) y.fl)) ∧
    (okInt t = true →
      let w := etWidth (intEt t)
      let vals := ((List.range (2048 / w)).filter fun e => (s.kmask k).getLsbD (e * w / 32)).map fun e =>
        intVal (intEt t) (velem (s.vsrc a) w e)
      (∀ sat : Bool, ∃ y : Int,
        (if sat then y = (if vals.sum < (intRange t).1 then (intRange t).1
          else if (intRange t).2 < vals.sum then (intRange t).2 else vals.sum) else y = vals.sum) ∧
        exec (.viredsum d a t k sat) s = .next (s.issue 6
          (.v d (BitVec.ofNat 2048 (y % (2 ^ w : Nat)).toNat) (BitVec.allOnes 64)) (if y = vals.sum then 0 else 0x1000))) ∧
      (∃ y : Int, (vals = [] → y = (intRange t).1) ∧ (vals ≠ [] → y ∈ vals ∧ ∀ x ∈ vals, x ≤ y) ∧
        exec (.viredmax d a t k) s =
          .next (s.issue 6 (.v d (BitVec.ofNat 2048 (y % (2 ^ w : Nat)).toNat) (BitVec.allOnes 64)) 0)))

/-! ### Moment instructions -/

/-- R92, R175, R177: the moment forms that make and move pairs, and those that collapse them, with the value that each
collapse delivers of a pair in its order of roundings; the table of InvCdf is symmetric in sign, with its ends at 4.325… and
two entries worked by hand (R87); `mcdraw` draws a word whether or not a lane is enabled. Minus infinity as a computed
variance counts as negative (log 63). -/
def Obligations.MomentMovesAndCollapses : Prop :=
  (∀ (d a : U4) (v : Dst) (x y : VSrc) (k : U3) (s : State),
     let ops (j : Nat) : LaneOps := ⟨[momPair (s.msrc a) j], [], []⟩
     exec (.mmake d x y k) s = .next (s.issue 6 (.m d (s.vsrc y ++ s.vsrc x) (s.kmask k)) 0) ∧
     MomentForm (.mgetm v a k) s s 6 k ops (fun _ => on1 id) (meanRes v (s.kmask k)) ∧
     MeanForm (.mgetv v a k) s 6 v k ops (fun _ p => p.v) ∧
     PairForm (.mmov d a k) s 6 d k ops (fun _ => on1 id)) ∧
  (∀ (d : Dst) (a : U4) (x : Src) (k : U3) (s : State),
     let one (j : Nat) : LaneOps := ⟨[momPair (s.msrc a) j], [], []⟩
     let factor : Nat := ((s.src x).extractLsb' 0 32).toNat
     MeanForm (.mcmean d a k) s 12 d k one (fun _ p => p.mu) ∧
     MeanForm (.mchi d a x k) s 12 d k (fun j => ⟨(one j).pairs, [], [factor]⟩) (fun _ p => collapseUpper p factor) ∧
     MeanForm (.mclo d a x k) s 12 d k (fun j => ⟨(one j).pairs, [], [factor]⟩) (fun _ p => collapseLower p factor) ∧
     (s.me.rnq = [] → exec (.mcdraw d a k) s = .next s.hold) ∧
     (∀ (w : U64) (ws : List U64), s.me.rnq = w :: ws → MomentForm (.mcdraw d a k) s s.drew 12 k one
       (fun j => on1 fun p => ⟨collapseSample p w j, 0⟩) (meanRes d (s.kmask k)))) ∧
  (∀ (p : Pair) (factor : Nat) (w : U64) (j : Nat), p.plain →
     let sd := root32 2 p.v
     (∀ b : Nat, finiteBits fp32 factor = true → Near32 2 ((num32 factor).mul sd) b → finiteBits fp32 b = true →
       Near32 2 ((num32 p.mu).add (num32 b)) (collapseUpper p factor) ∧
       Near32 3 ((num32 p.mu).add (num32 b).neg) (collapseLower p factor)) ∧
     Near32 0 ((num32 p.mu).add ((root32 0 p.v).mul (num32 (invCdf (stochBits w j))))) (collapseSample p w j)) ∧
  (∀ r : Nat, r < 32768 → invCdf r = 2 ^ 31 + invCdf (65535 - r)) ∧
  invCdf 65535 = 0x408A65BD ∧ invCdf 49152 = 0x3F2CACEF ∧ invCdf 32768 = 0x37A06C99

/-- R84, R85, R175, R177: the arithmetic of pairs under the covariance mode, with cause 0x02 for a correlation operand that
the mode does not read, and the non-linear forms; and what each delivers. Of the sum, the difference, the product and the
scaled pair the mean is rounded once to nearest, and the variance once upward, of their exact values, but for the covariance
term that the mode rounds first. The rectified, exponential, logistic and Gaussian-error forms take the steps of R88 to R91
over Phi and PhiDensity of R86, with the values of a pair without variance; and of each function values worked by hand are
given. Minus infinity as a computed variance counts as negative (log 63), and a rounding that the enclosure does not decide is
open (log 12). -/
def Obligations.MomentArithmetic : Prop :=
  ∀ (d a b : U4) (c : VSrc) (x : Src) (k : U3) (s : State),
    let one (j : Nat) : LaneOps := ⟨[momPair (s.msrc a) j], [], []⟩
    let two (j : Nat) : LaneOps := ⟨[momPair (s.msrc a) j, momPair (s.msrc b) j], [], []⟩
    let factor : Nat := ((s.src x).extractLsb' 0 32).toNat
    let cov : Nat := s.me.sp.mmode.toNat % 4
    let rho (j : Nat) : Nat := velem (s.vsrc c) 32 j
    (∀ sub : Bool, let i := if sub then Instr.msub d a b c k else .madd d a b c k
      (cov ≠ 3 → c ≠ .v 0 → exec i s = .next (s.trapWord 0x02)) ∧
      (cov = 3 ∨ c = .v 0 → PairForm i s 6 d k (fun j => ⟨(two j).pairs, if cov = 3 then [rho j] else [], []⟩)
        (fun j => on2 (momentAddSub sub cov (rho j))))) ∧
    PairForm (.mmul d a b k) s 8 d k two (fun _ => on2 momentMul) ∧
    PairForm (.mscale d a x k) s 6 d k (fun j => ⟨(one j).pairs, [factor], []⟩) (fun _ => on1 (momentScale factor)) ∧
    PairForm (.mrelu d a k) s 12 d k one (fun _ => on1 momentRelu) ∧
    PairForm (.mexp d a k) s 12 d k one (fun _ => on1 momentExp) ∧
    PairForm (.msigm d a k) s 12 d k one (fun _ => on1 momentSigmoid) ∧
    PairForm (.mgelu d a k) s 12 d k one (fun _ => on1 momentGelu) ∧
    ∀ (p q : Pair) (r b e : Nat), p.plain → q.plain → finiteBits fp32 r = true →
      let mp := num32 p.mu
      let mq := num32 q.mu
      let vp := num32 p.v
      let vq := num32 q.v
      let twice (y : Dy) : Dy := Dy.mul ⟨2, 0⟩ y
      (∀ (sub : Bool) (mode : Nat), Near32 0 (mp.add (if sub then mq.neg else mq)) (momentAddSub sub mode r p q).mu) ∧
      (∀ sub : Bool,
        Variance32 (vp.add vq) (momentAddSub sub 0 r p q).v ∧
        Variance32 ((vp.add vq).add (twice ((root32 2 p.v).mul (root32 2 q.v)))) (momentAddSub sub 1 r p q).v ∧
        (Near32 0 ((root32 0 p.v).mul (root32 0 q.v)) b → finiteBits fp32 b = true →
          Variance32 ((vp.add vq).add (twice (num32 b)).neg) (momentAddSub sub 2 r p q).v) ∧
        (Near32 0 (((root32 0 p.v).mul (root32 0 q.v)).mul (num32 r)) e → finiteBits fp32 e = true →
          Variance32 ((vp.add vq).add (twice (num32 e))) (momentAddSub sub 3 r p q).v)) ∧
      Near32 0 (mp.mul mq) (momentMul p q).mu ∧
      Variance32 ((((mp.mul mp).mul vq).add ((mq.mul mq).mul vp)).add (vp.mul vq)) (momentMul p q).v ∧
      Near32 0 ((num32 r).mul mp) (momentScale r p).mu ∧
      Variance32 (((num32 r).mul (num32 r)).mul vp) (momentScale r p).v ∧
      -- R86
      (Dy.le ⟨9, 0⟩ mp = true → phi p.mu = 0x3F800000) ∧ (mp.le ⟨-9, 0⟩ = true → phi p.mu = 0) ∧
      (Dy.lt ⟨-9, 0⟩ mp = true → mp.lt ⟨9, 0⟩ = true → ∃ w, PhiSteps p.mu (phi p.mu) w) ∧
      (∃ y z w : Nat, Times32 p.mu p.mu y ∧ (finiteBits fp32 y = true → Times32 y 0x3F000000 z ∧ w = fExp32 0 (num32 z).neg ∧
        (finiteBits fp32 w = true → Times32 w 0x3ECC422A (phiDensity p.mu)))) ∧
      -- R88
      (vp.n = 0 → momentRelu p = ⟨if 0 < mp.n then p.mu else 0, 0⟩) ∧
      (0 < vp.n →
        let sd := root32 0 p.v
        let al := (fdivV fp32 0 0 (fdecode fp32 p.mu) (.fin sd)).bits
        let P := num32 (phi al)
        let d := num32 (phiDensity al)
        let m := (momentRelu p).mu
        finiteBits fp32 (phi al) = true → finiteBits fp32 (phiDensity al) = true →
          Near32 0 ((mp.mul P).add (sd.mul d)) m ∧
          ∀ q : Nat, Near32 2 ((((mp.mul mp).add vp).mul P).add ((mp.mul sd).mul d)) q → finiteBits fp32 q = true →
            finiteBits fp32 m = true →
            let x := (num32 q).add ((num32 m).mul (num32 m)).neg
            (x.n ≤ 0 → (momentRelu p).v = 0) ∧ (0 < x.n → (momentRelu p).v = (fround fp32 2 false 0 x.toEx).bits)) ∧
      -- R89
      (momentExp p).mu = fExp32 0 (mp.add (vp.mul ⟨1, -1⟩)) ∧ (vp.n = 0 → (momentExp p).v = 0) ∧
      (mp.n = 0 → vp.n = 0 → (momentExp p).mu = 0x3F800000) ∧
      -- R90
      (vp.n = 0 → fProbit vp = 0x3F800000) ∧ (mp.n = 0 → (momentSigmoid p).mu = 0x3F000000) ∧
      (let c := fProbit vp
        let m := (momentSigmoid p).mu
        let one := num32 0x3F800000
        let x := ((num32 m).mul (one.add (num32 m).neg)).mul (one.add (num32 c).neg)
        (finiteBits fp32 c = true → (mp.mul (num32 c)).n ≠ 0 → m = (fSigm fp32 0 0 (mp.mul (num32 c))).bits) ∧
        (finiteBits fp32 c = true → finiteBits fp32 m = true → 0 ≤ x.n → Variance32 x (momentSigmoid p).v)) ∧
      -- R91
      (∃ (s : Nat) (f : U16) (al : Nat), RoundsRecipRoot fp32 0 0 (vp.add ⟨1, 0⟩) ⟨s, f⟩ ∧ Near32 0 (mp.mul (num32 s)) al ∧
        let P := num32 (phi al)
        let d := num32 (phiDensity al)
        let S := num32 s
        finiteBits fp32 (phi al) = true → finiteBits fp32 (phiDensity al) = true →
          Near32 0 ((mp.mul P).add ((vp.mul S).mul d)) (momentGelu p).mu ∧
          ∀ g : Nat, Near32 0 (P.add ((mp.mul ((S.mul S).mul S)).mul d)) g → finiteBits fp32 g = true →
            Variance32 (((num32 g).mul (num32 g)).mul vp) (momentGelu p).v) ∧
      [phi 0, phi 0x3F800000, phi 0xBF800000, phi 0x40200000] = [0x3F000000, 0x3F57625E, 0x3E227687, 0x3F7E690B] ∧
      [phiDensity 0, phiDensity 0xBF800000, phiDensity 0x40200000] = [0x3ECC422A, 0x3E77C72D, 0x3C8F9783] ∧
      momentRelu ⟨0x3F800000, 0x3F800000⟩ = ⟨0x3F8AAA15, 0x3F40474A⟩ ∧
      momentExp ⟨0xBF800000, 0x40800000⟩ = ⟨0x402DF854, 0x43C60517⟩ ∧
      momentExp ⟨0x3F000000, 0x40100000⟩ = ⟨0x40A28269, 0x435AE6CF⟩ ∧
      momentSigmoid ⟨0xBF800000, 0x40800000⟩ = ⟨0x3EB2A8BA, 0x3DAF1645⟩ ∧
      momentGelu ⟨0x3F000000, 0x40100000⟩ = ⟨0x3F48A38B, 0x3F6D68FC⟩

/-! ### The matrix engine -/

/-- R184, R189, R190, R191: a product whose shape, formats and bytes are as R189 asks enters the matrix queue; and the trap,
with its information word, of one that is not. Which byte is named first of several operands out of range is the model's
choice (log 83). -/
def Obligations.ProductsEnterTheQueue : Prop :=
  ∀ (m : U2) (sw : Bool) (acc : U11) (gx : U5) (asgn bsgn isat z : Bool) (p : U3) (s : State),
    let sh := s.liveShape m sw
    let x := s.me.regs.readG gx
    let wide (n : Nat) (g : Nat) : Prop := acc.toNat ≤ g ∧ g < acc.toNat + n * ((shf sh 5 + 31) / 32)
    let mods := asgn || bsgn || isat
    (s.productOk .dense sh x acc.toNat mods →
      EntersQueue s (.mma m sw acc gx asgn bsgn isat z p) p sh x 0 0 m sw (wide 1)) ∧
    (s.productOk .sparseA sh x acc.toNat mods →
      EntersQueue s (.mmasa m sw acc gx asgn bsgn isat z p) p sh x 0 0 m sw (wide 1)) ∧
    (s.productOk .sparseB sh x acc.toNat mods →
      EntersQueue s (.mmasb m sw acc gx asgn bsgn isat z p) p sh x 0 0 m sw (wide 1)) ∧
    (s.productOk .moment sh x acc.toNat false →
      EntersQueue s (.mmam m sw acc gx z p) p sh x 0 0 m sw (wide 2)) ∧
    (s.pred p = true →
      let traps (i : Instr) (pr : Product) (mods : Bool) : Prop :=
        s.granuleTraps i acc.toNat (s.shapeOk pr sh x acc.toNat) (s.modsOk sh x mods) (s.productOut pr sh x)
      traps (.mma m sw acc gx asgn bsgn isat z p) .dense mods ∧ traps (.mmasa m sw acc gx asgn bsgn isat z p) .sparseA mods ∧
      traps (.mmasb m sw acc gx asgn bsgn isat z p) .sparseB mods ∧ traps (.mmam m sw acc gx z p) .moment false)

/-- R184, R189, R190, R196, R199, R203: the other instructions that enter the matrix queue, each with the checks it makes; a
drain that rounds by RM 4 draws its word as it enters; and the traps of those checks. The order of a drain's causes 0x02 and 0x22 is
that of log 65, and that of its output rows and its records that of log 83. -/
def Obligations.OtherEntriesEnterTheQueue : Prop :=
  ∀ (m : U2) (sw : Bool) (acc : U11) (cnt : Byte) (gx v : U5) (row : U4) (rm : U3) (col sat bias zp sgn isat z : Bool)
      (p : U3) (s : State),
    let sh := s.liveShape m sw
    let x := s.me.regs.readG gx
    let inStore (n : Nat) : Prop := acc.toNat + n ≤ granuleCount s.core ∧ s.owns
    let out (len : Nat) : Prop := RowsWithin ((shf sh 0 + x.toNat % 65536) * 1024) (16 * shf sh 7) len s.splSize (shf sh 4)
    let records : Prop := shf sh 2 * 1024 + 16 * shf sh 5 ≤ s.splSize
    let tileIn : Prop := s.tileOk sh ∧ inStore ((shf sh 5 + 31) / 32)
    let writes (n : Nat) (g : Nat) : Prop := acc.toNat ≤ g ∧ g < acc.toNat + n
    let summed (o : Operand) (nb rows : Nat) : Prop :=
      tileIn ∧ 1 ≤ shf sh 6 ∧ shf sh 6 ≤ 4096 ∧ shf sh 6 % 4 = 0 ∧ o.fmt = 4 ∧ o.scaled = false ∧ nb ≤ 5 ∧
        o.within rows (shf sh 6) ∧ s.mayRead nb
    (inStore (cnt.toNat + 1) →
      EntersQueue s (.azero acc cnt p) p 0 0 0 0 0 false (writes (cnt.toNat + 1))) ∧
    (inStore 1 → EntersQueue s (.aput acc v row col p) p 0 0 0 (s.vsrc (.v v)) 0 false (writes 1)) ∧
    (tileIn → shf sh 17 ≤ 4 → (sat = true → shf sh 17 = 3 ∨ shf sh 17 = 4) →
      out ((if shf sh 17 = 0 then 4 else if shf sh 17 ≤ 2 then 2 else 1) * shf sh 5) → (bias = true → records) →
      rm ≠ 4 → EntersQueue s (.drain m sw acc gx rm sat bias p) p sh x 0 0 m sw (fun _ => False)) ∧
    (tileIn → shf sh 17 ≤ 4 → (sat = true → shf sh 17 = 3 ∨ shf sh 17 = 4) →
      out ((if shf sh 17 = 0 then 4 else if shf sh 17 ≤ 2 then 2 else 1) * shf sh 5) → (bias = true → records) →
      rm = 4 →
        (s.pred p = true → s.me.queueTaken < 16 → Draws (.drain m sw acc gx rm sat bias p) s True fun w u t =>
          Entered u t (.drain m sw acc gx rm sat bias p) sh x w 0 m sw (fun _ => False)) ∧
        (s.pred p = true → 16 ≤ s.me.queueTaken → exec (.drain m sw acc gx rm sat bias p) s = .next s.hold) ∧
        (s.pred p = false → exec (.drain m sw acc gx rm sat bias p) s = .next s)) ∧
    (tileIn → 5 ≤ shf sh 17 → out ((if shf sh 17 = 7 then 4 else 1) * shf sh 5) → records →
      EntersQueue s (.drainq m sw acc gx bias zp p) p sh x 0 0 m sw (fun _ => False)) ∧
    (summed (s.opA sh 0 s.core.tabs false) (shf sh 15) (shf sh 4) →
      EntersQueue s (.arsum m sw acc gx sgn isat z p) p sh x 0 0 m sw (writes ((shf sh 5 + 31) / 32))) ∧
    (summed (s.opB sh 0 s.core.tabs false) (shf sh 16) (shf sh 5) →
      EntersQueue s (.acsum m sw acc gx sgn isat z p) p sh x 0 0 m sw (writes ((shf sh 5 + 31) / 32))) ∧
    (s.pred p = true →
      let named (n : Nat) : Prop := acc.toNat + n ≤ granuleCount s.core
      let tileNamed : Prop := s.tileOk sh ∧ named ((shf sh 5 + 31) / 32)
      let size := if shf sh 17 = 0 ∨ shf sh 17 = 7 then 4 else if shf sh 17 = 1 ∨ shf sh 17 = 2 then 2 else 1
      let outs (recs : Bool) : List (Nat → Prop) :=
        [FirstOut ((shf sh 0 + x.toNat % 65536) * 1024) (16 * shf sh 7) (size * shf sh 5) s.splSize (shf sh 4),
         fun y => recs = true ∧ FirstOut (shf sh 2 * 1024) 0 (16 * shf sh 5) s.splSize 1 y]
      let sum (i : Instr) (o : Operand) (nb rows : Nat) : Prop :=
        s.granuleTraps i acc.toNat (tileNamed ∧ 1 ≤ shf sh 6 ∧ shf sh 6 ≤ 4096 ∧ shf sh 6 % 4 = 0 ∧ o.fmt = 4 ∧ o.scaled = false ∧ nb ≤ 5)
          True [o.firstOut rows (shf sh 6), fun y => ¬ s.mayRead nb ∧ y = o.base]
      s.granuleTraps (.azero acc cnt p) acc.toNat (named (cnt.toNat + 1)) True [] ∧
      s.granuleTraps (.aput acc v row col p) acc.toNat (named 1) True [] ∧
      (sat = true → shf sh 17 ≠ 3 → shf sh 17 ≠ 4 → exec (.drain m sw acc gx rm sat bias p) s = .next (s.trapWord 0x02)) ∧
      ((sat = true → shf sh 17 = 3 ∨ shf sh 17 = 4) →
        s.granuleTraps (.drain m sw acc gx rm sat bias p) acc.toNat (tileNamed ∧ shf sh 17 ≤ 4) True (outs bias)) ∧
      s.granuleTraps (.drainq m sw acc gx bias zp p) acc.toNat (tileNamed ∧ 5 ≤ shf sh 17) True (outs true) ∧
      sum (.arsum m sw acc gx sgn isat z p) (s.opA sh 0 s.core.tabs false) (shf sh 15) (shf sh 4) ∧
      sum (.acsum m sw acc gx sgn isat z p) (s.opB sh 0 s.core.tabs false) (shf sh 16) (shf sh 5))

/-- R188, R196, R197, R198, R382: the waiting reads of the accumulator store and `mwait`, held while an entry that writes a
granule, or any entry, remains; and the reads that do not wait: of the elements as they stand while no entry that writes the
granule is queued, else of each as it stands after some of the entries that can be executed now, in order. Each of the four
traps on a granule that the slot cannot name, or an odd one where a pair is named, and on a store that another context owns
(R189, R190); and the two that wait raise the causes of R195, R382 and R429 once nothing is left to wait for. That a read
which does not wait completes in its own step, on the entries executed so far, is the model's choice (log 7). -/
def Obligations.AccumulatorReads : Prop :=
  ∀ (acc : U11) (v : U5) (md row : U4) (col : Bool) (p : U3) (s : State),
    let laneIn (m : Mems) (g : Nat) (col : Bool) (l : Nat) : Nat :=
      if col then s.accElem m g (l % 32) (2 * row.toNat + l / 32) else s.accElem m g (2 * row.toNat + l / 32) (l % 32)
    let lane := laneIn s.mems
    let later := s.progress s.me.mq.length
    let shown (n : Nat) : Prop := ∀ i ∈ (if n = 1 then [Instr.agetNw acc v row col p] else [.amgetNw acc md row p]),
      ∃ u ∈ later, ∃ r : Res, exec i s = .next (({ u with free := u.free + 1 } : State).issue (if n = 1 then 4 else 6) r 0) ∧
        match r with
        | .v d x k => d = .reg v ∧ k = BitVec.allOnes 64 ∧ ∀ l, l < 64 → ∃ w ∈ later, velem x 32 l = laneIn w.mems acc.toNat col l
        | .m d x k => d = md ∧ k = BitVec.allOnes 64 ∧ ∀ l, l < 64 → ∃ w ∈ later, ∃ w' ∈ later,
            velem (x.extractLsb' 0 2048) 32 l = laneIn w.mems acc.toNat true l ∧
            velem (x.extractLsb' 2048 2048) 32 l = laneIn w'.mems (acc.toNat + 1) true l
        | _ => False
    let busy (g : Nat) : Bool := s.me.mq.any fun e => e.writesGranule g
    let clean : Prop := s.me.sp.mfault.getLsbD 63 = false ∧ s.me.sp.mecc.getLsbD 63 = false ∧
      (s.me.cx.accxfer.getLsbD 61 = false ∨ s.me.priv = true)
    let vec (i : Instr) : Prop := ∃ x : Vec,
      exec i s = .next (s.issue 4 (.v (.reg v) x (BitVec.allOnes 64)) 0) ∧
        ∀ l, l < 64 → velem x 32 l = lane acc.toNat col l
    let pair (i : Instr) : Prop := ∃ x : Mom,
      exec i s = .next (s.issue 6 (.m md x (BitVec.allOnes 64)) 0) ∧ ∀ l, l < 64 →
        velem (x.extractLsb' 0 2048) 32 l = lane acc.toNat true l ∧
        velem (x.extractLsb' 2048 2048) 32 l = lane (acc.toNat + 1) true l
    (s.pred p = true → s.owns → acc.toNat + 1 ≤ granuleCount s.core → s.dev.bad = [] → s.dev.weak = [] →
      if busy acc.toNat then exec (.aget acc v row col p) s = .next s.hold ∧ shown 1
      else (clean → vec (.aget acc v row col p)) ∧
        ∃ u : State, exec (.agetNw acc v row col p) s = .next u ∧
          ∃ x : Vec, u = ({ s with free := s.free + 1 } : State).issue 4 (.v (.reg v) x (BitVec.allOnes 64)) 0 ∧
            ∀ l, l < 64 → velem x 32 l = lane acc.toNat col l) ∧
    (s.pred p = true → s.owns → acc.toNat + 2 ≤ granuleCount s.core → acc.toNat % 2 = 0 → s.dev.bad = [] → s.dev.weak = [] →
      if busy acc.toNat || busy (acc.toNat + 1) then exec (.amget acc md row p) s = .next s.hold ∧ shown 2
      else (clean → pair (.amget acc md row p)) ∧
        ∃ u : State, exec (.amgetNw acc md row p) s = .next u ∧
          ∃ x : Mom, u = ({ s with free := s.free + 1 } : State).issue 6 (.m md x (BitVec.allOnes 64)) 0 ∧ ∀ l, l < 64 →
            velem (x.extractLsb' 0 2048) 32 l = lane acc.toNat true l ∧
            velem (x.extractLsb' 2048 2048) 32 l = lane (acc.toNat + 1) true l) ∧
    (s.pred p = false →
      (∀ i ∈ [Instr.aget acc v row col p, .agetNw acc v row col p], exec i s = .next (s.issue 4 (.v (.reg v) 0 0) 0)) ∧
      ∀ i ∈ [Instr.amget acc md row p, .amgetNw acc md row p], exec i s = .next (s.issue 6 (.m md 0 0) 0)) ∧
    (s.pred p = true →
      let even : Prop := acc.toNat + 2 ≤ granuleCount s.core ∧ acc.toNat % 2 = 0
      (∀ i ∈ [Instr.aget acc v row col p, .agetNw acc v row col p],
        s.granuleTraps i acc.toNat (acc.toNat + 1 ≤ granuleCount s.core) True []) ∧
      (∀ i ∈ [Instr.amget acc md row p, .amgetNw acc md row p], s.granuleTraps i acc.toNat even True []) ∧
      (s.owns → ∀ (i : Instr) (n : Nat), (i = .aget acc v row col p ∧ n = 1) ∨ (i = .amget acc md row p ∧ n = 2 ∧ acc.toNat % 2 = 0) →
        acc.toNat + n ≤ granuleCount s.core → (∀ x, x < n → busy (acc.toNat + x) = false) →
        (s.me.sp.mfault.getLsbD 63 = true → exec i s = .next (s.trap 0x20 0x300)) ∧
        (s.me.sp.mfault.getLsbD 63 = false → s.me.sp.mecc.getLsbD 63 = true → exec i s = .next (s.trap 0x40 s.me.sp.mecc)) ∧
        (s.me.sp.mfault.getLsbD 63 = false → s.me.sp.mecc.getLsbD 63 = false → s.me.cx.accxfer.getLsbD 61 = true →
          s.me.priv = false → exec i s = .next (s.trap (s.me.cx.accxfer.extractLsb' 27 8) s.me.cx.accfail)))) ∧
    (s.me.mq ≠ [] → exec .mwait s = .next s.hold) ∧
    (s.me.mq = [] → exec .mwait s = .next (
      if s.me.sp.mfault.getLsbD 63 then s.trap 0x20 0x300
      else if s.me.sp.mecc.getLsbD 63 then s.trap 0x40 s.me.sp.mecc
      else if s.me.cx.accxfer.getLsbD 61 = true ∧ s.me.priv = false then
        s.trap (s.me.cx.accxfer.extractLsb' 27 8) s.me.cx.accfail
      else s))

/-- R93 to R97, R192 to R195, R199 to R203: what an entry of the matrix queue leaves when it completes: the elements of dense
and sparse products, in groups of ascending K, floating, integer or moment, with the flags and the fault record; zeroed
granules and stored lanes; the bytes that the two drains deliver, those of the later element where two overlap; and the row
and column sums. No other element and no other memory changes. The elements of the operands lie where R182 says and stand for
what R74 to R76 and R181 say. An entry that reads a failing byte sets no flag, records the byte in %mecc (R428) unless an
earlier one stands there, and leaves all that it does not write (R429). The sum of a group without kept elements is the
model's choice (log 21), and so is the order in which an entry meets its bytes (log 33). -/
def Obligations.MatrixElements : Prop :=
  ∀ (e : MqEntry) (es : List MqEntry) (s : State) (m : U2) (sw : Bool) (acc : U11) (cnt : Byte) (gx v : U5) (row : U4) (rm p : U3)
    (asgn bsgn isat z col sat bias zp sgn : Bool),
    s.Inv → s.me.mq = e :: es → e.started = true → s.dev.weak = [] → shf e.shape 4 ≤ 32 → shf e.shape 5 ≤ 96 →
    (∀ (i : Instr) (r : Space × Nat × Nat) (a : Nat), e.op = .ins i → r ∈ s.entryReads e i → s.dev.failing r.1 r.2.1 r.2.2 = some a →
      ∃ t : State, exec .matrixEntryComplete s = .next t ∧ t.me.mq = es ∧ t.me.regs = s.me.regs ∧ t.me.sp.stat = s.me.sp.stat ∧
        t.me.cx.accdirty = s.me.cx.accdirty ∧
        (if s.me.sp.mecc.getLsbD 63 then t.me.sp.mecc = s.me.sp.mecc
         else ∃ q ∈ s.entryReads e i, ∃ b : Nat, s.dev.failing q.1 q.2.1 q.2.2 = some b ∧
           t.me.sp.mecc.toNat = 2 ^ 63 + if q.1 = .acc then 4 * 2 ^ 59 + b % 2 ^ 23 else 2 * 2 ^ 59 + b % 2 ^ 20) ∧
        ∀ (sp : Space) (k : Nat), sp = .spl ∨ sp = .acc → (∀ w ∈ s.openWrites e i, w.1 = sp → k < w.2.1 ∨ w.2.1 + w.2.2.length ≤ k) →
          t.mems.byte sp k = s.mems.byte sp k) ∧
    (s.dev.bad = [] →
    let sh := e.shape
    OperandElements s (s.opA sh e.gx e.tabs asgn) e.tabs sh (shf sh 9) (shf sh 0 + e.gx.toNat % 65536) (shf sh 7) (shf sh 13 % 2)
      (shf sh 14 % 2) (shf sh 15) (shf sh 11) 0 asgn ∧
    OperandElements s (s.opB sh e.gx e.tabs bsgn) e.tabs sh (shf sh 10) (shf sh 1 + e.gx.toNat / 65536 % 65536) (shf sh 8)
      (shf sh 13 / 2) (shf sh 14 / 2) (shf sh 16) (shf sh 12)
      (if shf sh 14 % 2 = 1 then shf sh 4 * (shf sh 6 / 32) else 0) bsgn ∧
    let M := shf sh 4
    let N := shf sh 5
    let K := shf sh 6
    let g := acc.toNat
    let area := s.splAt (shf sh 2 * 1024)
    let int (x : Nat) : Int := Int.bmod x (2 ^ 32)
    let stat (t : State) (bit : Nat) (Q : Prop) : Prop :=
      (Q → t.me.sp.stat = s.me.sp.stat ||| BitVec.ofNat 64 (2 ^ bit)) ∧ (¬ Q → t.me.sp.stat = s.me.sp.stat)
    let tile (h i j : Nat) : Prop := g ≤ h ∧ 32 * (h - g) + j < N ∧ i < M
    (∀ (pr : Product) (i : Instr), e.op = .ins i →
      (pr = .dense ∧ i = .mma m sw acc gx asgn bsgn isat z p) ∨ (pr = .sparseA ∧ i = .mmasa m sw acc gx asgn bsgn isat z p) ∨
        (pr = .sparseB ∧ i = .mmasb m sw acc gx asgn bsgn isat z p) →
      let a := s.opA sh e.gx e.tabs asgn
      let b := s.opB sh e.gx e.tabs bsgn
      let G := classG (fmtClass a.fmt a.tab)
      s.completes es fun t => s.accKept t tile ∧
        (a.fmt ≠ 4 → t.me.sp.stat = s.me.sp.stat ∧ ∀ i j : Nat, i < M → j < N →
          Chain (fun k => GroupAdded 0 ((pairsOf pr s.mems area K i j (k * G) G).map fun x =>
              (a.val s.mems K i x.1).mul (b.val s.mems K j x.2))) (K / G)
            (if z then 0 else s.accElem s.mems (g + j / 32) i (j % 32)) (s.accElem t.mems (g + j / 32) i (j % 32))) ∧
        (a.fmt = 4 → ∃ c : Nat → Nat → Nat → Int,
          let sum (i j k : Nat) : Int := ((pairsOf pr s.mems area K i j (k * 4) 4).map fun x =>
            a.ival s.mems i x.1 * b.ival s.mems j x.2).foldl (· + ·) (c i j k)
          stat t 13 (isat = true ∧ ∃ i j k : Nat, i < M ∧ j < N ∧ k < K / 4 ∧
            bounded (-2 ^ 31) (2 ^ 31 - 1) (sum i j k) ≠ sum i j k) ∧
          ∀ i j : Nat, i < M → j < N →
            c i j 0 = (if z then 0 else int (s.accElem s.mems (g + j / 32) i (j % 32))) ∧
            (∀ k, k < K / 4 → c i j (k + 1) =
              if isat then bounded (-2 ^ 31) (2 ^ 31 - 1) (sum i j k) else Int.bmod (sum i j k) (2 ^ 32)) ∧
            int (s.accElem t.mems (g + j / 32) i (j % 32)) = c i j (K / 4))) ∧
    (e.op = .ins (.mmam m sw acc gx z p) →
      let a := s.opA sh e.gx e.tabs false
      let b := s.opB sh e.gx e.tabs false
      let mean (k j : Nat) : Nat := b.bits s.mems j k % 2 ^ 32
      let var (k j : Nat) : Nat := b.bits s.mems j k / 2 ^ 32
      let neg (k j : Nat) : Prop := k < K ∧ j < N ∧ negative (var k j) = true
      s.completes es fun t =>
        s.accKept t (fun h i j => g ≤ h ∧ 32 * ((h - g) / 2) + j < N ∧ i < M) ∧
        (∀ i j : Nat, i < M → j < N →
          let lo := g + 2 * (j / 32)
          Chain (fun k => GroupAdded 0 [(a.val s.mems K i k).mul (fdecode fp32 (mean k j))]) K
            (if z then 0 else s.accElem s.mems lo i (j % 32)) (s.accElem t.mems lo i (j % 32)) ∧
          Chain (fun k => GroupAdded 2 [((a.val s.mems K i k).mul (a.val s.mems K i k)).mul
              (fdecode fp32 (if negative (var k j) = true ∨ var k j = 0x80000000 then 0 else var k j))]) K
            (if z then 0 else s.accElem s.mems (lo + 1) i (j % 32)) (s.accElem t.mems (lo + 1) i (j % 32))) ∧
        stat t 14 (e.clamp = true ∧ ∃ k j, neg k j) ∧
        (e.clamp = true ∨ s.me.sp.mfault.getLsbD 63 = true ∨ (∀ k j, ¬ neg k j) → t.me.sp.mfault = s.me.sp.mfault) ∧
        (e.clamp = false → s.me.sp.mfault.getLsbD 63 = false → ∀ k j, neg k j →
          (∀ k' j', neg k' j' → k < k' ∨ (k = k' ∧ j ≤ j')) →
          t.me.sp.mfault.toNat = 2 ^ 63 + g * 2 ^ 20 + k * 2 ^ 7 + j)) ∧
    (e.op = .ins (.azero acc cnt p) → s.completes es fun t =>
      s.accKept t (fun h _ _ => g ≤ h ∧ h ≤ g + cnt.toNat) ∧
      ∀ h i j : Nat, g ≤ h → h ≤ g + cnt.toNat → i < 32 → j < 32 → s.accElem t.mems h i j = 0) ∧
    (let lane (l : Nat) : Nat × Nat :=
       if col then (l % 32, 2 * row.toNat + l / 32) else (2 * row.toNat + l / 32, l % 32)
     e.op = .ins (.aput acc v row col p) → s.completes es fun t =>
      s.accKept t (fun h i j => h = g ∧ ∃ l, l < 64 ∧ lane l = (i, j)) ∧
      ∀ l, l < 64 → s.accElem t.mems g (lane l).1 (lane l).2 = velem e.vec 32 l) ∧
    (let size := if shf sh 17 = 0 ∨ shf sh 17 = 7 then 4 else if shf sh 17 = 1 ∨ shf sh 17 = 2 then 2 else 1
     let out (i j : Nat) : Nat :=
       s.splAt ((shf sh 0 + e.gx.toNat % 65536) * 1024 + 16 * shf sh 7 * i + size * j)
     let field (j x n : Nat) : Nat := s.mems.nat .spl (s.splAt (shf sh 2 * 1024 + 16 * j + x)) n
     let drains (val : Nat → Nat → Nat) (t : State) : Prop :=
       (∀ i j x : Nat, i < M → j < N → x < size →
         (∀ i' j' : Nat, i' < M → j' < N → (i < i' ∨ (i = i' ∧ j < j')) →
           out i j + x < out i' j' ∨ out i' j' + size ≤ out i j + x) →
         t.mems.byte .spl (out i j + x) = (leBytes size (val i j)).getD x 0) ∧
       (∀ k : Nat, (∀ i j : Nat, i < M → j < N → k < out i j ∨ out i j + size ≤ k) → t.mems.byte .spl k = s.mems.byte .spl k) ∧
       ∀ (sp : Space) (k : Nat), sp ≠ .spl → t.mems.byte sp k = s.mems.byte sp k
     (e.op = .ins (.drain m sw acc gx rm sat bias p) → shf sh 17 ≤ 4 → s.completes es fun t =>
        ∃ r : Nat → Nat → FR, drains (fun i j => (r i j).bits) t ∧
          stat t 12 (sat = true ∧ ∃ i j, i < M ∧ j < N ∧ (r i j).fl.getLsbD 12 = true) ∧
          ∀ i j : Nat, i < M → j < N →
            let x := fdecode fp32 (s.accElem s.mems (g + j / 32) i (j % 32))
            Delivers (shf sh 17) rm.toNat (stochBits e.w (96 * i + j)) sat
              (if bias then x.add (rm == 3) (fdecode fp32 (field j 8 4)) else x) (r i j)) ∧
      (e.op = .ins (.drainq m sw acc gx bias zp p) → 5 ≤ shf sh 17 → shf sh 17 ≤ 7 → s.completes es fun t =>
        let w := if shf sh 17 = 7 then 32 else 8
        let lo : Int := if shf sh 17 = 6 then 0 else -2 ^ (w - 1)
        let hi : Int := if shf sh 17 = 6 then 255 else 2 ^ (w - 1) - 1
        let y (i j : Nat) : Int :=
          let x := int (s.accElem s.mems (g + j / 32) i (j % 32))
          let by_ := (if bias then x + int (field j 8 4) else x) * int (field j 0 4)
          let n := field j 4 1 % 64
          (if n = 0 then by_ else (by_ + 2 ^ (n - 1)) / 2 ^ n) + if zp then Int.bmod (field j 6 2) (2 ^ 16) else 0
        drains (fun i j => (bounded lo hi (y i j) % 2 ^ w).toNat) t ∧
          stat t 12 (∃ i j, i < M ∧ j < N ∧ bounded lo hi (y i j) ≠ y i j))) ∧
    (∀ rows : Bool, e.op = .ins (if rows then .arsum m sw acc gx sgn isat z p else .acsum m sw acc gx sgn isat z p) →
      let o := if rows then s.opA sh 0 e.tabs sgn else s.opB sh 0 e.tabs sgn
      let y (i j : Nat) : Int := (if z then 0 else int (s.accElem s.mems (g + j / 32) i (j % 32))) +
        int (e.gx.toNat % 2 ^ 32) * ((List.range K).map fun k => o.ival s.mems (if rows then i else j) k).foldl (· + ·) 0
      s.completes es fun t => s.accKept t tile ∧
        (∀ i j : Nat, i < M → j < N → int (s.accElem t.mems (g + j / 32) i (j % 32)) =
          if isat then bounded (-2 ^ 31) (2 ^ 31 - 1) (y i j) else Int.bmod (y i j) (2 ^ 32)) ∧
        stat t 13 (isat = true ∧ ∃ i j, i < M ∧ j < N ∧ bounded (-2 ^ 31) (2 ^ 31 - 1) (y i j) ≠ y i j)))

/-! ### Memory accesses -/

/-- R210, R211, R212, R215, R219: loads and stores of the slot's own scratchpad, by both of their forms; a store under a
false predicate does nothing, and such a load delivers nothing. The order of the checks is that of log 25, and what an
access waits for of its own slot that of log 26. That a store to bytes which an engine has still to read issues and is held at the
port is log 68. -/
def Obligations.ScratchpadLoadsAndStores : Prop :=
  ∀ (d : LdDst) (d1 : Dst) (x : StSrc) (b a : Src) (disp : Disp) (sz p : U3) (wt cons : Bool) (s : State), s.Inv →
    let ea := s.src a + disp.val * BitVec.ofNat 64 (szBytes sz)
    (s.pred p = true →
      SplLoad s (.ldSplSm d1 a disp sz p) (.narrow sz d1) ea false false ∧
      SplLoad s (.ldSpl d a wt cons p) d (s.src a) wt cons ∧
      SplStore s (.stSplSm b a disp sz p) ea (szBytes sz) (leBytes (szBytes sz) (s.src b).toNat) ∧
      SplStore s (.stSpl x a p) (s.src a) (stAlign x) (s.storeBytes x)) ∧
    (s.pred p = false →
      exec (.ldSplSm d1 a disp sz p) s = .next (s.issueG 4 d1 p 0 0) ∧
      exec (.ldSpl d a wt cons p) s = .next (s.issueLoad 4 (ldNone d) none) ∧
      exec (.stSplSm b a disp sz p) s = .next s ∧ exec (.stSpl x a p) s = .next s)

/-- R216, R218, R220, R291, R426, R428: the presence tag instructions on a cell of the slot's scratchpad, behind a returning
atomic of the slot; no other tag and no byte changes. A failing tag or word raises cause 0x40. -/
def Obligations.PresenceTags : Prop :=
  ∀ (d : Dst) (a b : Src) (p : U3) (s : State), s.Inv → s.pred p = true →
    let cell := s.place.cell (s.src a).toNat
    let old := s.mems.tag cell
    let becomes (i : Instr) (new : Tag) : Prop := ∃ t, exec i s = .next t ∧ t.me = s.me ∧ s.mems.onlyTags t.mems ∧
      (∀ c, t.mems.tag c = if c = cell then new else s.mems.tag c)
    let listed := s.dev.refs.any fun e => e.phys == s.core.phys && e.what == .cell cell
    let n := (s.src b).toNat % 2048
    if s.splSize ≤ (s.src a).toNat then
      ∀ i ∈ [Instr.parm a b p, .prel a p, .pfill a p, .pget d a p], exec i s = .next (s.trap 0x12 (s.src a))
    else if s.acquiring = true then
      ∀ i ∈ [Instr.parm a b p, .prel a p, .pfill a p, .pget d a p], exec i s = .next s.hold
    else if cell ∈ s.dev.badTags then
      ∀ i ∈ [Instr.parm a b p, .prel a p, .pfill a p, .pget d a p], ∃ t, exec i s = .next t ∧ t.me = (s.trap 0x40 (s.src a)).me ∧
        ∀ c, t.mems.tag c = s.mems.tag c
    else
      (if n = 0 ∨ 1024 < n then exec (.parm a b p) s = .next (s.trap 0x12 (s.src a))
        else ∃ new : Tag, becomes (.parm a b p) new ∧ new.exp.toNat = n ∧ new.count = old.count ∧
          (new.full = true ↔ old.full = true ∨ n ≤ old.count.toNat)) ∧
      becomes (.prel a p) { old with full := false, count := 0 } ∧
      becomes (.pfill a p) (if old.full then old else { old with full := true, count := old.exp }) ∧
      ∃ v : U64, exec (.pget d a p) s = .next (s.issueG 4 d p v 0) ∧
        v.toNat = old.count.toNat + old.exp.toNat * 65536 + (if old.full then 2 ^ 32 else 0) + (if listed then 2 ^ 33 else 0)

/-- R204, R205, R267, R268: the loads of the codebooks, the scale table and the control store from the scratchpad. The order
of the checks is that of log 25. -/
def Obligations.TablesAndControlStore : Prop :=
  ∀ (n : U4) (a b : Src) (m : Imm9) (p : U3) (s : State), s.Inv →
    let x := s.src a + m.val
    let entry (each e : Nat) : Nat := s.mems.nat .spl (s.place.at (x.toNat + each * e)) each
    let loads (i : Instr) (len each t : Nat) (typ : U16) : Prop :=
      if isS s.core.phys then exec i s = .next (s.trapWord 0x01)
      else if s.pred p = false then exec i s = .next s
      else if x.toNat % 16 ≠ 0 then exec i s = .next (s.trap 0x10 x)
      else if s.splSize < x.toNat + len then exec i s = .next (s.trap 0x12 x)
      else s.splQuiet x.toNat len → s.splSound x.toNat len → s.dev.weak = [] → s.generationsHeld t = false →
        ∃ es : Vector U16 16, (∀ e : Fin 16, es[e].toNat = entry each e.val) ∧
          exec i s = .next { s with me := { s.me with tabq := s.me.tabq ++ [⟨4, t, typ, es⟩] } }
    let off := (s.src a).toNat
    let first := (s.src b).toNat % 1024
    let count := (s.src b).toNat / 65536 % 2048
    let word (i : Nat) : U128 := BitVec.ofNat 128 (s.mems.nat .spl (s.place.at (off + 16 * i)) 16)
    loads (.cbldBf16 n a m p) 32 2 n.toNat 0 ∧ loads (.cbldE4m3 n a m p) 16 1 n.toNat 1 ∧ loads (.scld a m p) 32 2 16 0 ∧
    (s.pred p = true →
      if off % 16 ≠ 0 then exec (.mcld a b p) s = .next (s.trap 0x10 (s.src a))
      else if count = 0 ∨ 1024 < count ∨ 1024 < first + count ∨ s.splSize < off + 16 * count then
        exec (.mcld a b p) s = .next (s.trap 0x12 (s.src a))
      else s.splQuiet off (16 * count) → s.splSound off (16 * count) → s.dev.weak = [] →
        if ∃ i, i < count ∧ (word i &&& 0xFFFF000000000F00FFFFFFFF00000000) ≠ 0 then
          exec (.mcld a b p) s = .next (s.trapWord 0x02)
        else ∃ t, exec (.mcld a b p) s = .next t ∧ t.me = s.me ∧ t.mems = { s.mems with cst := t.mems.cst } ∧
          ∀ k : Nat, t.mems.ctl k =
            if s.core.phys * 1024 + first ≤ k ∧ k < s.core.phys * 1024 + first + count then
              word (k - (s.core.phys * 1024 + first))
            else s.mems.ctl k)

/-- R208, R209, R221, R222, R223, R296, R307: the writes that leave for another scratchpad or for a peer's memory, once
their address is in order: what is sent, to which device and core, and in which order, once their path has room for them all under
256 unanswered; else the bundle is held. Of the rows of an `rcopy` those that the path has no room for are kept back, and they hold
the slot until they are sent: that is the model's choice (log 67), and so is the order of the checks (log 25). -/
def Obligations.WritesToThePod : Prop :=
  ∀ (x : StSrc) (v a : Src) (fg r : U5) (tier : U2) (tag : Bool) (p : U3) (s : State), s.pred p = true →
    let ad := s.src a
    let fl := s.me.regs.readG fg
    let n := stBytes x
    let base (k : PodKind) (ad : U64) (tag : Bool) (bs : List Byte) (kind : Nat) : Msg :=
      { s.blank (.pod k) with
        path := tier.toNat, dev := ad.toNat / 2 ^ 54, core := ad.toNat / 2 ^ 46 % 256, addr := ad.toNat % 2 ^ 20
        tag := tag, data := bs, rkind := kind, raddr := ad }
    let aimed (ad : U64) : Prop := ad.toNat / 2 ^ 20 % 2 ^ 26 = 0 ∧ s.devValid (ad.toNat / 2 ^ 54) = true
    let fits (n : Nat) : Prop := tag = true → ad.toNat % 2 ^ 20 / 1024 = (ad.toNat % 2 ^ 20 + n - 1) / 1024
    let lo := s.me.regs.readG r
    let hi := s.me.regs.readG (r + 1)
    let d := rcopyOf lo hi
    let row (i : Nat) : Msg := base .put (ad + BitVec.ofNat 64 (i * d.dstr)) tag
      (s.mems.read .spl (s.place.at (d.soff + i * d.sstr)) d.len) 4
    let waiting : Nat := s.dev.net.countP fun m =>
      m.src == s.party && m.ctx == s.ctx && m.path == tier.toNat && m.isWrite && m.stage != .unsent
    let posts (i : Instr) (ms : List Msg) : Prop :=
      (waiting + ms.length ≤ 256 → Sends i s ms) ∧ (256 < waiting + ms.length → exec i s = .next s.hold)
    (ad.toNat % stAlign x = 0 → fits n → aimed ad →
      posts (.putSpp x a tier tag p) [base .put ad tag (s.storeBytes x) 1] ∧
      (fl.toNat / 2 ^ 46 = ad.toNat / 2 ^ 46 → fl.toNat / 2 ^ 20 % 2 ^ 26 = 0 → fl.toNat % 4 = 0 →
        posts (.putfSpp x a fg tier tag p) [base .put ad tag (s.storeBytes x) 2, base .flag fl false [] 2])) ∧
    (ad.toNat % 4 = 0 → aimed ad →
      posts (.raddSpp v a tier p) [base .radd ad false (leBytes 4 (s.src v).toNat) 3]) ∧
    (ad.toNat % stAlign x = 0 → ad.toNat / 2 ^ 48 % 64 = 0 →
      posts (.putPhm x a tier p) [{ base .phm ad false (s.storeBytes x) 5 with addr := ad.toNat % 2 ^ 48 }]) ∧
    (s.rcopyCheck lo hi ad tag d = .ok () → aimed ad → s.dev.weak = [] →
      (∀ i, i < d.rows → s.splQuiet (d.soff + i * d.sstr) d.len ∧ s.splSound (d.soff + i * d.sstr) d.len) →
      ∃ t, exec (.rcopySpp r a tier tag p) s = .next t ∧ PostedAll s t ((List.range d.rows).map row) ∧
        (∀ (i : Nat) (m : Msg), i < d.rows → t.dev.net[s.dev.net.length + i]? = some m → (m.stage = .unsent ↔ 256 ≤ waiting + i)) ∧
        (256 < waiting + d.rows → t.rowsUnsent = true))

/-- R208, R210, R211, R213, R215, R237: accesses of the cluster, of HBM and of host memory: a load takes its tag and its
store, an atomic that returns a value as much, and each sends its message; a store or an atomic whose page the core's TLB
holds sends the bytes for the page's physical address. An atomic that a host page does not support raises 0x15; and at user level
with %aemuc armed an atomic clears ARMED as it issues, and at the recorded bundle takes %aemu for its result and accesses nothing
(R240). The order of the checks is that of log 25. -/
def Obligations.AccessesBeyondTheCore : Prop :=
  ∀ (d : LdDst) (x : StSrc) (v a : Src) (n : Byte) (w tag : Bool) (scope p : U3) (aop : U4) (q : Place) (pg : Pte)
      (s : State), s.pred p = true →
    let ad := s.src a
    let bytes : List Byte := match x with
      | .vec v t u => (List.range (2048 / etWidth (convType t u))).flatMap
          (storedElem (s.vsrc v) (convType t u) (pteFmt pg.word))
      | _ => s.storeBytes x
    let far (space : Nat) (i : Instr) : Prop := ∃ (t : State) (r : LoadReq), exec i s = .next t ∧
      LoadsFrom s t d n.toNat { s.blank (.load r) with raddr := ad } ∧ r.id = s.me.loadId ∧ r.space = space ∧ r.addr = ad ∧
      ∀ va ∈ s.loadPages d ad.toNat, va ∈ r.need ∨ ∃ g ∈ r.got, g.1 = va
    (s.tagsFree (ldUnits d) = true → if ad.toNat < 2 ^ 48 then far 3 (.ldHbm d a n p) ∧ far 4 (.ldHst d a n p)
      else ∀ i ∈ [Instr.ldHbm d a n p, .ldHst d a n p], exec i s =
        .next (s.issueLoad n.toNat (ldNone d) (some ⟨0, ldUnits d, s.me.iss.bpc, .failed 0x11 ad, none⟩))) ∧
    (s.tagsFree (ldUnits d) = false → ∀ i ∈ [Instr.ldSpk d a n p, .ldHbm d a n p, .ldHst d a n p], exec i s = .next s.hold) ∧
    (s.tagsFree (ldUnits d) = true → ad.toNat % ldAlign d = 0 → s.spkCheck ad (ldBytes d) = .ok q →
      if q = s.place ∧ s.me.drainPending (ad.toNat % 2 ^ 20) (ldBytes d) = true then exec (.ldSpk d a n p) s = .next s.hold
      else ∃ (t : State) (r : LoadReq), exec (.ldSpk d a n p) s = .next t ∧ r.id = s.me.loadId ∧ r.space = 1 ∧
        LoadsFrom s t d n.toNat { s.blank (.load r) with
          core := q.phys, slot1 := q.slot1, addr := ad.toNat % 2 ^ 20, raddr := ad }) ∧
    (ad.toNat % stAlign x = 0 → (tag = true → ad.toNat % 2 ^ 20 / 1024 = (ad.toNat % 2 ^ 20 + stBytes x - 1) / 1024) →
      s.spkCheck ad (stBytes x) = .ok q → s.pathFull 3 1 = false →
      if q = s.place ∧ s.me.drainPending (ad.toNat % 2 ^ 20) (stBytes x) = true then exec (.stSpk x a tag p) s = .next s.hold
      else Sends (.stSpk x a tag p) s [{ s.blank .spk with
        path := 3, core := q.phys, slot1 := q.slot1, addr := ad.toNat % 2 ^ 20, tag := tag, data := s.storeBytes x
        raddr := ad }]) ∧
    (pteFmt pg.word = 0 → bytes = s.storeBytes x) ∧
    (∀ host : Bool, s.onPage pg ad bytes.length (some host) →
      if storeBarred x pg.word then
        exec (if host then .stHst x a p else .stHbm x a p) s = .next (s.trap 0x12 ad)
      else if ad.toNat % farAlign (stAlign x) (pteFmt pg.word) ≠ 0 then
        exec (if host then .stHst x a p else .stHbm x a p) s = .next (s.trap 0x10 ad)
      else Sends (if host then .stHst x a p else .stHbm x a p) s [{ s.blank (if host then .hst else .hbm) with
        pieces := [(host, pteAddr pg.word + (ad.toNat - pg.va), bytes)], rkind := 7, raddr := ad }]) ∧
    (let i := Instr.amo v a n w scope aop p
     let armed : Bool := !s.me.priv && s.me.sp.aemuc.getLsbD 0
     let here : Prop := s.me.sp.aemuc.toNat / 16 = s.me.iss.bpc.toNat
     let disarmed (t : State) : State :=
       if armed then { t with me := { t.me with sp := { t.me.sp with aemuc := t.me.sp.aemuc &&& 0xFFFFFFFFFFFFFFFE } } } else t
     let m : Msg := { s.blank (.amo {
         aop := aop.toNat, word := w, scope := scope.toNat, x := s.src v, y := s.casNew v, ret := n != 0, id := s.me.loadId
         host := pteHost pg.word, pa := pteAddr pg.word + (ad.toNat - pg.va), done := false, old := 0, mis := false }) with
       rkind := 8, raddr := ad }
     (armed = true → here → exec i s = .next (disarmed (if n = 0 then s else s.issueLoad n.toNat (.g .tr s.me.sp.aemu true)
       (some ⟨0, 0, s.me.iss.bpc, .ready, none⟩)))) ∧
     (s.onPage pg ad (if w then 4 else 8) none → pteFmt pg.word = 0 → ad.toNat % (if w then 4 else 8) = 0 →
       (armed = true → ¬ here ∧ s.me.iss.res = .issued) →
       if pteHost pg.word = true ∧ (n ≠ 0 ∨ 3 < aop.toNat) then exec i s = .next (s.trap 0x15 ad)
       else if n ≠ 0 ∧ s.tagsFree 1 = false then exec i s = .next s.hold
       else ∃ t, exec i s = .next (disarmed t) ∧ (n = 0 → PostedAll s t [m]) ∧
         (n ≠ 0 → LoadsFrom s t (.narrow 0 .tr) n.toNat m)))

/-! ### Waiting and synchronisation -/

/-- R227, R228, R229, R230, R231, R232, R241: flags and barrier objects: a flag wait holds while the word is below (or
equals) its operand; a barrier opens once its count reaches its quota, or is invalidated; arriving adds one. A fence waits
for the writes of its scope, traps on a recorded error response, and else does nothing; scope 3 names a group of the job and
raises cause 0x12 for one that is not. The order of the checks of an address is that of log 25, what an access waits for of its own
slot that of log 26, and that a barrier instruction holds its bundle while an engine has still to read the word is log 68. -/
def Obligations.FlagsBarriersAndFences : Prop :=
  (∀ (a b : Src) (p : U3) (s : State), s.Inv → s.pred p = true →
     let ad := s.src a
     let x := (s.src b).toNat % 2 ^ 32
     let key := s.place.at ad.toNat
     let count := s.mems.nat .spl key 4
     let quota := s.mems.nat .spl (key + 4) 4
     Waits s (.fwait a b p) ad 4 (.ge ((s.src b).extractLsb' 0 32)) (if x ≤ count then some (count, 0) else none) ∧
     Waits s (.fwaitne a b p) ad 4 (.ne ((s.src b).extractLsb' 0 32)) (if x ≠ count then some (count, 0) else none) ∧
     Waits s (.bwait a p) ad 8 .barrier (if 2 ^ 31 ≤ quota then some (count, 1)
       else if quota ≠ 0 ∧ quota ≤ count then some (count, 0) else none) ∧
     BarrierWrite s (.binit a b p) ad (leBytes 4 0 ++ leBytes 4 ((s.src b).toNat % 2 ^ 31)) ∧
     BarrierWrite s (.barrive a p) ad (leBytes 4 ((count + 1) % 2 ^ 32) ++ leBytes 4 quota) ∧
     BarrierWrite s (.binval a p) ad (leBytes 4 count ++ leBytes 4 (2 ^ 31 + quota % 2 ^ 31))) ∧
  (∀ (scope : U4) (grp : Byte) (p : U3) (s : State), s.pred p = true →
     let group := s.myJob.bind fun j => j.groups[grp.toNat]?
     exec (.fence scope grp p) s = .next (
       if scope = 3 ∧ (group = none ∨ 64 ≤ grp.toNat) then s.trap 0x12 (BitVec.ofNat 64 grp.toNat)
       else if ∃ m ∈ s.dev.net, s.fenced scope.toNat (group.getD []) m = true then s.hold
       else if s.me.sp.rfault.getLsbD 63 then s.trap (s.me.sp.rfault.extractLsb' 8 8) s.me.sp.rfaddr
       else s))


/-! ### The copy engine, macros, random words, tiles, engines, records -/

/-- R233, R234, R235, R291, R426, R428: queue regions: an entry sent to a region; the address of the oldest full entry popped,
with the number left; an empty region, which holds or, without waiting, answers all ones; the oldest popped entry done. A
region that is not enabled raises cause 0x12. -/
def Obligations.QueueRegions : Prop :=
  ∀ (d : Dst) (a b : Src) (n : U4) (esz : U3) (tier : U2) (p : U3) (nw : Bool) (s : State), s.pred p = true →
    let q := s.me.sp.region n.toNat
    let cfg := s.me.sp.qcfg[n.toNat]
    let ptr := s.me.sp.qptr[n.toNat]
    let become (full pop head : Nat) : State := { s with me := { s.me with sp := { s.me.sp with
      qptr := s.me.sp.qptr.set n.toNat (BitVec.ofNat 64 (full * 2 ^ 32 + pop * 2 ^ 16 + head)) n.isLt } } }
    let both : List Instr := [.qpop d n nw p, .qdone n p]
    let bad : Bool := s.dev.badTags.contains (regionKey (slotNo s.core.phys s.me.slot1) n.toNat)
    let works : Prop := q.en = true ∧ s.acquiring = false ∧ bad = false
    (q.full = ptr.toNat / 2 ^ 32 % 65536 ∧ q.pop = ptr.toNat / 65536 % 65536 ∧ q.head = ptr.toNat % 65536 ∧
      q.base = cfg.toNat % 2 ^ 20 ∧ q.entry = 16 * 2 ^ (cfg.toNat / 2 ^ 40 % 8) ∧
      q.cap = cfg.toNat / 2 ^ 20 % 2 ^ 20 / q.entry ∧ q.en = cfg.getLsbD 63) ∧
    (q.en = false → ∀ i ∈ both, exec i s = .next (s.trap 0x12 (BitVec.ofNat 64 n.toNat))) ∧
    (q.en = true → s.acquiring = true → ∀ i ∈ both, exec i s = .next s.hold) ∧
    (q.en = true → s.acquiring = false → bad = true → ∀ i ∈ both, ∃ t, exec i s = .next t ∧
      t.me = (s.trap 0x40 (BitVec.ofNat 64 (2 ^ 63 + 3 * 2 ^ 59 + n.toNat))).me ∧ t.mems.tags = s.mems.tags) ∧
    (works → q.full ≠ 0 → ∃ t u, exec (.qpop d n nw p) s = .next t ∧
      Reports (become (q.full - 1) (q.pop + 1) q.head) u (q.full - 1) 0 ∧
      t = u.issueG 2 d p (BitVec.ofNat 64 (q.base + (q.head + q.pop) % q.cap * q.entry)) 0) ∧
    (works → q.full = 0 → ∃ t, exec (.qpop d n nw p) s = .next t ∧
      if nw then ∃ u, Reports s u 0 2 ∧ t = u.issueG 2 d p (BitVec.allOnes 64) 0 else t = s.hold) ∧
    (works → q.pop = 0 → exec (.qdone n p) s = .next s) ∧
    (works → q.pop ≠ 0 → ∃ t, exec (.qdone n p) s = .next t ∧
      t.me = (become q.full (q.pop - 1) ((q.head + 1) % q.cap)).me ∧ t.mems = s.mems ∧
      (∀ e : RefEntry, e ∈ t.dev.refs ↔ e ∈ s.dev.refs ∧ ¬ (e.phys = s.core.phys ∧ e.what = .region s.me.slot1 n.toNat))) ∧
    (let ad := s.src a
     let from_ := s.src b
     let size := 16 * 2 ^ esz.toNat
     from_.toNat % 16 = 0 → from_.toNat + size ≤ s.splSize → ad.toNat / 2 ^ 20 % 2 ^ 26 = 0 →
     s.devValid (ad.toNat / 2 ^ 54) = true → s.pathFull tier.toNat 1 = false → s.splQuiet from_.toNat size →
     s.splSound from_.toNat size → s.dev.weak = [] →
      Sends (.qput a b n esz tier p) s [{ s.blank (.pod .qput) with
        path := tier.toNat, dev := ad.toNat / 2 ^ 54, core := ad.toNat / 2 ^ 46 % 256, addr := ad.toNat % 2 ^ 20
        data := s.mems.read .spl (s.place.at from_.toNat) size, rkind := 6, raddr := ad, region := n.toNat
        esz := esz.toNat }])

/-- R40, R246, R251, R253, R254: a copy and a chain take the next identifier of their channel, which they deliver, and are
appended to the channel's queue; `cwait` ends once the identifier is done; a channel that the context may not use raises
cause 0x12. That `cchain` checks its channel before its address is the model's choice (log 86). -/
def Obligations.CopiesAndChains : Prop :=
  ∀ (x : U2) (sw tag follow : Bool) (a : U5) (b c : Src) (d : Dst) (n : U4) (tier : U2) (p : U3) (s : State),
    s.pred p = true →
    let cl := clusterOf s.core.phys
    let id := s.me.nextId[n.toNat]
    let serial := s.dev.serial + 1
    let sh := if sw then s.me.regs.xsS[x.toNat] else s.me.regs.xsL[x.toNat]
    let regs := if sw then { s.me.regs with
        xsL := s.me.regs.xsL.set x.toNat s.me.regs.xsS[x.toNat] x.isLt
        xsS := s.me.regs.xsS.set x.toNat s.me.regs.xsL[x.toNat] x.isLt } else s.me.regs
    let appends (i : Instr) (regs : Regs) (follow : Bool) (tr : Transfer) : Prop :=
      ∃ chans : List Channel,
        exec i s = .next (({ s with
          me := { s.me with regs := regs, nextId := s.me.nextId.set n.toNat (id + 1) n.isLt,
                            follows := if follow then s.me.follows ++ [(cl * 16 + n.toNat, serial)] else s.me.follows }
          dev := { s.dev with serial := serial, chans := chans } } : State).issueG 1 d p id 0) ∧
        (({ s.dev with chans := chans } : Dev).chan cl n.toNat).q = (s.dev.chan cl n.toNat).q ++
          [{ tr with id := id.toNat, serial := serial, who := s.me.who, phys := s.core.phys, slot1 := s.me.slot1
                     mark := s.dev.nextMsg }] ∧
        ∀ k m : Nat, (k, m) ≠ (cl, n.toNat) → ({ s.dev with chans := chans } : Dev).chan k m = s.dev.chan k m
    (s.copyCheck sh (s.me.regs.readG a) (s.me.regs.readG (a + 1)) tag tier.toNat follow n.toNat = .ok () →
      appends (.copy x sw a d n tier tag follow p) regs follow
        ⟨0, 0, s.me.who, 0, false, sh, s.me.regs.readG a, s.me.regs.readG (a + 1), tag, tier.toNat, follow, false, 0, 0, 0,
          true, 0, 0⟩) ∧
    (if s.me.sp.cmask.getLsbD n.toNat = false then
      exec (.cchain d b n p) s = .next (s.trap 0x12 (BitVec.ofNat 64 n.toNat)) ∧
      exec (.cwait n c p) s = .next (s.trap 0x12 (BitVec.ofNat 64 n.toNat))
     else
      (if (s.src b).toNat % 64 ≠ 0 then exec (.cchain d b n p) s = .next (s.trap 0x10 (s.src b))
       else appends (.cchain d b n p) s.me.regs false
        ⟨0, 0, s.me.who, 0, false, 0, 0, 0, false, 0, false, true, s.src b, 0, 0, false, 0, 0⟩) ∧
      exec (.cwait n c p) s = .next (
        if (s.cdone n.toNat).toNat ≤ (s.src c).toNat then s.hold
        else if s.me.sp.rfault.getLsbD 63 then s.trap (s.me.sp.rfault.extractLsb' 8 8) s.me.sp.rfaddr
        else s))

/-- R41, R72, R103, R107, R269, R272, R274, R331: the no-operation, the header, the start of a macro, the seed of the random
words, the oldest of them delivered and taken by the bundle that issues, and a tile claimed. That a tile claim under a false
predicate does nothing is log 19. -/
def Obligations.HeadersMacrosSeedsAndTiles : Prop :=
  ∀ (e3 e2 e1 : Byte) (d : Dst) (a b : Src) (idx : BitVec 10) (flush : Bool) (p : U3) (s : State),
    Draws (.rngpop d p) s (s.pred p = true) (fun x u t => t = u.issueG 1 d p x 0) ∧
    (∀ (t : Thread) (x : U64) (xs : List U64), t.iss.usedW = true → t.rnq = x :: xs → t.issued.rnq = xs) ∧
    exec .nop s = .next s ∧
    exec (.hdr false e3 e2 e1) s = .next s ∧
    (∃ dev : Dev, s.dev.onlyBad dev ∧ exec (.hdr true e3 e2 e1) s = .next { s with dev := dev, me := { s.me with
      regs := { s.me.regs with q := Vector.replicate 16 0, b := Vector.replicate 3 0 }
      infl := s.me.infl.map fun e => { e with noq := true }
      iss := { s.me.iss with cleared := some ⟨s.me.infl, s.me.regs.q, s.me.regs.b⟩ } } }) ∧
    (s.pred p = true → s.me.mac.mpc.getLsbD 63 = true → exec (.macroRun a idx p) s = .next (s.trapWord 0x01)) ∧
    (s.pred p = true → s.me.mac.mpc.getLsbD 63 = false → ∃ (m : MacroRegs),
      exec (.macroRun a idx p) s = .next { s with me := { s.me with mac := m } } ∧
      m.mpc.toNat = 2 ^ 63 + idx.toNat ∧ m.spc = 0 ∧ m.mlinit = s.src a ∧
      (∀ k, k < 4 → m.mlc.toNat / 2 ^ (16 * k) % 65536 =
        Nat.max 1 ((s.src a).toNat / 2 ^ (16 * k) % 65536)) ∧
      m.addr = pcAddr s.me.iss.bpc ∧ m.next = s.me.iss.bpc + 1) ∧
    (s.pred p = true → exec (.rngseed a b flush p) s = .next { s with me := { s.me with
      sp := { s.me.sp with
        rngs0 := if s.src a = 0 ∧ s.src b = 0 then 0x9E3779B97F4A7C15 else s.src a, rngs1 := s.src b }
      rnq := if flush then [] else s.me.rnq } }) ∧
    (s.pred p = true → ∃ d : Dev, exec (.ntile p) s = .next ({ s with
      dev := d
      me := { s.me with sp := { s.me.sp with tcptr := BitVec.ofNat 64 ((s.me.sp.tcptr.toNat + 1) % 4) } } }.issue 24
        (.tc (s.me.sp.tcptr.extractLsb' 0 2) s.claim.1) 0) ∧ d = s.claim.2) ∧
    (s.me.bound = none → s.claim = (0x8000000000000000, s.dev)) ∧
    (∀ (bd : Bound) (pt : Part) (g : Graph) (nd : GNode), s.me.bound = some bd → s.dev.part bd.part = some pt →
      pt.graph bd.graph = some g → g.nodes[bd.node]? = some nd →
      let field (off n : Nat) : Nat := leNat ((nd.bytes.drop off).take n)
      let NX := field 16 2
      let NY := field 18 2
      let NZ := field 20 2
      (field 2 1 / 4 % 2 = 0 ∨ field 24 2 = 0 → s.claim = (0x8000000000000000, s.dev)) ∧
      (∀ i : Nat, field 2 1 / 4 % 2 = 1 → field 24 2 ≠ 0 →
        (g.claims.find? fun c => c.1 == field 23 1) = some (field 23 1, i) →
        (NX * NY * NZ ≤ i → s.claim.1 = 0x8000000000000000) ∧
        (i < NX * NY * NZ → s.claim.1.toNat = i / (NX * NY) * 2 ^ 32 +
          (if field 22 1 = 0 then i / NX % NY * 2 ^ 16 + i % NX else i % NY * 2 ^ 16 + i / NY % NX)) ∧
        ∃ (pt' : Part) (g' : Graph), s.claim.2.part bd.part = some pt' ∧ pt'.graph bd.graph = some g' ∧
          ∀ k : Nat, (g'.claims.find? fun c => c.1 == k) =
            if k = field 23 1 then some (k, i + 1) else g.claims.find? fun c => c.1 == k)) ∧
    (s.pred p = false → ∀ i ∈ [Instr.macroRun a idx p, .rngseed a b flush p, .ntile p], exec i s = .next s)

/-- R257, R258, R261, R262, R263: a collective and a routing batch as they issue: the checks of their address, and the work
that each hands its engine; a descriptor that is in order leaves the STATUS byte 0, and a member that has no others evaluates SIG.
The order of the checks of an address is that of log 25, and that a member alone agrees with itself as it issues that of log 35. -/
def Obligations.EngineRequests : Prop :=
  ∀ (a : Src) (s : State), s.Inv →
    let ad := s.src a
    let off := ad.toNat
    let key := s.place.at off
    let bs := s.mems.read .spl key 64
    let r := dispatchOf bs
    if off % 64 ≠ 0 then exec (.coll a) s = .next (s.trap 0x10 ad) ∧ exec (.rsend a) s = .next (s.trap 0x10 ad)
    else if s.splSize < off + 64 then exec (.coll a) s = .next (s.trap 0x12 ad) ∧ exec (.rsend a) s = .next (s.trap 0x12 ad)
    else s.splQuiet off 64 → s.splSound off 64 → s.dev.weak = [] → s.dev.bad = [] →
      (∃ (t : State) (c : Coll), exec (.coll a) s = .next t ∧ t.dev.serial = s.dev.serial + 1 ∧
        t.dev.colls.getLast? = some c ∧ c.serial = s.dev.serial + 1 ∧ c.desc = bs ∧ c.addr = off ∧ c.done = 0 ∧
        c.who = s.me.who ∧ (s.dev.ctxs = [] → s.descOk c s.splSize = true →
          c.status = 0 ∧ Wrote s.mems t.mems .spl (key + 6) [0] ∧
          (1 < (s.members c).length → c.agreed = false ∧ c.started = 0) ∧
          ((s.members c).length = 1 → s.me.bound.isSome = true → s.me.run = .running → c.agreed = true ∧
            c.started = Nat.min (bytesAt bs 4 2) (t.mems.nat .spl (s.place.at (bytesAt bs 32 4)) 4)))) ∧
      (r.cnt % 4 = 0 → r.done % 4 = 0 → r.beyond s.splSize = none → ∃ (t : State) (b : Batch),
        exec (.rsend a) s = .next t ∧ t = { s with dev := t.dev } ∧ t.dev.serial = s.dev.serial + 1 ∧
        t.dev.batches = s.dev.batches ++ [b] ∧ b.serial = s.dev.serial + 1 ∧ b.cnt = r.cnt ∧ b.done = r.done ∧ b.who = s.me.who ∧
        b.unread = (if r.ok then some bs else none) ∧ b.err = (if r.ok then 0 else r.ntok) ∧ b.todo = [] ∧ b.out = [])

/-- R151, R373: `rbsave` writes the top frame as a record and frees it, once none of its loads waits for data; `rbload`
makes a frame 0, tagged S, of a record that parses. What a record carries of partly written results, of flags and of data
under way is log 30, and the order of the checks of both is that of log 81. -/
def Obligations.ReplayRecords : Prop :=
  ∀ (a : Src) (p : U3) (s : State), s.Inv → s.me.priv = true → s.pred p = true →
    let ad := s.src a
    let off := ad.toNat
    let key := s.place.at off
    let size := s.mems.nat .spl (key + 16) 8
    (∀ f : Frame, s.me.top = some f → off % 1024 = 0 →
      let bs := s.replayRecord (if f.tagS then 1 else 0) f
      off + bs.length ≤ s.splSize → (∀ e ∈ f.infl, ∀ l : Load, e.load = some l → l.phase ≠ .waiting) →
      s.splQuiet off bs.length → s.readAhead off bs.length = false → s.splSound off bs.length → s.dev.weak = [] →
        ∃ t, exec (.rbsave a p) s = .next t ∧ Wrote s.mems t.mems .spl key bs ∧
          t.me = { s.me.freeTop with mq := t.me.mq, watch := t.me.watch } ∧
          bs.take 4 = [0x01, 0x00, 0xE1, 0xFA] ∧ 1024 ≤ bs.length) ∧
    (∀ f : Frame, off % 1024 = 0 → s.me.f0 = none → size ≤ 199168 → 1024 ≤ size → off + size ≤ s.splSize →
      headerOk (s.mems.read .spl key 1024) = true → s.splQuiet off size → s.splSound off size → s.dev.weak = [] →
      parseRecord (s.mems.read .spl key size) = some f →
        exec (.rbload a p) s = .next { s with me := { s.me with f0 := some f } } ∧ f.tagS = true) ∧
    (off % 1024 ≠ 0 → exec (.rbsave a p) s = .next (s.trap 0x10 ad) ∧ exec (.rbload a p) s = .next (s.trap 0x10 ad))

/-! ### Events: what completes beside the turn of a core, and what happens at a bundle boundary -/

/-- R50, R51, R53, R72, R149, R269, R273, R318, R363, R364, R397, R424, R427, R429, R430, R442: what reaches a slot or becomes
of it: data and walks that arrive, a bundle fetched, a random word appended, a macro step, a matrix entry, a correction
written back, a debug stop, a suspension, and the end of an instance, which its node hears of when the cycle ends. By the
model's choice: replacement in TLBs and instruction caches (logs 22, 24), the walks that can complete (log 16), what a slot
does between READY and its capture (log 14), engine work finished at once (log 34), the cycle in which the cause of a debug
stop is taken (log 8), and the reload of a loop counter that %mlinit gives no count (log 87). -/
def Obligations.CoreEvents : Prop :=
  ∀ (n : Nat) (s : State),
  (∀ (m : Msg) (r : LoadReq), s.dev.msg n = some m → m.kind = .load r → m.stage = .flying → r.need = [] →
    s.ordered m = true → s.sentHere m → s.dev.bad = [] → s.dev.weak = [] →
    let va := r.addr.toNat
    let extended (bs : List Byte) (v : Nat) : Prop :=
      if r.sz = 1 ∨ r.sz = 3 ∨ r.sz = 5 then (BitVec.ofNat 64 v).toInt = Int.bmod (leNat bs) (2 ^ (8 * bs.length))
      else v = leNat bs
    (∀ p : Place, r.space = 1 → s.placeAt m.core m.slot1 = some p → s.spkOpen m.core m.slot1 = true →
      let bs := s.mems.read .spl (p.at m.addr) r.bytes
      ∃ (t : State) (v : Nat), exec (.loadDataArrival n) s = .next t ∧ Left s t n ∧ t.mems = s.mems ∧
        t.me.infl = s.me.infl.map (fun e => e.deliver r.id .ready (e.res.data v)) ∧
        extended bs v) ∧
    (∀ p : Pte, r.space ≠ 1 → r.sz ≠ 7 ∨ r.wide = true → r.got = [(pageBase va, .leaf p)] → va + r.bytes ≤ 2 ^ 48 →
      va / 65536 = (va + r.bytes - 1) / 65536 → p.va ≤ va → va + r.bytes ≤ p.va + p.size → pteFmt p.word = 0 →
      p.denies ⟨r.priv, false, false, some (r.space == 4)⟩ = none → va % (if r.wide then 32 else r.bytes) = 0 →
      (r.wide = true → r.sz = 7) →
      ∃ (t : State) (v : Nat), exec (.loadDataArrival n) s = .next t ∧ Left s t n ∧ t.mems = s.mems ∧
        t.me.infl = s.me.infl.map (fun e => e.deliver r.id .ready (e.res.data v)) ∧
        extended (s.mems.read p.space (p.phys va) r.bytes) v) ∧
    (∀ v : Nat, r.space ≠ 1 → s.farValue r m.slot.1 = .ok v →
      ∃ t : State, exec (.loadDataArrival n) s = .next t ∧ Left s t n ∧ t.mems = s.mems ∧
        t.me.infl = s.me.infl.map fun e => e.deliver r.id .ready (e.res.data v))) ∧
  (∀ (e : Infl) (l : Load), s.me.due = some e → e.load = some l →
    (l.phase = .waiting → exec .loadLanding s = .next s.hold) ∧
    (l.phase = .ready → exec .loadLanding s =
      .next (({ s with me := { s.me with infl := s.me.infl.erase e } } : State).landEntry e))) ∧
  (∀ (pa : Nat) (sl : Bool) (ls : List (Nat × Party)), s.dev.fetches = (pa, .slot s.core.phys sl) :: ls → s.dev.bad = [] →
    s.dev.weak = [] → (∀ x ∈ s.core.icache, x.1 ≠ pa) →
    ∃ t : State, exec .fetchFill s = .next t ∧ t.dev.fetches = ls ∧ t.me = s.me ∧ t.mems = s.mems ∧
      t.core.cached pa = some (BitVec.ofNat 128 (s.mems.nat .hbm pa 16))) ∧
  (∀ w : Walk, s.dev.walks[n]? = some w →
    (∀ p : Pte, walkTables s.mems s.dev w.part w.ctx w.root w.va = .leaf p →
      ∃ t : State, exec (.pageWalkComplete n) s = .next t ∧ t.dev.walks = s.dev.walks.eraseIdx n ∧ t.mems = s.mems ∧
        p ∈ tlbAt t.dev.ctlb w.cl ∧ ∀ (c : Nat) (sl f : Bool), (Party.slot c sl, f) ∈ w.who → p ∈ tlbAt t.dev.tlb c) ∧
    (∀ code : Byte, walkTables s.mems s.dev w.part w.ctx w.root w.va = .fail code →
      ∃ t : State, exec (.pageWalkComplete n) s = .next t ∧ t.dev.walks = s.dev.walks.eraseIdx n ∧ t.dev.tlb = s.dev.tlb ∧
        t.dev.ctlb = s.dev.ctlb ∧ ∀ x ∈ w.who, (⟨x.1, x.2, w.va, code⟩ : WalkDone) ∈ t.dev.walked)) ∧
  (let x := s.me.sp.rngs0 ^^^ (s.me.sp.rngs0 <<< 23)
   let y := x ^^^ s.me.sp.rngs1 ^^^ (x >>> 17) ^^^ (s.me.sp.rngs1 >>> 26)
   exec .rngAppend s = .next (if (if s.core.rsplit then 32 else 64) ≤ s.me.rnq.length then s
     else { s with me := { s.me with
       rnq := s.me.rnq ++ [y + s.me.sp.rngs1], sp := { s.me.sp with rngs0 := s.me.sp.rngs1, rngs1 := y } } })) ∧
  (let e := s.macroEntry
   let w : U32 := e.extractLsb' 0 32
   let r : U5 := e.extractLsb' 91 5
   let s0 : State := { s with me := s.me.begin 3 w true }
   s.me.mac.mpc.getLsbD 63 = true → s.dev.bad = [] →
    (∀ (i : Instr) (u : State), decode (!isS s.core.phys) ⟨3, true, e.extractLsb' 64 8, w⟩ = .ok (.op i) →
      runEngine i s0 = .next u → u.me.iss.res = .issued →
      ∃ (t : State) (m : MacroRegs), exec .macroStep s = .next t ∧ MacroAdvanced e u.me.mac m ∧
        t = { u with me := { (if r = 0 then u.me else u.me.push ⟨1, true, 3, 0,
          .g (.reg r) (u.me.regs.readG r + (e.extractLsb' 96 16).signExtend 64) true, none⟩) with mac := m } }) ∧
    (decode (!isS s.core.phys) ⟨3, true, e.extractLsb' 64 8, w⟩ = .ok (.op .nop) → ∃ t : State, exec .macroStep s = .next t ∧
      MacroAdvanced e s.me.mac t.me.mac ∧ t.mems = s.mems ∧ t.dev = s.dev ∧ t.me.regs = s.me.regs)) ∧
  (∀ (e : MqEntry) (es : List MqEntry), s.me.mq = e :: es →
    (e.started = false → s.canStart e = true →
      exec .matrixEntryStart s = .next { s with me := { s.me with mq := { e with started := true } :: es } }) ∧
    (∀ i : Instr, e.op = .ins i → e.started = true → s.dev.bad = [] → s.dev.weak = [] →
      let u : State := { s with me := { s.me with mq := es } }
      ∃ t : State, exec .matrixEntryComplete s = .next t ∧ t.me.mq = es ∧ t.me.regs = s.me.regs ∧ t.core = s.core ∧
        t.mems = (runAct (fun _ => Act.writes (joinWrites (u.runEntry e i).writes)) u).mems)) ∧
  (∀ w : Nat, s.dev.writebacks[n]? = some w → exec (.eccWriteback n) s = .next { s with dev := { s.dev with
    writebacks := s.dev.writebacks.eraseIdx n, weak := s.dev.weak.filter fun x => x ≠ (12, w) } }) ∧
  (s.me.sp.dstop.getLsbD 63 = true → s.me.sp.bundle.toNat = s.me.sp.dstop.toNat % 2 ^ 48 → s.me.pend50 = false →
    exec .debugStop s = .next { s with me := { s.me with pend50 := true } }) ∧
  (∀ b : Bound, s.me.bound = some b → s.me.cx.req = true → s.settled = false → (s.me.run = .running ∨ s.me.run = .gang) →
    s.me.cx.left = 0 → exec .forcedSave s = .next { s with me := { s.me with run := .saving true } }) ∧
  (∀ b : Bound, s.me.bound = some b → s.me.cx.req = true → s.settled = true → s.me.mq = [] → s.dev.bad = [] → s.dev.badTags = [] →
    (s.me.run = .running → (∀ e ∈ s.me.infl, e.rem ≠ 0) →
      ∃ t : State, exec .pctlReady s = .next t ∧ SuspendedHere s t b false ∧ t.mems = s.mems) ∧
    (s.me.run = .running ∨ s.me.run = .gang → s.me.cx.left = 0 →
      ∃ t : State, exec .forcedSave s = .next t ∧ SuspendedHere s t b true ∧ t.mems = s.mems)) ∧
  (∀ b : Bound, s.me.bound = some b → s.drained = true →
    let ends (i : Instr) (cause : Option Byte) : Prop := ∃ t : State, exec i s = .next t ∧ t.me.bound = none ∧
      t.me.run = .idle ∧ t.me.cx.ctxid = 0 ∧ (∀ j ∈ t.dev.jobs, ∀ e ∈ j.map, e.ctx ≠ b.ctx) ∧
      t.dev.ends = s.dev.ends ++ [⟨b.part, b.graph, b.node, cause⟩] ∧ (s.dev.ends = [] → ∀ (p : Part) (g : Graph) (x y : GNode) (k : Nat), s.dev.part b.part = some p → p.graph b.graph = some g →
        g.nodes[b.node]? = some x → x.live = 1 → x.undisp = 0 → x.bad = false → x.st = .running → s.dev.colls = [] →
        g.nodes[k]? = some y → k ≠ b.node → y.st.final = false → y.live ≠ 0 →
        ∃ (q : Part) (h : Graph) (z : GNode), t.dev.applyEnds.part b.part = some q ∧ q.graph b.graph = some h ∧
          h.nodes[b.node]? = some z ∧ z.st = (if cause.isSome then .faulted else .done) ∧
          h.verdict = if g.verdict = 0 ∧ cause.isSome then 2 else g.verdict)
    (s.me.run = .halting → ends .haltComplete s.me.outcome) ∧
    (∀ (code : Byte) (info : U64) (at_ : Pc), s.me.run = .faulting code info at_ → ends .instanceFault (some code)))

/-- R215, R217, R218, R222, R223, R225, R226, R234, R236, R237, R238, R289, R298, R301, R302: what the ports do with a write
or an atomic that reaches them, and what an answer does at its sender. That a whole access is performed at one instant is
the model's choice (log 31), and so are the tables that a peer write is translated through (log 46). -/
def Obligations.PortOperations : Prop :=
  ∀ (n : Nat) (m : Msg) (s : State), s.Inv → s.dev.msg n = some m → s.dev.bad = [] → s.dev.badTags = [] →
    let here (p : Place) : Prop := m.stage = .atPort ∧ s.accepts m p
    let atRegion (p : Place) : Prop := m.stage = .atPort ∧ (s.dev.job m.job).isSome = true ∧
      ∃ e, s.dev.mapped m.job m.core = some e ∧ s.placeAt e.phys e.slot1 = some p ∧ s.present e = true
    let flies : Prop := m.stage = .flying ∧ s.ordered m = true ∧ s.dev.leaves m = false
    let free (p : Place) (w : Refused) : Prop := m.retry = true ∨ ∀ e ∈ s.dev.refs, e.phys = p.phys → e.what ≠ w
    (∀ p : Place, flies → m.kind = .pod .put → m.tag = false → s.accepts m p →
      ∃ t : State, exec (.writeArrival (.queued n)) s = .next t ∧ Wrote s.mems t.mems .spl (p.at m.addr) m.data ∧
        Answered s t n 0 0) ∧
    (flies → m.kind = .pod .put → (s.dev.job m.job = none ∨ s.dev.segmentOk m m.addr m.size = false) →
      ∃ t : State, exec (.writeArrival (.queued n)) s = .next t ∧ Answered s t n 0x13 0 ∧
        ∀ k : Nat, t.mems.byte .spl k = s.mems.byte .spl k) ∧
    (∀ (w : OutsideWrite) (p : Place), w.kind = .put → w.tag = false → s.accepts (outsideMsg w s) p →
      (∀ x ∈ s.dev.net, s.before x (outsideMsg w s) = false) →
      ∃ t : State, exec (.writeArrival (.outside w)) s = .next t ∧ t.dev.nextMsg = s.dev.nextMsg + 1 ∧
        Wrote s.mems t.mems .spl (p.at w.off) w.data) ∧
    (∀ p : Place, here p → m.kind = .pod .put → m.tag = true →
      let c := p.cell m.addr
      let g := s.mems.tag c
      let count := g.count.toNat + m.data.length
      (g.full = false → free p (.cell c) → ∃ t : State, exec (.taggedWrite n) s = .next t ∧ Answered s t n 0 0 ∧
        WroteTagged s.mems t.mems (p.at m.addr) m.data c
          { g with count := BitVec.ofNat 11 count, full := decide (g.exp.toNat ≤ count) }) ∧
      (g.full = true → (s.dev.refs.countP fun e => e.phys == p.phys) < 64 → ∃ t : State, exec (.taggedWrite n) s = .next t ∧ t = { s with
        dev := { s.dev with
          mgmt := t.dev.mgmt
          net := s.dev.net.map fun x => if x.id = n then { x with stage := .parked } else x
          refs := s.dev.refs ++ [⟨p.phys, .cell c, n⟩] } }) ∧
      (g.full = true → 64 ≤ (s.dev.refs.countP fun e => e.phys == p.phys) →
        ∃ t : State, exec (.taggedWrite n) s = .next t ∧ Answered s t n 0x14 0)) ∧
    (m.stage = .released → exec (.release n) s = .next { s with dev := { s.dev with
      net := s.dev.net.map fun x => if x.id = n ∧ x.stage = .released then { x with stage := .flying, retry := true } else x } }) ∧
    (let operation : Option Instr := match m.kind with
       | .pod .put => if m.tag then some (.taggedWrite n) else none
       | .pod .radd => some (.raddPerform n)
       | .pod .flag => some (.flagIncrement n)
       | _ => none
     m.stage = .atPort → (s.dev.job m.job).isSome = true → s.dev.segmentOk m m.addr m.size = true →
     s.dev.mapped m.job m.core = none → ∀ i ∈ operation,
      ∃ t : State, exec i s = .next t ∧ Answered s t n 0x41 0 ∧ t.mems = s.mems) ∧
    (∀ p : Place, here p →
      let old := s.mems.nat .spl (p.at m.addr) 4
      (m.kind = .pod .radd → ∃ t : State, exec (.raddPerform n) s = .next t ∧ Answered s t n 0 0 ∧
        Wrote s.mems t.mems .spl (p.at m.addr) (leBytes 4 ((old + leNat m.data) % 2 ^ 32))) ∧
      (m.kind = .pod .flag → ∃ t : State, exec (.flagIncrement n) s = .next t ∧ Answered s t n 0 0 ∧
        Wrote s.mems t.mems .spl (p.at m.addr) (leBytes 4 ((old + 1) % 2 ^ 32)))) ∧
    (∀ p : Place, atRegion p →
      (m.kind = .pod .qput → s.regionOpen m p → free p (.region p.slot1 m.region) →
        let q := s.regionAt p m.region
        q.pop + q.full ≠ q.cap → ∃ t : State, exec (.qputArrival n) s = .next t ∧ TookEntry s t m p ∧
          Answered s t n 0 (q.cap - q.pop - q.full - 1) ∧ Wrote s.mems t.mems .spl (p.at q.next) m.data)) ∧
    (∀ p : Place, flies → m.kind = .spk → m.tag = false → s.placeAt m.core m.slot1 = some p → s.spkOpen m.core m.slot1 = true →
      ∃ t : State, exec (.spkStorePerform n) s = .next t ∧ Answered s t n 0 0 ∧
        Wrote s.mems t.mems .spl (p.at m.addr) m.data) ∧
    (∀ (u : Thread) (q : Pte), m.stage = .atPort → m.kind = .pod .phm → s.jobTables m.job = some u → m.data ≠ [] →
      m.addr / 65536 = (m.addr + m.data.length - 1) / 65536 → m.addr + m.data.length ≤ 2 ^ 48 →
      walkTables s.mems s.dev u.part (bitsOf u.cx.ctxid 15 0) u.root (pageBase m.addr) = .leaf q → pteFmt q.word = 0 →
      q.denies ⟨false, true, false, some false⟩ = none → q.va ≤ m.addr → m.addr + m.data.length ≤ q.va + q.size →
      ∃ t : State, exec (.phmPutArrival n) s = .next t ∧ Answered s t n 0 0 ∧
        Wrote s.mems t.mems .hbm (q.phys m.addr) m.data) ∧
    (∀ (a : Nat) (bs : List Byte), flies → m.kind = .hbm → m.pieces = [(false, a, bs)] →
      ∃ t : State, exec (.hbmStorePerform n) s = .next t ∧ Answered s t n 0 0 ∧ Wrote s.mems t.mems .hbm a bs) ∧
    (∀ (a : Nat) (bs : List Byte), flies → m.kind = .hst → m.pieces = [(true, a, bs)] →
      (∀ x ∈ ahead n s.dev.net, x.src = m.src → x.kind = .hst → x.performed = true) →
      ∃ t : State, exec (.hstStoreEmit n) s = .next t ∧ Answered s t n 0 0 ∧ Wrote s.mems t.mems .host a bs) ∧
    (∀ r : AmoReq, m.kind = .amo r →
      let sp := if r.host then Space.host else .hbm
      let w := if r.word then 4 else 8
      let old := s.mems.nat sp r.pa w
      let rest (x : Infl) (v : Nat) : Infl := x.deliver r.id .ready (x.res.data v)
      (flies → r.done = false → (s.dev.scopeMiss m r = true ∨ s.unreleased m r = false) →
        ∃ (t : State) (new : Nat), exec (.atomicPerform n) s = .next t ∧
          AmoValue r.aop (8 * w) old r.x.toNat r.y.toNat new ∧ Wrote s.mems t.mems sp r.pa (leBytes w new) ∧
          t.dev.net = s.dev.net.map fun x => if x.id = n then { x with
            stage := .answered 0 0
            kind := .amo { r with done := true, mis := s.dev.scopeMiss m r, old := BitVec.ofNat 64 old } } else x) ∧
      (∀ f : Nat, m.stage = .answered 0 f → s.sentHere m → ∃ t : State, exec (.atomicAnswer n) s = .next t ∧ Left s t n ∧
        t.mems = s.mems ∧ t.me.sp.stat = (if r.mis then s.me.sp.stat ||| 0x8000 else s.me.sp.stat) ∧
        t.me.infl = if r.ret then s.me.infl.map fun x => rest x (if r.word then (szExtend 1 r.old.toNat).toNat else r.old.toNat)
          else s.me.infl)) ∧
    (∀ (code : Byte) (f : Nat) (a : Option RemoteAnswer), m.routed = false → (∀ r, m.kind ≠ .amo r) → (∀ r, m.kind ≠ .load r) →
      m.stage = .answered code f ∨ (m.stage = .away ∧ ∃ x, a = some x ∧ x.code = code ∧ x.free.toNat = f) → s.sentHere m →
      ∃ t : State, exec (.writeAnswer n a) s = .next t ∧ Left s t n ∧ t.mems = s.mems ∧
        (code = 0 → m.kind ≠ .pod .qput → t.me = s.me) ∧
        (code = 0 → m.kind = .pod .qput → m.region < 16 → t.me = { s.me with sp := { s.me.sp with
          qcredit := BitVec.ofNat 64 (m.raddr.toNat / 2 ^ 46 * 2 ^ 46 + m.region * 65536 + f % 65536) } }) ∧
        (code ≠ 0 → m.rkind < 16 → t.me = { s.me with sp := if s.me.sp.rfault.getLsbD 63 then
            { s.me.sp with rfault := s.me.sp.rfault ||| 0x4000000000000000 }
          else { s.me.sp with
            rfault := (s.me.sp.rfault &&& 0x4000000000000000) ||| BitVec.ofNat 64 (2 ^ 63 + code.toNat * 256 + m.rkind)
            rfaddr := m.raddr } }))

/-- R245, R247, R249, R251, R252, R253, R259, R260, R261, R263, R264, R265, R266: the engines at work: a row of a copy read
and sent, a transfer that completes, a chain's next record, a bucket of a collective, the answers to a routing batch's sends,
an entry and a seal at a region, and the end of a batch. By the model's choice: the privilege of engines (log 28), the entry
that a seal marks (log 37), and the parts of peers (log 35). -/
def Obligations.EngineProgress : Prop :=
  ∀ (cl ch n : Nat) (s : State), s.Inv → s.dev.bad = [] → s.dev.weak = [] → s.dev.badTags = [] →
  (∀ (t : Transfer) (ts : List Transfer), (s.dev.chan cl ch).q = t :: ts →
    (∀ p : Place, s.copyReady cl ch = true → s.copyParked (s.dev.chan cl ch) t = false → xsf t.shape 7 = 0 → xsf t.shape 8 = 0 →
      s.placeAt t.phys t.slot1 = some p →
      let i1 := t.row % (xsf t.shape 1 + 1)
      let i2 := t.row / (xsf t.shape 1 + 1)
      let from_ := t.sa.toNat + 16 * (i1 * xsf t.shape 3 + i2 * xsf t.shape 5)
      let to_ := t.da.toNat + 16 * (i1 * xsf t.shape 4 + i2 * xsf t.shape 6)
      ∃ (u : State) (m : Msg), exec (.copyRecord cl ch) s = .next u ∧ u.dev.net = s.dev.net ++ [m] ∧ m.kind = .spk ∧
        m.data = s.mems.read .spl (p.at from_) (xsf t.shape 0 + 1) ∧ m.core = t.phys ∧ m.slot1 = t.slot1 ∧ m.addr = to_ ∧
        m.src = .channel cl ch ∧ m.owner = t.serial ∧ m.tag = t.tag ∧
        (u.dev.chan cl ch).q = { t with row := t.row + 1 } :: ts ∧ u.mems = s.mems ∧ u.me = s.me ∧
        (u.dev.turns.find? fun x => x.1 == cl) = some (cl, ch)) ∧
    (t.rows = true → rowCount t.shape ≤ t.row → (∀ m ∈ s.dev.net, m.owner ≠ t.serial) → t.chain = false →
      ∃ u : State, exec (.copyTransferComplete cl ch) s = .next u ∧ (u.dev.chan cl ch).q = ts ∧ u.mems = s.mems ∧
        u.me = s.me) ∧
    (∀ (host : Bool) (pa : Nat), t.chain = true → t.rows = false → s.chainReady cl ch = true →
      s.chainPiece t cl ch t.next false = .ok (host, pa) →
      let bs := s.mems.read (if host then .host else .hbm) pa 64
      let flags := bytesAt bs 40 1
      (flags % 2 = 0 → ∃ u : State, exec (.chainRecordRead cl ch) s = .next u ∧ (u.dev.chan cl ch).q = ts ∧
        (u.dev.chan cl ch).stop = t.next ∧ u.mems = s.mems ∧ u.me = s.me) ∧
      (flags % 2 = 1 → flags < 16 → flags / 4 ≠ 3 → bytesAt bs 41 23 = 0 → bytesAt bs 0 8 % 64 = 0 →
        bytesAt bs 24 16 < 2 ^ 126 →
        (s.asIssuer t).copyCheck (BitVec.ofNat 128 (bytesAt bs 24 16)) (BitVec.ofNat 64 (bytesAt bs 8 8))
          (BitVec.ofNat 64 (bytesAt bs 16 8)) (flags / 2 % 2 == 1) (flags / 4) false ch = .ok () →
        ∃ u : State, exec (.chainRecordRead cl ch) s = .next u ∧ u.mems = s.mems ∧ u.me = s.me ∧
          (u.dev.chan cl ch).q = { t with
            shape := BitVec.ofNat 128 (bytesAt bs 24 16), sa := BitVec.ofNat 64 (bytesAt bs 8 8)
            da := BitVec.ofNat 64 (bytesAt bs 16 8), tag := flags / 2 % 2 == 1, tier := flags / 4
            flags := BitVec.ofNat 8 flags, here := t.next, next := BitVec.ofNat 64 (bytesAt bs 0 8), rows := true
            row := 0 } :: ts))) ∧
  (∀ c : Coll, (s.dev.colls.find? fun x => x.serial == n) = some c →
    (c.status ≠ 0 → c.held = [] → exec (.collBucketComplete n) s =
      .next { s with dev := { s.dev with colls := s.dev.colls.filter fun x => x.serial != n } }) ∧
    (∀ (rank len : Nat) (parts : List (List Byte)), c.fld 0 1 ≤ 3 → c.fld 1 1 ∈ [0, 1, 5] → c.fld 2 1 ≤ 2 → rank < parts.length →
      (∀ b ∈ parts, b.length = len) → 0 < len → len % 256 = 0 → (c.fld 0 1 = 0 ∨ c.fld 0 1 = 3 → len % (256 * parts.length) = 0) →
      Gathers (c.fld 0 1) (c.fld 1 1) (c.fld 2 1) rank parts (c.result rank parts)) ∧
    (∀ ps : List (Bool × Nat × List Byte), c.status = 0 → c.fail = 0 → c.agreed = true → c.done < c.started →
      (s.members c).length ≤ 1 ∨ c.done < c.sent → s.dev.collBusy c = false →
      s.bucketWrites c false = .ok ps → ∃ (t : State) (x : Coll), exec (.collBucketComplete n) s = .next t ∧
        x ∈ t.dev.colls ∧ x.serial = n ∧ x.done = c.done + 1 ∧ x.desc = c.desc ∧
        (c.done + 1 = c.fld 4 2 → c.gone = false → x.status = 1) ∧
        -- R259: the destination's bytes, and 1 added to DONE
        (∀ (host : Bool) (pa : Nat) (out : List Byte), ps = [(host, pa, out)] →
          let sp : Space := if host then .host else .hbm
          (∀ i, i < out.length → t.mems.byte sp (pa + i) = out.getD i 0) ∧
          ∀ k, k < pa ∨ pa + out.length ≤ k → t.mems.byte sp k = s.mems.byte sp k) ∧
        (∀ (src : List Byte) (va : Nat) (qs : List Pte), s.bucketSource c false = .ok src →
          let ms := s.members c
          let self := (s.dev.job c.who.job).elim 0 (·.self)
          let out := ps.flatMap (·.2.2)
          self ∈ ms → out.length = (if c.fld 0 1 = 2 then ms.length * src.length else (c.result 0 [src]).length) →
          (ms.length = 1 → c.fld 0 1 ≠ 2 → out = c.result 0 [src]) ∧
          (c.fld 0 1 = 2 → ∀ r, r < ms.length → ms.getD r 0 = self → (out.drop (r * src.length)).take src.length = src) ∧
          (ms.length = 1 ∨ c.fld 0 1 = 2 → va = (c.bucket ms.length c.done).2 →
            s.collPages c c.who.ctx true false va out.length = .ok qs →
            ps.map (fun x => (x.1, x.2.1, x.2.2.length)) = piecesOf qs va (out.length + 1) out.length)) ∧
        (∀ p : Place, s.dev.ctxs = [] → c.gone = false → s.placeAt c.phys c.slot1 = some p →
          (c.done + 1 < c.fld 4 2 ∨ c.fld 36 4 + 4 ≤ c.addr + 6 ∨ c.addr + 7 ≤ c.fld 36 4) →
          t.mems.nat .spl (p.at (c.fld 36 4)) 4 = (s.mems.nat .spl (p.at (c.fld 36 4)) 4 + 1) % 2 ^ 32))) ∧
  (∀ (m : Msg) (b : Batch) (x : Send) (f : Nat), s.dev.msg n = some m → m.routed = true → s.dev.batch m.owner = some b →
    (b.out.find? fun o => o.1 == n) = some (n, x) → b.sealing = false →
    (m.stage = .answered 0 f → ∃ (t : State) (y : Batch), exec (.routeSendAnswer n none) s = .next t ∧ y ∈ t.dev.batches ∧
      y.serial = m.owner ∧ y.sent1 = b.sent1 + (if x.redir then 0 else 1) ∧ y.sent2 = b.sent2 + (if x.redir then 1 else 0) ∧
      t.mems = s.mems ∧ t.me = s.me) ∧
    (m.stage = .answered 1 f → x.redir = true ∨ x.alt = .nobody → ∃ (t : State) (y : Batch),
      exec (.routeSendAnswer n none) s = .next t ∧ y ∈ t.dev.batches ∧ y.serial = m.owner ∧ y.dropped = b.dropped + 1 ∧
      y.sent1 = b.sent1 ∧ y.sent2 = b.sent2 ∧ t.mems = s.mems ∧ t.me = s.me)) ∧
  (∀ (m : Msg) (p : Place) (e : MapEntry), s.dev.msg n = some m → m.stage = .atPort → (s.dev.job m.job).isSome = true →
    s.dev.mapped m.job m.core = some e → s.placeAt e.phys e.slot1 = some p → s.present e = true →
    let q := s.regionAt p m.region
    (m.kind = .pod .route → s.regionOpen m p → q.pop + q.full ≠ q.cap →
      let g := s.mems.tag (p.cell q.next)
      let count := g.count.toNat + q.entry
      g.full = false → ∃ t : State, exec (.routingEntryArrival n) s = .next t ∧ Answered s t n 0 0 ∧ TookEntry s t m p ∧
        WroteTagged s.mems t.mems (p.at q.next) m.data (p.cell q.next)
          { g with count := BitVec.ofNat 11 count, full := decide (g.exp.toNat ≤ count) }) ∧
    (m.kind = .pod .seal → q.en = true → s.dev.segmentOk m (q.last / 1024 * 1024) 1 = true →
      let c := p.cell q.last
      let g := s.mems.tag c
      ∃ t : State, exec (.sealArrival n) s = .next t ∧ Answered s t n 0 0 ∧ s.mems.onlyTags t.mems ∧
        ∀ x : Nat, t.mems.tag x = if x = c ∧ g.full = false then { g with full := true, count := g.exp }
          else s.mems.tag x)) ∧
  (∀ (b : Batch) (p : Place), s.dev.batch n = some b → b.unread = none → b.todo = [] → b.out = [] → (b.wantSeal = false ∨ b.sealing = true) →
    s.placeAt b.phys b.slot1 = some p → (b.done + 4 ≤ b.cnt ∨ b.cnt + 16 ≤ b.done) →
    ∃ t : State, exec (.routeBatchComplete n) s = .next t ∧ (∀ x ∈ t.dev.batches, x.serial ≠ n) ∧
      t.mems.nat .spl (p.at b.cnt) 4 = b.sent1 % 2 ^ 32 ∧ t.mems.nat .spl (p.at (b.cnt + 4)) 4 = b.sent2 % 2 ^ 32 ∧
      t.mems.nat .spl (p.at (b.cnt + 8)) 4 = b.dropped % 2 ^ 32 ∧ t.mems.nat .spl (p.at (b.cnt + 12)) 4 = b.err % 2 ^ 32 ∧
      t.mems.nat .spl (p.at b.done) 4 = (s.mems.nat .spl (p.at b.done) 4 + 1) % 2 ^ 32)

/-- R316, R317, R318, R320, R321, R322, R323, R324, R325, R330, R342, R362, R369, R384, R385, R387, R388, R389, R390, R391,
R409, R411, R416: the scheduler's events and those of the queues: a graph admitted, a dispatch, a quantum, a gang released, a
gemma written, an interval and a headroom sample; register writes of the host, a queue mapped to a slot, a submission fetched
and carried out, a completion posted. By the model's choice: the order of one queue's completions (log 18), what a binding
allocates (log 38), AQDEPTH and the bases (log 41), the release of gangs (log 59), when a suspended instance is first offered
(log 103), and the headroom before the first sample (log 104). -/
def Obligations.SchedulerAndQueueEvents : Prop :=
  ∀ (n : Nat) (s : State), s.Inv →
  (∀ p : Part, s.dev.part n = some p →
    (∀ g : Graph, p.nextGraph = some g → p.graph g.serial = some g → g.nodes ≠ [] → g.hold = 0 →
      ∃ (t : State) (q : Part) (h : Graph), exec (.graphAdmit n) s = .next t ∧ t.dev.part n = some q ∧
        q.graph g.serial = some h ∧ h.admitted = true ∧ h.nodes.length = g.nodes.length ∧
        (∀ (i : Nat) (x y : GNode), g.nodes[i]? = some x → h.nodes[i]? = some y → y.bytes = x.bytes ∧
          y.st = (if x.fld 6 2 = 0 then .ready else .pending) ∧ y.predLeft = x.fld 6 2 ∧ y.undisp = x.instances ∧
          y.live = 0) ∧ t.mems = s.mems ∧ t.me = s.me) ∧
    (p.stopped = false → s.dev.mgmt.state = 2 →
      let cs := s.dev.candidates p
      let q := { p with reserve := s.reservation p cs }
      let u : State := { s with dev := s.dev.updPart n fun _ => q }
      -- R320, R321: what the candidates are, and their order
      (∀ c ∈ cs, s.dev.Offers p c) ∧ cs.Pairwise (fun a b => ¬ b.Before a) ∧
      (∀ g ∈ p.graphs, g.admitted = true → g.verdict = 0 → s.dev.runs g.vf = true →
        (∀ (i : Nat) (x : GNode), g.nodes[i]? = some x → x.st = .ready → x.undisp ≠ 0 → ∃ c ∈ cs, c.cand = .fresh g.serial i) ∧
        ∀ x ∈ s.dev.ctxs, x.written = true → x.bound.part = p.num → x.bound.graph = g.serial →
          x.bound.node < g.nodes.length → ∃ c ∈ cs, c.cand = .saved x.id) ∧
      -- R323, R324: where a candidate goes
      (∀ c : Candidate, (∀ x, q.balOf x < 2 ^ 21) → match u.placement q c with
        | some (cl, phys, sl) => u.Chosen q c cl phys sl
        | none => ∀ x, ¬ u.MayTake q c x) ∧
      -- R325: the reservation of a first candidate that only its charge keeps waiting
      (∀ (c : Candidate) (rest : List Candidate), cs = c :: rest → c.eprio ≠ 7 → p.reserve = none → q.reserve = none) ∧
      (∀ (c : Candidate) (rest : List Candidate) (x : Nat), cs = c :: rest → p.reserve = none → q.reserve = some (x, c.cand) →
        let could (y : Nat) : Prop := y < Config.clusters ∧ p.clusters.testBit y = true ∧
          (∃ phys sl, clusterOf phys = y ∧ s.freeFor p c phys sl = true) ∧ p.hreqOf c ≤ p.headOf y
        c.eprio = 7 ∧ could x ∧ ∀ y, could y → p.balOf y < p.chargeOf c ∧ (p.balOf y < p.balOf x ∨ (p.balOf y = p.balOf x ∧ x ≤ y))) ∧
      (cs = [] → exec (.dispatchDecision n) s = .next u) ∧
      (∀ (c : Candidate) (above rest : List Candidate) (cl phys : Nat) (sl : Bool) (v : State) (r : Part), cs = above ++ c :: rest →
        (∀ x ∈ above, u.placement q x = none) →
        u.placement q c = some (cl, phys, sl) → u.seat q c phys sl = some v → v.dev.part n = some r →
        ∃ (t : State) (x : Part), exec (.dispatchDecision n) s = .next t ∧ t = { v with dev := t.dev } ∧
          t.dev.part n = some x ∧ x.balOf cl = r.balOf cl - q.chargeOf c ∧
          ∀ k : Nat, k ≠ cl → x.balOf k = r.balOf k)) ∧
    (∃ (t : State) (q : Part), exec (.intervalBoundary n) s = .next t ∧ t = { s with dev := { s.dev with parts := t.dev.parts } } ∧
      t.dev.part n = some q ∧ q.sched = p.pending.getD p.sched ∧ q.pending = none ∧
      ∀ cl : Nat, cl < 32 → p.clusters.testBit cl = true → q.balOf cl = Nat.min (p.balOf cl + q.sched.refill) q.sched.cap) ∧
    (∀ cl v : Nat, p.clusters.testBit cl = true → ∃ (t : State) (q : Part), exec (.headSample cl v) s = .next t ∧
      t.dev.part n = some q ∧ q.headOf cl = Nat.min (s.dev.mgmt.loaded.limits.getD cl 0 - v) 255 ∧ (∀ k : Nat, k ≠ cl → q.headOf k = p.headOf k) ∧
      t = { s with dev := { s.dev with parts := t.dev.parts } }) ∧
    (∀ x : QPair, (∀ y ∈ s.dev.host.pairs, s.dev.queuePart y = some n → y.mapped = none) → 0 < p.qslots →
      earliest (·.wait) (s.dev.host.pairs.filter fun y => s.dev.queuePart y == some n) = some x →
      s.dev.pair x.fn x.q = some x → ∃ t : State, exec (.queueSlotMap n) s = .next t ∧
        t.dev.pair x.fn x.q = some { x with mapped := some s.dev.now, wait := none } ∧ t.mems = s.mems ∧ t.me = s.me)) ∧
  (∀ (b : Bound) (p : Part), s.me.bound = some b → s.dev.part b.part = some p → s.me.run = .running → s.me.cx.req = false →
    let cls := isS s.core.phys
    let prio := ((p.graph b.graph).bind fun g => g.nodes[b.node]?).elim 0 (·.prio)
    let waiting := (s.dev.candidates p).countP fun c => c.isS == cls && prio ≤ c.eprio &&
      p.clusterList.all fun cl => (s.freeIn p c cl).isEmpty
    let posted := s.slots.countP fun x => isS x.1 == cls && x.2.cx.req && x.2.bound.any fun y => y.part == p.num
    exec .quantumBoundary s = .next (if posted < waiting then
      { s with me := { s.me with cx := { s.me.cx with req := true, left := b.budget }, pend31 := true } } else s)) ∧
  ((∀ p ∈ s.dev.parts, ∀ g ∈ p.graphs, g.image = n → ∀ x ∈ g.nodes, x.undisp = 0) →
    ∃ t : State, exec (.gangRelease n) s = .next t ∧ t.mems = s.mems ∧
      (∀ b : Bound, s.me.run = .gang → s.me.bound = some b → b.job = n → t.me = { s.me with run := .running }) ∧
      ∀ j ∈ t.dev.jobs, j.id = n → j.released = true) ∧
  (∀ (c : SavedCtx) (k : CoreRec), (s.dev.ctxs.find? fun x => x.id == n) = some c → c.written = false →
    s.coreAt c.phys = some k → ∃ t : State, exec (.gemmaWrite n) s = .next t ∧
      Wrote s.mems t.mems .hbm (c.area + c.image) (s.gemma c k.core) ∧ t.me = s.me ∧
      ∃ x ∈ t.dev.ctxs, x.id = n ∧ x = { c with written := true, digest := digestNat (sha256 (s.gemma c k.core)) }) ∧
  (s.dev.isFn n = true → ∀ (v : U64) (d : U32),
    (v.toNat % 4096 = 0 → ∃ t u : State, exec (.asqbaseWrite n v) s = .next t ∧ exec (.acqbaseWrite n v) s = .next u ∧
      t.dev.regsOf n = { s.dev.regsOf n with asq := v, fn := n } ∧ u.dev.regsOf n = { s.dev.regsOf n with acq := v, fn := n }) ∧
    (v.toNat % 4096 ≠ 0 → ∃ (t : State) (y : QPair),
      exec (.asqbaseWrite n v) s = .next t ∧ exec (.acqbaseWrite n v) s = .next t ∧ t.dev.pair n 0 = some y ∧
      y.error = true ∧ t.dev.regsOf n = s.dev.regsOf n) ∧
    (2 ≤ d.toNat % 65536 → d.toNat % 65536 ≤ 4096 → 2 ≤ d.toNat / 65536 → d.toNat / 65536 ≤ 4096 →
      ∃ (t : State) (y : QPair), exec (.aqdepthWrite n d) s = .next t ∧ t.dev.pair n 0 = some y ∧
        y.sqBase = (s.dev.regsOf n).asq.toNat ∧ y.cqBase = (s.dev.regsOf n).acq.toNat ∧ y.sqDepth = d.toNat % 65536 ∧
        y.cqDepth = d.toNat / 65536 ∧ y.sqHead = 0 ∧ y.sqTail = 0 ∧ y.cqHead = 0 ∧ y.cqTail = 0 ∧ y.phase = true ∧
        y.error = false ∧ y.posts = [])) ∧
  (∀ (q : Nat) (v : U32) (x : QPair), s.dev.pair n q = some x → x.error = false → ∃ (t u : State) (y z : QPair),
    exec (.sqtailWrite n q v) s = .next t ∧ exec (.cqheadWrite n q v) s = .next u ∧ t.dev.pair n q = some y ∧
    u.dev.pair n q = some z ∧ (x.sqDepth ≤ v.toNat → y.error = true) ∧ (x.cqDepth ≤ v.toNat → z.error = true) ∧
    (v.toNat < x.sqDepth → y = { x with sqTail := v.toNat, wait := y.wait }) ∧
    (v.toNat < x.cqDepth → z = { x with cqHead := v.toNat })) ∧
  (∀ (q : Nat) (x : QPair), s.dev.pair n q = some x → s.dev.fetchable x = true → s.dev.bad = [] →
    let bs := s.mems.read .host (x.sqBase + 64 * x.sqHead) 64
    let c : Cmd := ⟨n, q, BitVec.ofNat 16 (bytesAt bs 2 2), BitVec.ofNat 64 (bytesAt bs 8 8), BitVec.ofNat 384 (bytesAt bs 16 48)⟩
    let u : State := { s with dev := s.dev.updPair n q fun y => { y with sqHead := (y.sqHead + 1) % y.sqDepth } }
    let opcodes : List (Nat × Instr) :=
      [(0x01, .vfCreate c), (0x02, .vfBind c), (0x03, .vfUnbind c), (0x10, .qpCreate c), (0x11, .qpDelete c),
       (0x20, .imageLoad c), (0x21, .mapCmd c), (0x22, .unmap c), (0x23, .submit c), (0x30, .pause c), (0x31, .resume c),
       (0x32, .evict c), (0x33, .relocate c), (0x40, .ctrReq c), (0x41, .ctrRelease c), (0x42, .ctrEvents c),
       (0x50, .layout c), (0x51, .partReset c), (0x52, .schedSet c), (0x53, .bucketSet c), (0x60, .regionPublish c),
       (0x61, .regionWithdraw c), (0x70, .linkRotate c), (0x80, .journalRead c)]
    (∀ o ∈ opcodes, bytesAt bs 0 2 = o.1 → bytesAt bs 4 4 = 0 → exec (.submissionFetch n q) s = exec o.2 u) ∧
    (s.dev.mgmt.state = 2 → (bytesAt bs 4 4 ≠ 0 ∨ ∀ o ∈ opcodes, bytesAt bs 0 2 ≠ o.1) →
      exec (.submissionFetch n q) s = .next { u with dev := u.dev.complete n q c.cid 0x0001 false 0 })) ∧
  (∀ (q : Nat) (x : QPair) (c : Completion) (cs : List Completion), s.dev.pair n q = some x → x.posts = c :: cs → s.dev.bad = [] →
    x.error = false → (x.cqTail + 1) % x.cqDepth ≠ x.cqHead → (∀ v ∈ s.dev.host.vfs, v.act = none) →
    ∃ t : State, exec (.completionPost n q) s = .next t ∧ t.dev.host.msix = s.dev.host.msix ++ [(n, q)] ∧ t.me = s.me ∧
      Wrote s.mems t.mems .host (x.cqBase + 16 * x.cqTail)
        (leBytes 2 c.cid.toNat ++ leBytes 2 c.head ++ leBytes 2 c.status.toNat ++ [BitVec.ofNat 8 s.dev.mgmt.load] ++
          [(if x.phase then 1 else 0) + (if c.async then 2 else 0)] ++ leBytes 8 c.result.toNat) ∧
      t.dev.pair n q = some { x with posts := cs, cqTail := (x.cqTail + 1) % x.cqDepth
                                     phase := if x.cqTail + 1 = x.cqDepth then !x.phase else x.phase })

/-- R377, R388, R389, R390, R391, R402, R405, R406, R407, R409, R410, R411, R413, R416, R420, R421, R437, R447, R448, R449:
what each command to Operculum does once its checks pass; a device that bring-up has not finished refuses every command with
STATE, and one that has failed every command but JOURNAL_READ. Where the spec leaves a command open, what it does is the
model's choice: logs 18, 38, 40, 42 to 48, 52, 53, 56, 58 and 64. -/
def Obligations.CommandsTakeEffect : Prop :=
  ∀ (c : Cmd) (s : State), s.Inv →
  (s.dev.mgmt.state = 1 → ∀ i, IsCommand c i → RefusedWith s i c 0x0005) ∧
  (s.dev.mgmt.state = 3 → ∀ i, IsCommand c i → i ≠ .journalRead c → RefusedWith s i c 0x0005) ∧
  (s.dev.mgmt.state = 2 →
    let addr := param c 0 8
    let part := param c 0 1
    (let fn := param c 0 2
     let pn := param c 2 1
     restZero c [(0, 3)] = true → c.handle = 0 → 1 ≤ fn → fn ≤ 384 → 1 ≤ pn → pn ≤ 12 → c.fn = 0 →
       s.dev.pendingPart pn = false → s.dev.vf fn = none → (s.dev.part pn).isSome = true →
       s.dev.host.handles.length < 2 ^ 32 → ∃ (t : State) (h : U64), Accepted s t (.vfCreate c) c 0x0001 h ∧
         t.dev.vf fn = some ⟨fn, pn, none, .unlocked, 0, false, false, false, none, [], []⟩ ∧ Issues s t 0 h (.vf fn)) ∧
    (∀ (v : Vf) (p : Part) (pol : Policy) (body sig : List Byte), restZero c [(0, 12)] = true → s.pfVf c = .ok v →
      v.tdi = .unlocked → s.dev.part v.part = some p →
      let bs := s.mems.read .host addr (param c 8 4)
      parsePolicy bs = some (pol, body, sig) → (p.tenant = none ∨ p.tenant = some pol.tenant) →
      sha256 ((bs.drop 80).take 60) = pol.tenant → Config.verifies (leNat ((bs.drop 80).take 60)) (leNat (body ++ sig)) = true →
      s.dev.mgmt.pver pol.tenant ≤ pol.pver → ∃ (t : State) (w : Vf) (q : Part), Accepted s t (.vfBind c) c 0x0002 0 ∧
        t.dev.vf v.fn = some w ∧ w = { v with policy := some pol } ∧ t.dev.part v.part = some q ∧
        q.tenant = some pol.tenant ∧ q.key.isSome = true ∧ t.dev.mgmt.pver pol.tenant = pol.pver ∧
        ∃ j ∈ t.dev.mgmt.flash, j.kind = 6 ∧ j.digest = pol.tenant) ∧
    (∀ v : Vf, restZero c [] = true → s.pfVf c = .ok v → ∃ (t : State) (w : Vf), Accepted s t (.vfUnbind c) c 0x0003 0 ∧
      t.dev.vf v.fn = some w ∧ w.policy = none ∧ w.tdi = .unlocked ∧ w.maps = [] ∧ w.paused = false ∧
      (v.fn ≤ 384 → ∀ (h : U64) (o : Obj), t.dev.object v.fn h = some o → ∃ f, o = .vf f) ∧
      ∀ b ∈ s.dev.mgmt.banks, b.holder = some v.fn → b ∈ w.counters ∧ b ∉ t.dev.mgmt.banks) ∧
    (restZero c [(0, 1), (8, 20)] = true → c.handle = 0 → 1 ≤ part → part ≤ 7 → param c 8 8 % 4096 = 0 →
      param c 16 8 % 4096 = 0 → depthOk (param c 24 2) = true → depthOk (param c 26 2) = true →
      (c.fn = 0 ∨ ∃ v, s.asVf c = .ok v ∧ v.tdi = .run) → c.q ≠ part → s.dev.pair c.fn part = none →
      ∃ t, Accepted s t (.qpCreate c) c 0x0010 0 ∧ t.dev.pair c.fn part = some ⟨c.fn, part, param c 8 8, param c 16 8,
        param c 24 2, param c 26 2, 0, 0, 0, 0, true, false, [], none, none⟩) ∧
    (restZero c [(0, 1)] = true → c.handle = 0 → 1 ≤ part → part ≤ 7 →
      (c.fn = 0 ∨ ∃ v, s.asVf c = .ok v ∧ v.tdi = .run) → (s.dev.pair c.fn part).isSome = true →
      ∃ t, Accepted s t (.qpDelete c) c 0x0011 0 ∧ t.dev.pair c.fn part = none) ∧
    (∀ (v : Vf) (pol : Policy) (p : Part) (secs : List Section) (base : Nat), restZero c [(0, 12)] = true →
      c.handle = 0 → s.loader c = .ok (some v) → v.policy = some pol → s.dev.part v.part = some p →
      parseImage (s.mems.read .host addr (param c 8 4)) = some secs →
      let sizes := ((secs.filter fun x => x.typ == 1).map (·.owner)).map fun k => codePages (taskCode secs k)
      p.roomFor (s.dev.serial + 1) sizes = true → v.codeBase (sizes.foldl Nat.max 0) = some base →
      s.dev.host.handles.length < 2 ^ 32 →
      ∃ (t : State) (h : U64) (im : Image) (j : Job), Accepted s t (.imageLoad c) c 0x0020 h ∧
        Issues s t c.fn h (.image (s.dev.serial + 1)) ∧ im ∈ t.dev.host.images ∧
        im.id = s.dev.serial + 1 ∧ im.secs = secs ∧ im.vf = v.fn ∧ im.fn = c.fn ∧ im.base = base ∧ j ∈ t.dev.jobs ∧ j.id = im.id ∧
        j.vf = v.fn ∧ j.map = [] ∧ j.segs = [] ∧ j.members = 1 + pol.devs.countP (fun x => x.2 != ownIdentity)) ∧
    (let va := param c 8 8
     let len := param c 16 8
     let wide := (len + 65535) / 65536 * 65536
     ∀ (v : Vf) (pol : Policy) (p : Part), restZero c [(0, 2), (8, 24)] = true → c.handle = 0 →
       part = 1 → param c 1 1 = 0 → va % 65536 = 0 → param c 24 8 % 65536 = 0 → param c 24 8 < 2 ^ 52 → len ≠ 0 →
       va + wide ≤ 2 ^ 48 → s.asVf c = .ok v → s.dev.meetsCode v.fn va wide = false → v.tdi = .run →
       v.policy = some pol → s.dev.part v.part = some p →
       (∀ m ∈ v.maps, va + wide ≤ m.va ∨ m.va + 65536 * m.pages ≤ va) →
       (va + wide ≤ Config.logVa ∨ Config.logVa + 131072 ≤ va) →
       (va + wide ≤ Config.tableVa ∨ Config.tableVa + 2 ^ 40 ≤ va) →
       s.dev.host.handles.length < 2 ^ 32 → ∃ (t : State) (h : U64) (w : Vf),
         Accepted s t (.mapCmd c) c 0x0021 h ∧ Issues s t c.fn h (.mapping (s.dev.serial + 1)) ∧ t.dev.vf v.fn = some w ∧
         w.maps = v.maps ++ [⟨s.dev.serial + 1, 1, va, len, param c 24 8, 0⟩]) ∧
    (∀ (v : Vf) (m : Mapping), c.fn ≤ 384 → restZero c [] = true → s.asVf c = .ok v →
      s.dev.object c.fn c.handle = some (.mapping m.id) → (v.maps.find? fun x => x.id == m.id) = some m → v.tdi = .run →
      ∃ (t : State) (w : Vf), Accepted s t (.unmap c) c 0x0022 0 ∧ t.dev.vf v.fn = some w ∧ (∀ x ∈ w.maps, x.id ≠ m.id) ∧
        t.dev.object c.fn c.handle ≠ some (.mapping m.id)) ∧
    (∀ (v : Vf) (p : Part) (im : Image) (x : Section), restZero c [(0, 1)] = true →
      s.dev.imageNamed c.fn c.handle = some im → s.submits c (some im) = .ok (v, im) → v.assigned = true →
      v.evicted = false → (c.fn = 0 → v.flag 2 = true) → s.dev.part v.part = some p →
      (im.secs.find? fun y => y.typ == 12 && y.target == part) = some x → graphOk im x.data = true →
      s.dev.host.handles.length < 2 ^ 32 → ∃ (t : State) (h : U64) (q : Part) (g : Graph),
        Accepted s t (.submit c) c 0x0023 h ∧ Issues s t c.fn h (.graph (s.dev.serial + 1) v.fn) ∧
        t.dev.part v.part = some q ∧ q.graphs = p.graphs ++ [g] ∧
        g.serial = s.dev.serial + 1 ∧ g.handle = h ∧ g.admitted = false ∧ g.nodes = graphNodes x.data ∧
        g.succ = graphSucc x.data ∧ g.cid = c.cid ∧
        ∀ pol : Policy, v.policy = some pol → ∀ j ∈ s.dev.jobs, j.id = im.id →
          j.grant pol im.secs (g.nodes.map (·.task)) ∈ t.dev.jobs) ∧
    (∀ v : Vf, restZero c [] = true → s.pfVf c = .ok v → v.assigned = true → v.act = none → s.anyBound v.fn = false →
      (v.paused = false → v.flag 0 = true → ∃ (t : State) (w : Vf), Accepted s t (.pause c) c 0x0030 0 ∧
        t.dev.vf v.fn = some w ∧ w.paused = true ∧ t.mems = s.mems) ∧
      (v.paused = true → v.flag 0 = true → (∀ x ∈ s.dev.ctxs, x.bound.vf = v.fn → x.written = true → s.gemmaOk x = true) →
        ∃ (t : State) (w : Vf), Accepted s t (.resume c) c 0x0031 0 ∧
        t.dev.vf v.fn = some w ∧ w.paused = false ∧ w.evicted = false ∧ t.mems = s.mems) ∧
      (v.evicted = false → v.flag 1 = true → ∃ (t : State) (w : Vf), Accepted s t (.evict c) c 0x0032 0 ∧
        t.dev.vf v.fn = some w ∧ w.evicted = true ∧ w.paused = true)) ∧
    (∀ v : Vf, restZero c [] = true → s.pfVf c = .ok v → v.assigned = true → v.act = none → v.paused = false →
      v.flag 0 = true → s.anyBound v.fn = true → ∃ (t : State) (w : Vf), AcceptedLater s t (.pause c) c 0x0030 ∧
        t.dev.vf v.fn = some w ∧ w.paused = true ∧ w.act = some (c.fn, c.q, c.cid, false) ∧
        ∀ b, s.me.bound = some b → b.vf = v.fn → s.me.run = .running → t.me.cx.req = true) ∧
    (∀ (v : Vf) (p : Part), restZero c [(0, 2)] = true → part < 32 → param c 1 1 < 32 → s.pfVf c = .ok v →
      v.assigned = true → v.flag 3 = true → s.dev.part v.part = some p → p.clusters.testBit part = true →
      p.clusters.testBit (param c 1 1) = true → (s.dev.ctxs.map (·.id)).Nodup →
      (∀ x ∈ s.dev.ctxs, x.bound.vf = v.fn → clusterOf x.phys = part → isS x.phys = false →
        p.sched.rsmask.testBit (rsBit x.phys) = p.sched.rsmask.testBit (rsBit (5 * param c 1 1 + x.phys % 5))) →
      (∀ x ∈ s.dev.ctxs, x.bound.vf = v.fn → clusterOf x.phys = part → s.owners x.id = []) →
      ∃ t : State, Accepted s t (.relocate c) c 0x0033 0 ∧ ∀ x ∈ s.dev.ctxs, x.bound.vf = v.fn → clusterOf x.phys = part →
        ∃ y ∈ t.dev.ctxs, y.id = x.id ∧ y.phys = 5 * param c 1 1 + x.phys % 5 ∧ y.thread = x.thread) ∧
    (let bank := param c 0 2
     ∀ (v : Vf) (p : Part), c.fn = 0 → bank < 37 → s.pfVf c = .ok v → v.assigned = true → s.dev.part v.part = some p →
       (restZero c [(0, 2), (8, 8)] = true → (∀ i, i < 8 → param c (8 + i) 1 < 32) →
         (∀ b ∈ s.dev.mgmt.banks, b.num = bank → b.holder = none) → ∃ (t : State) (b : Bank),
           Accepted s t (.ctrReq c) c 0x0040 0 ∧ b ∈ t.dev.mgmt.banks ∧ b.num = bank ∧ b.holder = some 0 ∧
           b.sel = (List.range 8).map (fun i => eventFor v.events (param c (8 + i) 1)) ∧ b.counts = List.replicate 8 0 ∧ b.frozen = false) ∧
       (restZero c [(0, 2)] = true → (∃ b ∈ s.dev.mgmt.banks, b.num = bank ∧ b.holder = some 0) → ∃ t,
         Accepted s t (.ctrRelease c) c 0x0041 0 ∧ ∀ b ∈ t.dev.mgmt.banks, b.num ≠ bank)) ∧
    (∀ v : Vf, restZero c [(0, 8)] = true → s.pfVf c = .ok v → ∃ t, Accepted s t (.ctrEvents c) c 0x0042 0 ∧
      t.dev.vf v.fn = some { v with events := BitVec.ofNat 64 addr }) ∧
    (let bs := s.mems.read .host addr 1536
     restZero c [(0, 8)] = true → c.handle = 0 → c.fn = 0 → s.dev.mgmt.commit = none →
      s.dev.affected bs &&& s.dev.busyClusters = 0 → layoutFormat bs = true → s.dev.layoutOk bs = true →
      (∀ i, i < 12 → (descOf bs i).valid = true → (descOf bs i).lend = false) →
      let k : Commit := ⟨bs, sha256 bs, c.fn, c.q, c.cid, s.dev.affected bs, 0, false, false, s.dev.sqHead c.fn c.q⟩
      exec (.layout c) s = .next { s with dev := { s.dev with mgmt := { s.dev.mgmt with commit := some k } } }) ∧
    (∀ p : Part, c.handle = 0 → c.fn = 0 → 1 ≤ part → part ≤ 12 → s.dev.pendingPart part = false →
      s.dev.part part = some p →
      (restZero c [(0, 1)] = true → (∀ x ∈ s.dev.mgmt.scrubs, x.extents &&& p.extents = 0) → ∃ (t : State) (q : Part),
        AcceptedLater s t (.partReset c) c 0x0051 ∧ t.dev.part part = some q ∧ q.tenant = none ∧ q.key = none ∧
        q.graphs = [] ∧ q.stopped = true ∧ ∃ g ∈ t.dev.mgmt.gates, g.cls = p.clusters ∧ g.part = part ∧ g.since = s.dev.now) ∧
      (let bs := s.mems.read .host (param c 8 8) 64
       restZero c [(0, 1), (8, 8)] = true → bytesAt bs 41 7 = 0 → (schedOf bs).ok p.clusters = true → ∃ t,
        Accepted s t (.schedSet c) c 0x0052 0 ∧ t.dev.part part = some { p with pending := some (schedOf bs) })) ∧
    (let port := part
     let pn := param c 1 1
     restZero c [(0, 2), (4, 2), (8, 5)] = true → c.handle = 0 → c.fn = 0 → port < 26 → 1 ≤ pn → pn ≤ 12 →
      param c 4 2 ≤ param c 8 4 → param c 8 4 ≤ 1048575 → param c 12 1 = 0 → s.dev.pendingPart pn = false →
      (s.dev.part pn).isSome = true → ∃ t, Accepted s t (.bucketSet c) c 0x0053 0 ∧ t.dev.bucket port pn =
        ⟨port, pn, param c 4 2, param c 8 4, false, Nat.min (s.dev.bucket port pn).tok (param c 8 4)⟩) ∧
    (let bs := s.mems.read .host addr 80
     let len := bytesAt bs 36 4
     ∀ pa : Nat, restZero c [(0, 8)] = true → c.handle = 0 → s.publisher c (some ()) = .ok () → bytesAt bs 40 8 = 0 → len ≠ 0 →
      (∀ r ∈ s.dev.host.regions, ¬ (r.name = bs.take 32 ∧ r.version = bytesAt bs 32 4)) →
      s.dev.regionPlace ((len + 65535) / 65536 * 65536) = some pa → ∃ t : State, exec (.regionPublish c) s = .next t ∧
        t.dev.host.regions = s.dev.host.regions ++ [⟨s.dev.serial + 1, bs.take 32, bytesAt bs 32 4, len,
          (bs.drop 48).take 32, c.fn, addr + 80, pa, 0, false, false, [], c.q, c.cid⟩] ∧ t.me = s.me ∧
        (s.dev.mgmt.touched = 0 → t.mems = s.mems)) ∧
    (∀ r : Region, c.fn ≤ 384 → restZero c [] = true → s.publisher c (some r) = .ok r → s.dev.object c.fn c.handle = some (.region r.id) →
      (s.dev.host.regions.find? fun x => x.id == r.id) = some r → r.withdrawn = false → r.sealed = true → ∃ t,
        Accepted s t (.regionWithdraw c) c 0x0061 0 ∧ t.dev.object c.fn c.handle ≠ some (.region r.id) ∧
        ∀ x ∈ t.dev.host.regions, x.id = r.id → x.withdrawn = true) ∧
    (∀ x : Port, restZero c [(0, 1)] = true → c.handle = 0 → c.fn = 0 → part < 24 → s.dev.port part = some x →
      x.st = .up → x.out.rotating = false → x.inw.rotating = false → ∃ (t : State) (y : Port),
        Accepted s t (.linkRotate c) c 0x0070 0 ∧ t.dev.port part = some y ∧ y.out.rotating = true ∧
        y.inw.rotating = true ∧ y.out.held (x.out.k + 1) = some (x.out.k + 1) ∧
        y.inw.held (x.inw.k + 1) = some (x.inw.k + 1) ∧ y.out.k = x.out.k ∧ y.inw.k = x.inw.k) ∧
    (let first := param c 24 8
     let rs := fitting (param c 16 4) ((s.dev.readable part).filter fun r => part == 2 || first ≤ r.1)
     restZero c [(0, 1), (8, 12), (24, 8)] = true → c.handle = 0 → c.fn = 0 → part ≤ 2 → param c 8 8 % 64 = 0 → ∃ t,
      Accepted s t (.journalRead c) c 0x0080 (BitVec.ofNat 64 ((rs.getLast?).elim first fun r => r.1 + 1)) ∧
      Wrote s.mems t.mems .host (param c 8 8) (rs.flatMap (·.2)) ∧ t.me = s.me))

/-- R297, R322, R402, R403, R404, R405, R406, R407, R413, R415, R416, R417, R418, R419, R420, R424, R425, R433, R435, R436,
R437, R438, R439, R447, R449, R450, R451: the management steps: regions, power, scrub and layout; watchdog and cold reset;
token refill; the keys and states of links; the failure of a boundary; patrol; SPDM and TDISP; the journal's mirror in flash.
Where the spec leaves a step open, what it does is the model's choice: logs 48 to 51, 53, 57 and 61. -/
def Obligations.ManagementEvents : Prop :=
  ∀ (n : Nat) (s : State), s.Inv →
  (∀ r : Region, s.dev.filling = some r → r.id = n → s.dev.bad = [] →
    let k := Nat.min (r.len - r.got) (s.dev.bucket 26 r.fn).tok
    ∃ t : State, execRegionFill n s = .next t ∧ t.me = s.me ∧
      Wrote s.mems t.mems .hbm (r.pa + r.got) (s.mems.read .host (r.host + r.got) k) ∧
      t.dev.host.regions = (s.dev.host.regions.map fun x => if x.id = n then { x with got := x.got + k } else x) ∧
      (t.dev.bucket 26 r.fn).tok = (s.dev.bucket 26 r.fn).tok - k) ∧
  (∀ r : Region, (s.dev.host.regions.find? fun x => x.id == n && !x.sealed && x.len ≤ x.got) = some r →
    let bs := s.mems.read .hbm r.pa r.len
    (r.got ≠ r.len ∨ sha256 bs ≠ r.digest → ∃ t : State, exec (.regionSeal n) s = .next t ∧
      (∀ x ∈ t.dev.host.regions, x.id ≠ n) ∧ t.mems = s.mems ∧
      t.dev.lastPost r.fn r.q ⟨r.cid, s.dev.sqHead r.fn r.q, 0x0009, false, 0⟩) ∧
    (r.got = r.len → sha256 bs = r.digest → s.dev.bad = [] → s.dev.host.handles.length < 2 ^ 32 →
      let twin := s.dev.host.regions.find? fun x => x.sealed && x.digest == r.digest
      ∃ (t : State) (h : U64), exec (.regionSeal n) s = .next t ∧ t.mems = s.mems ∧
        (∀ x ∈ t.dev.host.regions, x.id = n → x.sealed = true ∧ x.pa = twin.elim r.pa (·.pa)) ∧
        Issues s t r.fn h (.region n) ∧ t.dev.lastPost r.fn r.q ⟨r.cid, s.dev.sqHead r.fn r.q, 0, false, h⟩)) ∧
  (∀ g : Gate, (s.dev.mgmt.gates.find? fun x => x.cls.testBit n && x.since + 270000 ≤ s.dev.now) = some g →
    ∃ t : State, exec (.powerGateOn n) s = .next t ∧
      (n < 32 → t.dev.mgmt.power.testBit n = s.dev.parts.any fun p => p.clusters.testBit n) ∧
      (∀ x ∈ t.dev.ctlb, x.1 ≠ n) ∧ (∀ x ∈ t.dev.refs, clusterOf x.phys ≠ n) ∧ (∀ x ∈ t.dev.chans, x.cl ≠ n) ∧
      (clusterOf s.core.phys = n → s.core.phys < 160 → n < 32 → t.me.bound = none ∧ t.me.regs = Regs.reset) ∧
      (∀ x ∈ t.dev.mgmt.gates, x.cls.testBit n = false) ∧
      (g.cls = 2 ^ n → g.commit = false → s.dev.mgmt.commit = none →
        t.dev.lastPost g.fn g.q ⟨g.cid, g.head, 0, false, 0⟩ ∧ ∃ x ∈ t.dev.mgmt.scrubs, x.extents = g.extents ∧ x.fn = g.fn ∧
          x.q = g.q ∧ x.cid = g.cid ∧ x.quiet = false)) ∧
  (∀ x : Scrub, (s.dev.mgmt.scrubs.find? fun y => y.id == n) = some x → s.dev.bad = [] →
    ∃ t : State, exec (.scrubReport n) s = .next t ∧ (∀ y ∈ t.dev.mgmt.scrubs, y.id ≠ n) ∧
      (∀ a : Nat, a < 2 ^ 39 → (x.extents.testBit (a / 2 ^ 30) = false → t.mems.byte .hbm a = s.mems.byte .hbm a) ∧
        (x.extents.testBit (a / 2 ^ 30) = true → (∀ p ∈ s.dev.parts, p.extents.testBit (a / 2 ^ 30) = false) →
          t.mems.byte .hbm a = 0)) ∧
      (x.quiet = false → t.dev.lastPost x.fn x.q
        ⟨x.cid, x.head, 0, true, BitVec.ofNat 64 ((List.range 512).countP x.extents.testBit)⟩)) ∧
  (∀ k : Commit, s.dev.mgmt.commit = some k →
    let forward (i : Instr) : Prop := ∃ (t : State) (j : JRec), exec i s = .next t ∧ t.dev.mgmt.commit = none ∧
      t.dev.mgmt.journal.getLast? = some j ∧ j.kind = 4 ∧ j.value = 1 ∧ j.digest = k.digest ∧ t.dev.parts.length =
        (List.range 12).countP (fun p => (descOf k.bytes p).valid) ∧
      (∀ p ∈ t.dev.parts, p.clusters = (descOf k.bytes (p.num - 1)).clusters ∧
        p.extents = (descOf k.bytes (p.num - 1)).extents) ∧ t.dev.lastPost k.fn k.q ⟨k.cid, k.head, 0, true, 1⟩
    (k.durable = false → ∃ (t : State) (j : JRec) (l : Commit), execLayoutPrepared s = .next t ∧ t.dev.mgmt.commit = some l ∧
      l = { k with durable := true } ∧ j ∈ t.dev.mgmt.flash ∧ j.kind = 3 ∧ j.digest = k.digest ∧
      (∀ y, t.dev.pair k.fn k.q = some y → y.error = false → ⟨k.cid, k.head, 0, false, 0⟩ ∈ y.posts) ∧
      (k.affected ≠ 0 → ∃ g ∈ t.dev.mgmt.gates, g.cls = k.affected ∧ g.commit = true ∧ g.since = s.dev.now)) ∧
    (k.ready = true → forward .layoutCommit ∧ forward .mgmtWatchdogReset) ∧
    (k.ready = false → exec .layoutCommit s = .next s ∧
      (k.durable = false → ∃ t : State, exec .mgmtWatchdogReset s = .next t ∧ t.dev.mgmt.commit = none ∧
        t.dev.mgmt.journal = s.dev.mgmt.journal ∧ t.dev.parts = s.dev.parts ∧ t.mems = s.mems ∧
        t.dev.lastPost k.fn k.q ⟨k.cid, k.head, 0x000C, false, 0⟩) ∧
      (k.durable = true → (∃ g ∈ s.dev.mgmt.gates, g.commit = true) → exec .mgmtWatchdogReset s =
        .next { s with dev := { s.dev with mgmt := { s.dev.mgmt with commit := some { k with undo := true } } } }) ∧
      (k.durable = true → (∀ g ∈ s.dev.mgmt.gates, g.commit = false) → ∃ (t : State) (j : JRec),
        exec .mgmtWatchdogReset s = .next t ∧ t.dev.mgmt.commit = none ∧ t.dev.mgmt.journal.getLast? = some j ∧ j.kind = 5 ∧
        j.value = 2 ∧ j.digest = k.digest ∧
        t.dev.parts = (s.dev.parts.map fun p => if p.goes k.bytes then { p with stopped := false } else p) ∧
        (∀ a : Nat, (∀ p ∈ s.dev.parts, p.goes k.bytes = true → p.extents.testBit (a / 2 ^ 30) = false) →
          t.mems.byte .hbm a = s.mems.byte .hbm a) ∧ t.dev.lastPost k.fn k.q ⟨k.cid, k.head, 0, true, 2⟩))) ∧
  (∃ t : State, exec .coldReset s = .next t ∧ t.me = State.reset.me ∧ t.core = State.reset.core ∧ t.rest = State.reset.rest ∧
    (∀ a : Nat, t.mems.byte .host a = s.mems.byte .host a) ∧ (∀ a : Nat, a < 2 ^ 39 → t.mems.byte .hbm a = 0) ∧
    (∀ a : Nat, a < 160 * 2 ^ 20 → t.mems.byte .spl a = 0) ∧ (∀ k : Nat, t.mems.tag k = Tag.reset ∧ t.mems.ctl k = 0) ∧
    t.dev.parts = [] ∧ t.dev.net = [] ∧ t.dev.now = 0 ∧ t.dev.mgmt.pvers = s.dev.mgmt.pvers ∧
    t.dev.mgmt.hssNext = s.dev.mgmt.hssPersist ∧ t.dev.mgmt.state = (if s.dev.mgmt.blob.good then 2 else 1) ∧
    (s.dev.mgmt.blob.good = true → t.dev.mgmt.excluded = s.dev.mgmt.blob.coresOut ∧
      t.dev.mgmt.withheld = s.dev.mgmt.blob.extentsOut) ∧
    t.dev.mgmt.loaded = s.dev.mgmt.blob ∧
    (s.dev.mgmt.blob.good = false → t.dev.mgmt.flash = s.dev.mgmt.flash ∧ t.dev.mgmt.journal = []) ∧
    (let last := (s.dev.mgmt.flash.filter fun j => 3 ≤ j.kind && j.kind ≤ 5).getLast?
     s.dev.mgmt.blob.good = true →
      (∀ k : JRec, last = some k → k.kind = 3 → ∃ j ∈ t.dev.mgmt.flash, j.kind = 5 ∧ j.value = 2 ∧ j.digest = k.digest) ∧
      ((∀ k : JRec, last = some k → k.kind ≠ 3) → t.dev.mgmt.flash = s.dev.mgmt.flash ∧
        t.dev.mgmt.journal = [⟨s.dev.mgmt.seq + 1, 0, 8, 0, 0, 0, 0, []⟩]))) ∧
  ((s.dev.mgmt.buckets.map fun b => (b.port, b.part)).Nodup → s.dev.net = [] →
    ∃ t : State, exec .tokenRefill s = .next t ∧ t.me = s.me ∧ t.mems = s.mems ∧ ∀ port part : Nat, port < 27 →
      let b := s.dev.bucket port part
      t.dev.bucket port part = { b with tok := Nat.min b.depth (b.tok + b.rate) }) ∧
  (∀ x : Port, s.dev.port n = some x →
    (x.st ≠ .up → ∃ (t : State) (y : Port), exec (.linkTraining n) s = .next t ∧ t.dev.port n = some y ∧ y.st = .up ∧
      y.out.k = 0 ∧ y.inw.k = 0 ∧ y.out.slot0 = some 0 ∧ y.inw.slot0 = some 0 ∧
      ∀ j ∈ t.dev.jobs, ∀ (i : Nat) (e : DevEntry), j.devs[i]? = some e → e.port = n → i ≠ j.self → e.reach = true) ∧
    (x.st = .up → ∀ o : Bool,
      let l := x.half o
      (l.rotating = true → l.held (l.k + 1) = some (l.k + 1) →
        OneDirection (.rotateConfirm n o) s n o { l with k := l.k + 1, count := 0 }) ∧
      (l.rotating = true → 1 ≤ l.k → l.held (l.k - 1) = some (l.k - 1) → l.k - 1 ∉ l.unacked →
        OneDirection (.retire n o) s n o (if l.k % 2 = 1 then { l with slot0 := none, rotating := false }
          else { l with slot1 := none, rotating := false })) ∧
      (2 ^ 40 ≤ l.count → ∃ (t : State) (y : Port), exec (.keyCounterExpiry n o) s = .next t ∧ t.me = s.me ∧
        t.mems = s.mems ∧ t.dev.port n = some y ∧ y.st = .up ∧ y.out = x.out.rotated ∧ y.inw = x.inw.rotated) ∧
      OneDirection (.flitReplay n o) s n o
        { l with unacked := l.unacked.map fun _ => l.k, count := l.count + l.unacked.length } ∧
      OneDirection (.flitAcknowledgement n o) s n o { l with unacked := l.unacked.drop 1 }) ∧
    (x.st = .up → ∃ (t : State) (y : Port), exec (.linkRetrain n) s = .next t ∧ t.dev.port n = some y ∧
      y.st = .retraining s.dev.now ∧ y.out.slot0 = none ∧ y.out.slot1 = none ∧ y.inw.slot0 = none ∧ y.inw.slot1 = none ∧
      t.dev.mgmt.log.length = s.dev.mgmt.log.length + 1) ∧
    (∀ since : Nat, x.st = .retraining since → since + 27000000 ≤ s.dev.now → ∃ (t : State) (y : Port),
      exec (.linkDown n) s = .next t ∧ t.dev.port n = some y ∧ y.st = .down ∧
      t.dev.mgmt.log.length = s.dev.mgmt.log.length + 1 ∧
      (∀ j ∈ t.dev.jobs, ∀ (i : Nat) (e : DevEntry), j.devs[i]? = some e → e.port = n → i ≠ j.self → e.reach = false) ∧
      t.dev.net = s.dev.net.map fun m => if s.dev.portOf m = some n ∧ (m.stage = .away ∨ m.stage = .tokens) then
        { m with stage := .answered 0x41 0 } else m)) ∧
  (∃ t : State, exec (.boundaryLost n) s = .next t ∧ t.dev.mgmt.state = 3 ∧ t.mems = s.mems ∧
    t.dev.mgmt.log.length = s.dev.mgmt.log.length + 1 ∧
    (s.me.bound.isSome = true → t.me = { s.me with
      run := .faulting 0x40 0 s.me.iss.bpc, watch := none, cx := { s.me.cx with left := 0, req := false }, pend31 := false
      yielded := none })) ∧
  (∀ p : Part, (s.dev.parts.find? fun p => p.owns (n / 8 * 8) 8) = some p → s.dev.bad = [] → (12, n / 8) ∈ s.dev.weak →
    ∃ t : State, exec (.patrol n) s = .next t ∧ (12, n / 8) ∉ t.dev.weak ∧ n / 8 ∉ t.dev.writebacks ∧
      t.dev.mgmt.corrected = (s.dev.mgmt.correctedIn 12 1).corrected ∧ t.mems = s.mems ∧ t.me = s.me) ∧
  (∀ block : Nat,
    let answer (m : Mgmt) (x : Option (List Byte)) : State :=
      { s with dev := { s.dev with mgmt := m, host := { s.dev.host with spdm := s.dev.host.spdm ++ [(n, block, x)] } } }
    exec (.spdmRequest n block false) s = .next (answer s.dev.mgmt (s.dev.measurement n block)) ∧
    (2 ^ 40 ≤ s.dev.mgmt.hssNext → exec (.spdmRequest n block true) s = .next (answer s.dev.mgmt none)) ∧
    (s.dev.mgmt.hssNext < 2 ^ 40 → exec (.spdmRequest n block true) s = .next (answer { s.dev.mgmt with
      hssNext := s.dev.mgmt.hssNext + 1
      hssPersist := if s.dev.mgmt.hssPersist ≤ s.dev.mgmt.hssNext then s.dev.mgmt.hssPersist + 256
        else s.dev.mgmt.hssPersist } (s.dev.measurement n block)))) ∧
  (∀ v : Vf, s.dev.vf n = some v → ∃ t u w : State, exec (.lockInterfaceRequest n) s = .next t ∧
    exec (.startInterfaceRequest n) s = .next u ∧ exec (.tdiError n) s = .next w ∧
    (t.dev.vf n = some (if v.tdi = .unlocked ∧ v.policy.isSome then { v with tdi := .locked } else v)) ∧
    (u.dev.vf n = some (if v.tdi = .locked then { v with tdi := .run } else v)) ∧
    (w.dev.vf n = some (if v.tdi = .locked ∨ v.tdi = .run then { v with tdi := .error, paused := true } else v)) ∧
    t.mems = s.mems ∧ u.mems = s.mems ∧ w.mems = s.mems ∧ t.me = s.me ∧ u.me = s.me) ∧
  (s.dev.mgmt.flash.length + s.dev.mgmt.journal.length ≤ 1048576 → ∃ t : State, exec .journalFlashMirror s = .next t ∧
    (∀ r ∈ s.dev.mgmt.journal, ∃ f ∈ t.dev.mgmt.flash, f.seq = r.seq) ∧ (∀ r ∈ s.dev.mgmt.flash, r ∈ t.dev.mgmt.flash) ∧
    t = { s with dev := { s.dev with mgmt := { s.dev.mgmt with flash := t.dev.mgmt.flash } } })

/-! ### The whole machine -/

/-- The words that the spec works to the bit stand for the instructions it names (chapters 3 to 8), and the three
encodings that the bundle example changes are turned away with the cause it gives. -/
def Obligations.WorkedWordsDecode : Prop :=
  decode true ⟨0, true, 0, 0xF1000000⟩ = .ok (.hdr true 0 0 0) ∧
  decode true ⟨1, true, 0, 0x0C400028⟩ = .ok (.op (.addi (.reg 4) (.g 0) (.wide 0 5) 0)) ∧
  decode true ⟨3, true, 0, 0x5470C180⟩ = .ok (.op (.ldHbm (.narrow 0 (.reg 7)) (.g 3) 6 0)) ∧
  decode true ⟨1, true, 0x19, 0x24412F78⟩ = .ok (.op (.ldis (.reg 4) (.g 4) (.wide 0x19 0x5EF) 0)) ∧
  decode true ⟨2, false, 0, 0x38204025⟩ = .ok (.op (.vcvtFf (.reg 2) (.v 1) 0 1 1 1 0 false)) ∧
  decode true ⟨1, false, 0, 0x88000038⟩ = .ok (.op (.mmset (.g 0) (.narrow 7) 0)) ∧
  decode true ⟨2, false, 0, 0x843C7214⟩ = .ok (.op (.madd 3 1 2 (.v 5) 0)) ∧
  decode true ⟨1, false, 0, 0x50980200⟩ = .ok (.op (.shwMs 1 6 (.g 0) (.narrow 64) 0)) ∧
  decode true ⟨3, true, 0x0A, 0x04104005⟩ = .ok (.op (.mma 1 false 64 5 false true false true 0)) ∧
  decode true ⟨3, false, 0, 0x1C000000⟩ = .ok (.op .mwait) ∧
  decode true ⟨3, true, 1, 0x50318F38⟩ = .ok (.op (.putfSpp (.vec (.v 3) 0 false) (.g 6) 7 0 true 0)) ∧
  decode true ⟨3, true, 0x0C, 0x80108498⟩ = .ok (.op (.copy 1 false 4 (.reg 9) 3 0 true true 0)) ∧
  decode true ⟨3, false, 0, 0x7C000010⟩ = .ok (.op (.fence 2 0 0)) ∧
  decode true ⟨3, false, 0, 0x9000E000⟩ = .ok (.op (.macroRun (.g 7) 0 0)) ∧
  decode true ⟨3, false, 0, 0x94000000⟩ = .ok (.op (.ntile 0)) ∧
  (∃ r : Reject, decode true ⟨2, true, 1, 0⟩ = .error r ∧ r.cause = 0x02) ∧
  (∃ r : Reject, decode true ⟨3, true, 0, 0x5470C000⟩ = .error r ∧ r.cause = 0x02) ∧
  ∃ r : Reject, decode true ⟨1, true, 0, 0x60400028⟩ = .error r ∧ r.cause = 0x01

/-- Every well-formed instruction that has an encoding is what the decoder reads from it, on an M-core; an S-core reads the
same, or refuses the word as one of an M-core (R99..R110). -/
def Obligations.EncodeThenDecode : Prop :=
  ∀ (i : Instr) (e : Enc), i.wf = true → encode i = some e → ∃ d : Decoded, decode true e = .ok d ∧ d.instr = i ∧
    (decode false e = .ok d ∨ decode false e = .error .illegalCore)

/-- Whatever an M-core's decoder accepts is well formed and has an encoding that the decoder reads as the same instruction: no
word stands for an instruction that the encodings do not allow (R99..R110). -/
def Obligations.AcceptedWordsAreWellFormed : Prop :=
  ∀ (e : Enc) (d : Decoded), decode true e = .ok d → d.instr.wf = true ∧
    ∃ f : Enc, encode d.instr = some f ∧ decode true f = .ok d

/-- A step at a quiet instant runs the instructions that the bundle's words decode to, one after another as exec gives them
(R20, R280), and what the core adds around them is the end of the bundle and of its cycle; where one word stands alone and
does not issue, its trap is taken, or its bundle is held under TAGS or WAIT (R22, R106), no register being in error (R427). By
the model's choice: one cycle is one step (log 2), the order of the words of a bundle (log 9), and what has landed before it
(log 10). -/
def Obligations.StepRunsTheDecodedInstructions : Prop :=
  ∀ (s u : State) (b : U128), IssuesNext s b u →
    (∀ v : State, IssuesSlots b (wordOrder b) u v →
      step s = .next ((v.endBundle u.me.lset (u.me.mac.mpc.getLsbD 63) b).tick false)) ∧
    ∀ (k : Nat) (d : Decoded), onlySlot b k → u.dev.bad = [] → u.dev.badTags = [] → decode (!isS u.core.phys) (slotEnc b k) = .ok d →
      ∀ v : State, exec d.instr { u with me := u.me.atSlot (slotEnc b k) } = .next v →
        (v.me.iss.res.isTrap = true → step s = .next v.endTrap) ∧
        (v.me.iss.res = .held →
          step s = .next ((u.holdBundle v).freeze (if u.lacksTags (slotEnc b 3) then frTAGS else frWAIT)))

/-- Every step, whatever state it starts from, keeps the memories in canonical form, so that equal memories are equal data
(the form is the choice of log 6), and keeps the replay frames nested (R144): in every slot of every core and in every
suspended context, frame 1 is occupied, and tagged S, only while frame 0 is occupied and tagged U. -/
def Obligations.StepKeepsTheInvariant : Prop :=
  ∀ s t : State, step s = .next t → (s.Inv → t.Inv) ∧ (s.Nested → t.Nested)

/-- What core reset leaves in every slot of every core (R28, R29, R273): all registers zero but for p0, k0 and the null
tiles; and what cold reset leaves (R451): no partition, no handle, READY, and one journal record of KIND 8. The memories
meet the invariant. Values that the spec does not give are those of logs 5 and 6. -/
def Obligations.ResetState : Prop :=
  State.reset.Inv ∧ State.reset.Nested ∧ State.reset.core.phys = 0 ∧ State.reset.rest.map (fun c => c.core.phys) = List.range' 1 159 ∧
  (∀ t : Thread, t = State.reset.me ∨ t = State.reset.sib ∨ (∃ c ∈ State.reset.rest, t = c.t0 ∨ t = c.t1) →
    (∀ i : Fin 32, t.regs.g[i] = 0 ∧ t.regs.v[i] = 0) ∧ (∀ i : Fin 16, t.regs.q[i] = 0 ∧ t.regs.m[i] = 0) ∧
    (∀ i : Fin 3, t.regs.b[i] = 0) ∧ (∀ i : Fin 8, t.regs.p[i] = (i == 0) ∧ t.regs.k[i] = if i = 0 then BitVec.allOnes 64 else 0) ∧
    (∀ i : Fin 4, t.regs.msL[i] = 0 ∧ t.regs.msS[i] = 0 ∧ t.regs.xsL[i] = 0 ∧ t.regs.xsS[i] = 0 ∧
      t.regs.tc[i] = 0x8000000000000000) ∧
    t.priv = true ∧ t.bound = none ∧ t.infl = [] ∧ t.f0 = none ∧ t.f1 = none ∧ t.mq = []) ∧
  State.reset.dev.parts = [] ∧ State.reset.dev.host.handles = [] ∧ State.reset.dev.mgmt.state = 2 ∧
  State.reset.dev.mgmt.journal.map (fun r => r.kind) = [8] ∧ State.reset.dev.net = []
end

