-- ==== Sys2Proof/Laws/Frames.lean ====
section
/-! SUPPORT. The operations on replay frames keep them nested (R144, R150). -/
namespace Sys2Proof.Machine

theorem Thread.nested_of_eq {t u : Thread} (h : t.Nested) (h0 : u.f0 = t.f0) (h1 : u.f1 = t.f1) : u.Nested := by
  unfold Thread.Nested; rw [h0, h1]; exact h

theorem Thread.nested_of_none {t : Thread} (h : t.f1 = none) : t.Nested := fun g hg => by simp [h] at hg

theorem Thread.capture_tagS (t : Thread) (b : Bool) : (t.capture b).tagS = b := by
  unfold Thread.capture; split <;> rfl

theorem Thread.takeTrap_nested (t : Thread) (ev : TrapEvent) (h : t.Nested) : (t.takeTrap ev).Nested := by
  unfold Thread.takeTrap
  cases h0 : t.f0 with
  | none =>
    have h1 : t.f1 = none := by
      cases e : t.f1 with
      | none => rfl
      | some g => obtain ⟨-, f, hf, -⟩ := h g e; simp [h0] at hf
    exact Thread.nested_of_none (by simp [h1])
  | some f =>
    by_cases hc : (!f.tagS && t.f1.isNone && t.trapsToS ev.code) = true
    · simp only [Option.isNone_some, Option.any_some, Bool.false_or, hc, if_true]
      simp only [Bool.and_eq_true, Bool.not_eq_true'] at hc
      intro g hg
      obtain rfl : t.capture (t.trapsToS ev.code) = g := by simpa using hg
      exact ⟨by rw [Thread.capture_tagS]; exact hc.2, f, by simp, hc.1.1⟩
    · simp only [Option.isNone_some, Option.any_some, Bool.false_or, hc]
      exact Thread.nested_of_eq h rfl rfl

theorem Thread.freeTop_nested (t : Thread) : t.freeTop.Nested := by
  unfold Thread.freeTop
  split
  · exact Thread.nested_of_none rfl
  · exact Thread.nested_of_none ‹_›

theorem Thread.returnTo_nested (t : Thread) (toS : Bool) (target : Pc) (lact : U64) (priv : Bool) (h : t.Nested) :
    (t.returnTo toS target lact priv).Nested := by
  have h2 : ∀ u : Thread, u.f0 = t.f0 → u.f1 = t.f1 → u.Nested := fun u a b => Thread.nested_of_eq h a b
  unfold Thread.returnTo
  dsimp only
  repeat' split
  all_goals first
    | exact h2 _ rfl rfl
    | exact Thread.nested_of_eq (Thread.freeTop_nested _) rfl rfl
end Sys2Proof.Machine
end

