-- ==== Sys2Proof/Laws/Matrix.lean ====
section
/-! SUPPORT. The checks of a matrix product: where R189 is met, they pass. -/
namespace Sys2Proof.Machine

theorem beyond_none (b st n sz : Nat) : ∀ rows, RowsWithin b st n sz rows → firstBeyond b st n sz rows = none
  | 0, _ => rfl
  | r+1, h => by
    have h1 := beyond_none b st n sz r (fun x hx => h x (by omega))
    have h2 := h r (by omega)
    simp only [firstBeyond, h1]; rw [if_neg (by omega)]

theorem within_none (o : Operand) (rows k : Nat) (h : o.within rows k) : o.beyond rows k = none := by
  unfold Operand.within at h; unfold Operand.beyond Operand.extent
  cases hk : o.kMajor <;> simp [hk] at h ⊢ <;> exact beyond_none _ _ _ _ _ h

theorem owns_ok (s : State) (h : s.owns) (g : Nat) : s.ownCheck g = .ok () := by
  obtain ⟨h1,h2⟩ := h
  unfold State.ownCheck bitsOf
  have : BitVec.toNat (BitVec.extractLsb' 0 (15-0+1) s.me.cx.accown) = BitVec.toNat (BitVec.extractLsb' 0 (15-0+1) s.me.cx.ctxid) := by
    simp [BitVec.extractLsb'_toNat]; omega
  rw [if_pos]; simp [h1]; simpa using this

theorem mayRead_ok (s : State) (n) (h : s.mayRead n) : s.badNeighbour n = false := by
  unfold State.mayRead at h
  unfold State.badNeighbour
  rcases h with h | h | ⟨b,h,h2⟩
  · simp [h]
  · simp [h]
  · simp [h,h2]

theorem product_ok (s : State) (pr sh gx g mods) (h : s.productOk pr sh gx g mods) : s.productCheck pr sh gx g mods = .ok () := by
  unfold State.productOk at h
  obtain ⟨⟨⟨t1,t2,t3,t4⟩, k1,k2,fa,fb,n1,n2,hm,hsc,hg,hsa,hsb⟩,hmod,wa,wb,hs3,hm1,hm2,r1,r2,ow⟩ := h
  unfold State.modsOk at hmod
  have e1 := within_none _ _ _ wa
  have e2 := within_none _ _ _ wb
  have e3 := mayRead_ok s _ r1
  have e4 := mayRead_ok s _ r2
  have e5 := owns_ok s ow g
  unfold State.productCheck
  generalize s.opA sh gx s.core.tabs false = a at *
  generalize s.opB sh gx s.core.tabs false = b at *
  have ha := hsc a (by simp)
  have hb := hsc b (by simp)
  dsimp only
  rw [if_neg (by omega), if_neg (by omega)]
  cases pr
  all_goals simp at hm hg
  case dense | sparseA | sparseB =>
    obtain ⟨m1,m2,m3,m4⟩ := hm
    simp at hsa hsb
    rw [if_neg (by simp), if_neg (by simp [m1,m2,m3])]
    rw [if_neg (by simp [m4]; cases h1:a.scaled <;> cases h2:b.scaled <;> simp_all)]
    rw [if_neg (by cases h1:a.scaled <;> cases h2:b.scaled <;> simp_all)]
    rw [if_neg (by simp; omega), if_neg (by simp)]
    rw [if_neg (by simp_all), if_neg (by simp_all), if_neg (by simp_all)]
    rw [e1, e2, e3, e4, e5]
    have z (x n : Nat) (h : x + n ≤ s.splSize) : firstBeyond x 0 n s.splSize 1 = none := beyond_none _ _ _ _ _ (fun r hr => by omega)
    cases h1:a.scaled <;> cases h2:b.scaled <;> simp_all [byteFault, bind, Except.bind]
  case moment =>
    obtain ⟨m1,m2,m3⟩ := hm
    rw [if_neg (by simp [m1,m2]), if_neg (by simp)]
    rw [if_neg (by simp [Nat.mod_one]; cases h1:a.scaled <;> cases h2:b.scaled <;> simp_all)]
    rw [if_neg (by cases h1:a.scaled <;> cases h2:b.scaled <;> simp_all)]
    rw [if_neg (by simp; omega), if_neg (by simp; omega)]
    rw [if_neg (by simp_all), if_neg (by simp_all), if_neg (by simp_all)]
    rw [e1, e2, e3, e4, e5]
    have z (x n : Nat) (h : x + n ≤ s.splSize) : firstBeyond x 0 n s.splSize 1 = none := beyond_none _ _ _ _ _ (fun r hr => by omega)
    cases h1:a.scaled <;> cases h2:b.scaled <;> simp_all [byteFault, bind, Except.bind]
end Sys2Proof.Machine
end

