-- ==== Sys2Proof/Laws/Sparse.lean ====
section
/-! SUPPORT. What the sparse operations do: reading after a write, and that they keep the canonical form. -/
namespace Sys2Proof.Machine

theorem spWfFrom_mono {α : Type} [DecidableEq α] (d : α) {lo lo' : Nat} (h : lo' ≤ lo) :
    ∀ m : List (Nat × α), spWfFrom d lo m = true → spWfFrom d lo' m = true
  | [], _ => rfl
  | (j, v) :: t, hm => by
    simp only [spWfFrom, Bool.and_eq_true, decide_eq_true_eq] at hm ⊢
    exact ⟨⟨by omega, hm.1.2⟩, hm.2⟩

theorem spGet_of_lt {α : Type} [DecidableEq α] (d : α) : ∀ (m : List (Nat × α)) (lo k : Nat),
    spWfFrom d lo m = true → k < lo → spGet d m k = d
  | [], _, _, _, _ => rfl
  | (j, v) :: t, lo, k, hm, hk => by
    simp only [spWfFrom, Bool.and_eq_true, decide_eq_true_eq] at hm
    simp [spGet, show ¬ k = j by omega, show k < j by omega]

theorem spSet_wfFrom {α : Type} [DecidableEq α] (d : α) (k : Nat) (x : α) : ∀ (m : List (Nat × α)) (lo : Nat),
    spWfFrom d lo m = true → lo ≤ k → spWfFrom d lo (spSet d k x m) = true
  | [], lo, _, hk => by
    by_cases h : x = d <;> simp [spSet, spWfFrom, h, hk]
  | (j, v) :: t, lo, hm, hk => by
    have hm' := hm
    simp only [spWfFrom, Bool.and_eq_true, decide_eq_true_eq] at hm
    obtain ⟨⟨hj, hv⟩, ht⟩ := hm
    simp only [spSet]
    split
    · next h1 =>
      split
      · exact hm'
      · next h2 =>
        simp only [spWfFrom, Bool.and_eq_true, decide_eq_true_eq]
        exact ⟨⟨hk, h2⟩, ⟨by omega, hv⟩, ht⟩
    · split
      · next h1 h2 =>
        subst h2
        split
        · exact spWfFrom_mono d (by omega) t ht
        · next h3 =>
          simp only [spWfFrom, Bool.and_eq_true, decide_eq_true_eq]
          exact ⟨⟨hk, h3⟩, ht⟩
      · next h1 h2 =>
        simp only [spWfFrom, Bool.and_eq_true, decide_eq_true_eq]
        exact ⟨⟨hj, hv⟩, spSet_wfFrom d k x t (j + 1) ht (by omega)⟩

/-- A write keeps the canonical form. -/
theorem spSet_wf {α : Type} [DecidableEq α] (d : α) (k : Nat) (x : α) (m : List (Nat × α)) (h : spWf d m = true) :
    spWf d (spSet d k x m) = true := spSet_wfFrom d k x m 0 h (Nat.zero_le k)

theorem spClear_wfFrom {α : Type} [DecidableEq α] (d : α) (a n : Nat) : ∀ (m : List (Nat × α)) (lo : Nat),
    spWfFrom d lo m = true → spWfFrom d lo (spClear a n m) = true
  | [], _, _ => rfl
  | (j, v) :: t, lo, hm => by
    simp only [spWfFrom, Bool.and_eq_true, decide_eq_true_eq] at hm
    obtain ⟨⟨hj, hv⟩, ht⟩ := hm
    have ih := spClear_wfFrom d a n t (j + 1) ht
    simp only [spClear]
    split
    · exact spWfFrom_mono d (by omega) _ ih
    · simp only [spWfFrom, Bool.and_eq_true, decide_eq_true_eq]
      exact ⟨⟨hj, hv⟩, ih⟩

/-- Removing a range keeps the canonical form. -/
theorem spClear_wf {α : Type} [DecidableEq α] (d : α) (a n : Nat) (m : List (Nat × α)) (h : spWf d m = true) :
    spWf d (spClear a n m) = true := spClear_wfFrom d a n m 0 h

theorem spGet_spSet_from {α : Type} [DecidableEq α] (d : α) (k : Nat) (x : α) (j : Nat) :
    ∀ (m : List (Nat × α)) (lo : Nat), spWfFrom d lo m = true →
      spGet d (spSet d k x m) j = if j = k then x else spGet d m j
  | [], lo, _ => by
    by_cases h : x = d <;> by_cases hj : j = k <;> simp [spSet, spGet, h, hj]
  | (i, v) :: t, lo, hm => by
    have ht : spWfFrom d (i + 1) t = true := by
      simp only [spWfFrom, Bool.and_eq_true] at hm; exact hm.2
    have ih := spGet_spSet_from d k x j t (i + 1) ht
    simp only [spSet]
    split
    · next h1 =>
      by_cases hj : j = k
      · subst hj
        by_cases hx : x = d
        · simp [spGet, hx, h1, show ¬ j = i by omega]
        · simp [spGet, hx]
      · by_cases hx : x = d
        · simp [spGet, hx, hj]
        · by_cases hl : j < k
          · simp [spGet, hx, hj, hl, show ¬ j = i by omega, show j < i by omega]
          · simp [spGet, hx, hj, hl]
    · split
      · next h1 h2 =>
        subst h2
        by_cases hx : x = d
        · subst hx
          simp only [if_true, spGet]
          by_cases hj : j = k
          · subst hj; simpa [spSet] using spGet_of_lt _ t (j + 1) j ht (by omega)
          · by_cases hl : j < k
            · simp [hj, hl, spGet_of_lt _ t (k + 1) j ht (by omega)]
            · simp [hj, hl]
        · by_cases hj : j = k <;> simp [spGet, hx, hj]
      · next h1 h2 =>
        simp only [spGet]
        by_cases hj : j = i
        · subst hj; simp [show ¬ j = k by omega]
        · by_cases hl : j < i
          · simp [hj, hl, show ¬ j = k by omega]
          · simp [hj, hl, ih]

/-- Reading after a write: the key written holds the value, every other key is as before. -/
theorem spGet_spSet {α : Type} [DecidableEq α] (d : α) (k : Nat) (x : α) (j : Nat) (m : List (Nat × α))
    (h : spWf d m = true) : spGet d (spSet d k x m) j = if j = k then x else spGet d m j :=
  spGet_spSet_from d k x j m 0 h

end Sys2Proof.Machine
end

