-- ==== Sys2Proof/Laws/Memory.lean ====
section
/-! SUPPORT. The memories: every primitive keeps the canonical form, so everything an action reaches does, and what is read
after a write. -/
namespace Sys2Proof.Machine

theorem Mems.setByte_wf (m : Mems) (sp : Space) (a : Nat) (b : Byte) (h : m.wf = true) : (m.setByte sp a b).wf = true := by
  simp only [Mems.wf, Bool.and_eq_true] at h ⊢
  obtain ⟨⟨⟨⟨⟨h1, h2⟩, h3⟩, h4⟩, h5⟩, h6⟩ := h
  cases sp
  · exact ⟨⟨⟨⟨⟨spSet_wf _ _ _ _ h1, h2⟩, h3⟩, h4⟩, h5⟩, h6⟩
  · exact ⟨⟨⟨⟨⟨h1, spSet_wf _ _ _ _ h2⟩, h3⟩, h4⟩, h5⟩, h6⟩
  · exact ⟨⟨⟨⟨⟨h1, h2⟩, spSet_wf _ _ _ _ h3⟩, h4⟩, h5⟩, h6⟩
  · exact ⟨⟨⟨⟨⟨h1, h2⟩, h3⟩, spSet_wf _ _ _ _ h4⟩, h5⟩, h6⟩

theorem Mems.clear_wf (m : Mems) (sp : Space) (lo n : Nat) (h : m.wf = true) : (m.clear sp lo n).wf = true := by
  simp only [Mems.wf, Bool.and_eq_true] at h ⊢
  obtain ⟨⟨⟨⟨⟨h1, h2⟩, h3⟩, h4⟩, h5⟩, h6⟩ := h
  cases sp
  · exact ⟨⟨⟨⟨⟨spClear_wf _ _ _ _ h1, h2⟩, h3⟩, h4⟩, h5⟩, h6⟩
  · exact ⟨⟨⟨⟨⟨h1, spClear_wf _ _ _ _ h2⟩, h3⟩, h4⟩, h5⟩, h6⟩
  · exact ⟨⟨⟨⟨⟨h1, h2⟩, spClear_wf _ _ _ _ h3⟩, h4⟩, h5⟩, h6⟩
  · exact ⟨⟨⟨⟨⟨h1, h2⟩, h3⟩, spClear_wf _ _ _ _ h4⟩, h5⟩, h6⟩

theorem Mems.setTag_wf (m : Mems) (k : Nat) (t : Tag) (h : m.wf = true) : (m.setTag k t).wf = true := by
  simp only [Mems.wf, Bool.and_eq_true] at h ⊢
  exact ⟨⟨h.1.1, spSet_wf _ _ _ _ h.1.2⟩, h.2⟩

theorem Mems.setCtl_wf (m : Mems) (k : Nat) (x : U128) (h : m.wf = true) : (m.setCtl k x).wf = true := by
  simp only [Mems.wf, Bool.and_eq_true] at h ⊢
  exact ⟨h.1, spSet_wf _ _ _ _ h.2⟩

/-- Whatever the primitives reach from memories in canonical form is in canonical form. -/
theorem MemReach.wf {m n : Mems} (h : MemReach m n) (w : m.wf = true) : n.wf = true := by
  induction h with
  | refl => exact w
  | byte _ sp a b ih => exact Mems.setByte_wf _ sp a b ih
  | clear _ sp lo k ih => exact Mems.clear_wf _ sp lo k ih
  | tag _ k t ih => exact Mems.setTag_wf _ k t ih
  | ctl _ k x ih => exact Mems.setCtl_wf _ k x ih

theorem MemReach.trans {a b c : Mems} (h : MemReach a b) (k : MemReach b c) : MemReach a c := by
  induction k with
  | refl => exact h
  | byte _ sp x v ih => exact ih.byte sp x v
  | clear _ sp lo n ih => exact ih.clear sp lo n
  | tag _ n t ih => exact ih.tag n t
  | ctl _ n x ih => exact ih.ctl n x

/-- What an action reaches: its memories come from those it began with by primitives. -/
theorem runAct_reach (f : (s0 : State) → Act s0 Unit) (s : State) : MemReach s.mems (runAct f s).mems :=
  ((StateT.run (f s) ⟨s, .refl⟩ : Unit × Tx s).2).ok

/-- An action keeps the canonical form. -/
theorem runAct_wf (f : (s0 : State) → Act s0 Unit) (s : State) (h : s.mems.wf = true) : (runAct f s).mems.wf = true :=
  (runAct_reach f s).wf h

/-- A read after a write of one byte. -/
theorem Mems.byte_setByte (m : Mems) (sp sq : Space) (a c : Nat) (b : Byte) (h : m.wf = true) :
    (m.setByte sp a b).byte sq c = if sq = sp ∧ c = a then b else m.byte sq c := by
  simp only [Mems.wf, Bool.and_eq_true] at h
  obtain ⟨⟨⟨⟨⟨h1, h2⟩, h3⟩, h4⟩, -⟩, -⟩ := h
  have g (l : List Host.Cell) (hl : spWf (0 : Byte) l = true) : spGet 0 (spSet 0 a b l) c = if c = a then b else spGet 0 l c :=
    spGet_spSet _ _ _ _ _ hl
  cases sp <;> cases sq <;> simp only [Mems.setByte, Mems.byte, reduceCtorEq, false_and, if_false, true_and]
  · exact g _ h1
  · exact g _ h2
  · exact g _ h3
  · exact g _ h4

theorem Mems.tag_setTag (m : Mems) (k j : Nat) (t : Tag) (h : m.wf = true) :
    (m.setTag k t).tag j = if j = k then t else m.tag j := by
  simp only [Mems.wf, Bool.and_eq_true] at h
  exact spGet_spSet _ _ _ _ _ h.1.2

theorem Mems.ctl_setCtl (m : Mems) (k j : Nat) (x : U128) (h : m.wf = true) :
    (m.setCtl k x).ctl j = if j = k then x else m.ctl j := by
  simp only [Mems.wf, Bool.and_eq_true] at h
  exact spGet_spSet _ _ _ _ _ h.2

@[simp] theorem Mems.tag_setByte (m : Mems) (sp : Space) (a k : Nat) (b : Byte) : (m.setByte sp a b).tag k = m.tag k := by
  cases sp <;> rfl

@[simp] theorem Mems.ctl_setByte (m : Mems) (sp : Space) (a k : Nat) (b : Byte) : (m.setByte sp a b).ctl k = m.ctl k := by
  cases sp <;> rfl

@[simp] theorem Mems.byte_setTag (m : Mems) (sp : Space) (a k : Nat) (t : Tag) : (m.setTag k t).byte sp a = m.byte sp a := by
  cases sp <;> rfl

@[simp] theorem Mems.ctl_setTag (m : Mems) (j k : Nat) (t : Tag) : (m.setTag k t).ctl j = m.ctl j := rfl

@[simp] theorem Mems.byte_setCtl (m : Mems) (sp : Space) (a k : Nat) (x : U128) : (m.setCtl k x).byte sp a = m.byte sp a := by
  cases sp <;> rfl

@[simp] theorem Mems.tag_setCtl (m : Mems) (j k : Nat) (x : U128) : (m.setCtl k x).tag j = m.tag j := rfl

end Sys2Proof.Machine
end

