-- ==== Sys2Proof/Laws/Operands.lean ====
section
/-! SUPPORT. The operand fields: what the encoder writes of an operand the decoder accepts and reads back; and what a decoded
word does is what exec does with its instruction. -/
namespace Sys2Proof

@[simp] theorem dstOf_dstBits (d : Dst) : dstOf (dstBits d) = d := by
  cases d with
  | reg r => revert r; decide
  | tr => rfl

@[simp] theorem ckDst_dstBits (d : Dst) : ckDst (dstBits d) = none := by
  cases d with
  | reg r => revert r; decide
  | tr => rfl

@[simp] theorem srcOf_srcBits (x : Src) : srcOf (srcBits x) = x := by
  cases x with
  | g r => revert r; decide
  | q a => revert a; decide
  | c k => revert k; decide

@[simp] theorem p3Of_p3Bits (p : U3) : p3Of (p3Bits p) = p := by revert p; decide

@[simp] theorem ckP3_p3Bits (p : U3) : ckP3 (p3Bits p) = none := by revert p; decide

namespace Machine

/-- A decoded word is executed as the instruction that it is. -/
theorem Decoded.exec_eq (d : Decoded) (s : State) : Decoded.exec d s = Machine.exec d.instr s := by cases d <;> rfl

end Machine
end Sys2Proof
end

