-- ==== Sys2Proof/Laws/State.lean ====
section
/-! SUPPORT. One lemma per field for each named update of State and of a slot, true by unfolding, so that no later proof
unfolds a record update. -/
namespace Sys2Proof.Machine

@[simp] theorem State.issue_me (s : State) (lat : Nat) (r : Res) (stat : U16) : (s.issue lat r stat).me = s.me.issue lat r stat := rfl
@[simp] theorem State.issue_sib (s : State) (lat : Nat) (r : Res) (stat : U16) : (s.issue lat r stat).sib = s.sib := rfl
@[simp] theorem State.issue_core (s : State) (lat : Nat) (r : Res) (stat : U16) : (s.issue lat r stat).core = s.core := rfl
@[simp] theorem State.issue_rest (s : State) (lat : Nat) (r : Res) (stat : U16) : (s.issue lat r stat).rest = s.rest := rfl
@[simp] theorem State.issue_mems (s : State) (lat : Nat) (r : Res) (stat : U16) : (s.issue lat r stat).mems = s.mems := rfl
@[simp] theorem State.issue_dev (s : State) (lat : Nat) (r : Res) (stat : U16) : (s.issue lat r stat).dev = s.dev := rfl
@[simp] theorem State.issue_inputs (s : State) (lat : Nat) (r : Res) (stat : U16) : (s.issue lat r stat).inputs = s.inputs := rfl
@[simp] theorem State.issue_free (s : State) (lat : Nat) (r : Res) (stat : U16) : (s.issue lat r stat).free = s.free := rfl

@[simp] theorem State.issueG_me (s : State) (lat : Nat) (d : Dst) (p : U3) (v : U64) (f : U16) : (s.issueG lat d p v f).me = s.me.issue lat (.g d v (s.pred p)) (if s.pred p then f else 0) := rfl
@[simp] theorem State.issueG_sib (s : State) (lat : Nat) (d : Dst) (p : U3) (v : U64) (f : U16) : (s.issueG lat d p v f).sib = s.sib := rfl
@[simp] theorem State.issueG_core (s : State) (lat : Nat) (d : Dst) (p : U3) (v : U64) (f : U16) : (s.issueG lat d p v f).core = s.core := rfl
@[simp] theorem State.issueG_rest (s : State) (lat : Nat) (d : Dst) (p : U3) (v : U64) (f : U16) : (s.issueG lat d p v f).rest = s.rest := rfl
@[simp] theorem State.issueG_mems (s : State) (lat : Nat) (d : Dst) (p : U3) (v : U64) (f : U16) : (s.issueG lat d p v f).mems = s.mems := rfl
@[simp] theorem State.issueG_dev (s : State) (lat : Nat) (d : Dst) (p : U3) (v : U64) (f : U16) : (s.issueG lat d p v f).dev = s.dev := rfl
@[simp] theorem State.issueG_inputs (s : State) (lat : Nat) (d : Dst) (p : U3) (v : U64) (f : U16) : (s.issueG lat d p v f).inputs = s.inputs := rfl
@[simp] theorem State.issueG_free (s : State) (lat : Nat) (d : Dst) (p : U3) (v : U64) (f : U16) : (s.issueG lat d p v f).free = s.free := rfl

@[simp] theorem State.issueP_me (s : State) (d p : U3) (v : Bool) : (s.issueP d p v).me = s.me.issue 1 (.p d v (s.pred p)) 0 := rfl
@[simp] theorem State.issueP_sib (s : State) (d p : U3) (v : Bool) : (s.issueP d p v).sib = s.sib := rfl
@[simp] theorem State.issueP_core (s : State) (d p : U3) (v : Bool) : (s.issueP d p v).core = s.core := rfl
@[simp] theorem State.issueP_rest (s : State) (d p : U3) (v : Bool) : (s.issueP d p v).rest = s.rest := rfl
@[simp] theorem State.issueP_mems (s : State) (d p : U3) (v : Bool) : (s.issueP d p v).mems = s.mems := rfl
@[simp] theorem State.issueP_dev (s : State) (d p : U3) (v : Bool) : (s.issueP d p v).dev = s.dev := rfl
@[simp] theorem State.issueP_inputs (s : State) (d p : U3) (v : Bool) : (s.issueP d p v).inputs = s.inputs := rfl
@[simp] theorem State.issueP_free (s : State) (d p : U3) (v : Bool) : (s.issueP d p v).free = s.free := rfl

@[simp] theorem State.hold_me (s : State) : (s.hold).me = { s.me with iss := { s.me.iss with res := .held } } := rfl
@[simp] theorem State.hold_sib (s : State) : (s.hold).sib = s.sib := rfl
@[simp] theorem State.hold_core (s : State) : (s.hold).core = s.core := rfl
@[simp] theorem State.hold_rest (s : State) : (s.hold).rest = s.rest := rfl
@[simp] theorem State.hold_mems (s : State) : (s.hold).mems = s.mems := rfl
@[simp] theorem State.hold_dev (s : State) : (s.hold).dev = s.dev := rfl
@[simp] theorem State.hold_inputs (s : State) : (s.hold).inputs = s.inputs := rfl
@[simp] theorem State.hold_free (s : State) : (s.hold).free = s.free := rfl

@[simp] theorem State.transfer_me (s : State) (x : Pc) : (s.transfer x).me = s.me.transfer x := rfl
@[simp] theorem State.transfer_sib (s : State) (x : Pc) : (s.transfer x).sib = s.sib := rfl
@[simp] theorem State.transfer_core (s : State) (x : Pc) : (s.transfer x).core = s.core := rfl
@[simp] theorem State.transfer_rest (s : State) (x : Pc) : (s.transfer x).rest = s.rest := rfl
@[simp] theorem State.transfer_mems (s : State) (x : Pc) : (s.transfer x).mems = s.mems := rfl
@[simp] theorem State.transfer_dev (s : State) (x : Pc) : (s.transfer x).dev = s.dev := rfl
@[simp] theorem State.transfer_inputs (s : State) (x : Pc) : (s.transfer x).inputs = s.inputs := rfl
@[simp] theorem State.transfer_free (s : State) (x : Pc) : (s.transfer x).free = s.free := rfl

@[simp] theorem State.trap_me (s : State) (code : Byte) (info : U64) : (s.trap code info).me = s.me.trapAtIssue code info := rfl
@[simp] theorem State.trap_sib (s : State) (code : Byte) (info : U64) : (s.trap code info).sib = s.sib := rfl
@[simp] theorem State.trap_core (s : State) (code : Byte) (info : U64) : (s.trap code info).core = s.core := rfl
@[simp] theorem State.trap_rest (s : State) (code : Byte) (info : U64) : (s.trap code info).rest = s.rest := rfl
@[simp] theorem State.trap_mems (s : State) (code : Byte) (info : U64) : (s.trap code info).mems = s.mems := rfl
@[simp] theorem State.trap_dev (s : State) (code : Byte) (info : U64) : (s.trap code info).dev = s.dev := rfl
@[simp] theorem State.trap_inputs (s : State) (code : Byte) (info : U64) : (s.trap code info).inputs = s.inputs := rfl
@[simp] theorem State.trap_free (s : State) (code : Byte) (info : U64) : (s.trap code info).free = s.free := rfl

@[simp] theorem State.trapWord_me (s : State) (code : Byte) : (s.trapWord code).me = s.me.trapAtIssue code (s.me.iss.word.zeroExtend 64) := rfl
@[simp] theorem State.trapWord_sib (s : State) (code : Byte) : (s.trapWord code).sib = s.sib := rfl
@[simp] theorem State.trapWord_core (s : State) (code : Byte) : (s.trapWord code).core = s.core := rfl
@[simp] theorem State.trapWord_rest (s : State) (code : Byte) : (s.trapWord code).rest = s.rest := rfl
@[simp] theorem State.trapWord_mems (s : State) (code : Byte) : (s.trapWord code).mems = s.mems := rfl
@[simp] theorem State.trapWord_dev (s : State) (code : Byte) : (s.trapWord code).dev = s.dev := rfl
@[simp] theorem State.trapWord_inputs (s : State) (code : Byte) : (s.trapWord code).inputs = s.inputs := rfl
@[simp] theorem State.trapWord_free (s : State) (code : Byte) : (s.trapWord code).free = s.free := rfl

@[simp] theorem State.setLoop_me (s : State) (l : LoopRegs) : (s.setLoop l).me = { s.me with loop := l } := rfl
@[simp] theorem State.setLoop_sib (s : State) (l : LoopRegs) : (s.setLoop l).sib = s.sib := rfl
@[simp] theorem State.setLoop_core (s : State) (l : LoopRegs) : (s.setLoop l).core = s.core := rfl
@[simp] theorem State.setLoop_rest (s : State) (l : LoopRegs) : (s.setLoop l).rest = s.rest := rfl
@[simp] theorem State.setLoop_mems (s : State) (l : LoopRegs) : (s.setLoop l).mems = s.mems := rfl
@[simp] theorem State.setLoop_dev (s : State) (l : LoopRegs) : (s.setLoop l).dev = s.dev := rfl
@[simp] theorem State.setLoop_inputs (s : State) (l : LoopRegs) : (s.setLoop l).inputs = s.inputs := rfl
@[simp] theorem State.setLoop_free (s : State) (l : LoopRegs) : (s.setLoop l).free = s.free := rfl

@[simp] theorem State.send_me (s : State) (ms : List Msg) : (s.send ms).me = s.me := rfl
@[simp] theorem State.send_sib (s : State) (ms : List Msg) : (s.send ms).sib = s.sib := rfl
@[simp] theorem State.send_core (s : State) (ms : List Msg) : (s.send ms).core = s.core := rfl
@[simp] theorem State.send_rest (s : State) (ms : List Msg) : (s.send ms).rest = s.rest := rfl
@[simp] theorem State.send_mems (s : State) (ms : List Msg) : (s.send ms).mems = s.mems := rfl
@[simp] theorem State.send_dev (s : State) (ms : List Msg) : (s.send ms).dev = s.dev.postAll ms := rfl
@[simp] theorem State.send_inputs (s : State) (ms : List Msg) : (s.send ms).inputs = s.inputs := rfl
@[simp] theorem State.send_free (s : State) (ms : List Msg) : (s.send ms).free = s.free := rfl

@[simp] theorem State.popEntry_me (s : State) : (s.popEntry).me = { s.me with mq := s.me.mq.drop 1 } := rfl
@[simp] theorem State.popEntry_sib (s : State) : (s.popEntry).sib = s.sib := rfl
@[simp] theorem State.popEntry_core (s : State) : (s.popEntry).core = s.core := rfl
@[simp] theorem State.popEntry_rest (s : State) : (s.popEntry).rest = s.rest := rfl
@[simp] theorem State.popEntry_mems (s : State) : (s.popEntry).mems = s.mems := rfl
@[simp] theorem State.popEntry_dev (s : State) : (s.popEntry).dev = s.dev := rfl
@[simp] theorem State.popEntry_inputs (s : State) : (s.popEntry).inputs = s.inputs := rfl
@[simp] theorem State.popEntry_free (s : State) : (s.popEntry).free = s.free := rfl

@[simp] theorem Thread.push_slot1 (t : Thread) (e : Infl) : (t.push e).slot1 = t.slot1 := rfl
@[simp] theorem Thread.push_regs (t : Thread) (e : Infl) : (t.push e).regs = t.regs := rfl
@[simp] theorem Thread.push_sp (t : Thread) (e : Infl) : (t.push e).sp = t.sp := rfl
@[simp] theorem Thread.push_trap (t : Thread) (e : Infl) : (t.push e).trap = t.trap := rfl
@[simp] theorem Thread.push_loop (t : Thread) (e : Infl) : (t.push e).loop = t.loop := rfl
@[simp] theorem Thread.push_mac (t : Thread) (e : Infl) : (t.push e).mac = t.mac := rfl
@[simp] theorem Thread.push_cx (t : Thread) (e : Infl) : (t.push e).cx = t.cx := rfl
@[simp] theorem Thread.push_pc (t : Thread) (e : Infl) : (t.push e).pc = t.pc := rfl
@[simp] theorem Thread.push_priv (t : Thread) (e : Infl) : (t.push e).priv = t.priv := rfl
@[simp] theorem Thread.push_infl (t : Thread) (e : Infl) : (t.push e).infl = t.infl := rfl
@[simp] theorem Thread.push_f0 (t : Thread) (e : Infl) : (t.push e).f0 = t.f0 := rfl
@[simp] theorem Thread.push_f1 (t : Thread) (e : Infl) : (t.push e).f1 = t.f1 := rfl
@[simp] theorem Thread.push_orphans (t : Thread) (e : Infl) : (t.push e).orphans = t.orphans := rfl
@[simp] theorem Thread.push_tabq (t : Thread) (e : Infl) : (t.push e).tabq = t.tabq := rfl
@[simp] theorem Thread.push_rnq (t : Thread) (e : Infl) : (t.push e).rnq = t.rnq := rfl
@[simp] theorem Thread.push_mq (t : Thread) (e : Infl) : (t.push e).mq = t.mq := rfl
@[simp] theorem Thread.push_stopped (t : Thread) (e : Infl) : (t.push e).stopped = t.stopped := rfl
@[simp] theorem Thread.push_follows (t : Thread) (e : Infl) : (t.push e).follows = t.follows := rfl
@[simp] theorem Thread.push_nextId (t : Thread) (e : Infl) : (t.push e).nextId = t.nextId := rfl
@[simp] theorem Thread.push_pend31 (t : Thread) (e : Infl) : (t.push e).pend31 = t.pend31 := rfl
@[simp] theorem Thread.push_pend32 (t : Thread) (e : Infl) : (t.push e).pend32 = t.pend32 := rfl
@[simp] theorem Thread.push_pend50 (t : Thread) (e : Infl) : (t.push e).pend50 = t.pend50 := rfl
@[simp] theorem Thread.push_yielded (t : Thread) (e : Infl) : (t.push e).yielded = t.yielded := rfl
@[simp] theorem Thread.push_loadId (t : Thread) (e : Infl) : (t.push e).loadId = t.loadId := rfl
@[simp] theorem Thread.push_run (t : Thread) (e : Infl) : (t.push e).run = t.run := rfl
@[simp] theorem Thread.push_bound (t : Thread) (e : Infl) : (t.push e).bound = t.bound := rfl
@[simp] theorem Thread.push_iss (t : Thread) (e : Infl) : (t.push e).iss = { t.iss with fresh := t.iss.fresh ++ [e] } := rfl
@[simp] theorem Thread.push_fetchFault (t : Thread) (e : Infl) : (t.push e).fetchFault = t.fetchFault := rfl
@[simp] theorem Thread.push_watch (t : Thread) (e : Infl) : (t.push e).watch = t.watch := rfl
@[simp] theorem Thread.push_ports (t : Thread) (e : Infl) : (t.push e).ports = t.ports := rfl

@[simp] theorem Thread.issue_slot1 (t : Thread) (lat : Nat) (r : Res) (stat : U16) : (t.issue lat r stat).slot1 =
    t.slot1 := rfl
@[simp] theorem Thread.issue_regs (t : Thread) (lat : Nat) (r : Res) (stat : U16) : (t.issue lat r stat).regs = t.regs := rfl
@[simp] theorem Thread.issue_sp (t : Thread) (lat : Nat) (r : Res) (stat : U16) : (t.issue lat r stat).sp = t.sp := rfl
@[simp] theorem Thread.issue_trap (t : Thread) (lat : Nat) (r : Res) (stat : U16) : (t.issue lat r stat).trap = t.trap := rfl
@[simp] theorem Thread.issue_loop (t : Thread) (lat : Nat) (r : Res) (stat : U16) : (t.issue lat r stat).loop = t.loop := rfl
@[simp] theorem Thread.issue_mac (t : Thread) (lat : Nat) (r : Res) (stat : U16) : (t.issue lat r stat).mac = t.mac := rfl
@[simp] theorem Thread.issue_cx (t : Thread) (lat : Nat) (r : Res) (stat : U16) : (t.issue lat r stat).cx = t.cx := rfl
@[simp] theorem Thread.issue_pc (t : Thread) (lat : Nat) (r : Res) (stat : U16) : (t.issue lat r stat).pc = t.pc := rfl
@[simp] theorem Thread.issue_priv (t : Thread) (lat : Nat) (r : Res) (stat : U16) : (t.issue lat r stat).priv = t.priv := rfl
@[simp] theorem Thread.issue_infl (t : Thread) (lat : Nat) (r : Res) (stat : U16) : (t.issue lat r stat).infl = t.infl := rfl
@[simp] theorem Thread.issue_f0 (t : Thread) (lat : Nat) (r : Res) (stat : U16) : (t.issue lat r stat).f0 = t.f0 := rfl
@[simp] theorem Thread.issue_f1 (t : Thread) (lat : Nat) (r : Res) (stat : U16) : (t.issue lat r stat).f1 = t.f1 := rfl
@[simp] theorem Thread.issue_orphans (t : Thread) (lat : Nat) (r : Res) (stat : U16) : (t.issue lat r stat).orphans =
    t.orphans := rfl
@[simp] theorem Thread.issue_tabq (t : Thread) (lat : Nat) (r : Res) (stat : U16) : (t.issue lat r stat).tabq = t.tabq := rfl
@[simp] theorem Thread.issue_rnq (t : Thread) (lat : Nat) (r : Res) (stat : U16) : (t.issue lat r stat).rnq = t.rnq := rfl
@[simp] theorem Thread.issue_mq (t : Thread) (lat : Nat) (r : Res) (stat : U16) : (t.issue lat r stat).mq = t.mq := rfl
@[simp] theorem Thread.issue_stopped (t : Thread) (lat : Nat) (r : Res) (stat : U16) : (t.issue lat r stat).stopped =
    t.stopped := rfl
@[simp] theorem Thread.issue_follows (t : Thread) (lat : Nat) (r : Res) (stat : U16) : (t.issue lat r stat).follows =
    t.follows := rfl
@[simp] theorem Thread.issue_nextId (t : Thread) (lat : Nat) (r : Res) (stat : U16) : (t.issue lat r stat).nextId =
    t.nextId := rfl
@[simp] theorem Thread.issue_pend31 (t : Thread) (lat : Nat) (r : Res) (stat : U16) : (t.issue lat r stat).pend31 =
    t.pend31 := rfl
@[simp] theorem Thread.issue_pend32 (t : Thread) (lat : Nat) (r : Res) (stat : U16) : (t.issue lat r stat).pend32 =
    t.pend32 := rfl
@[simp] theorem Thread.issue_pend50 (t : Thread) (lat : Nat) (r : Res) (stat : U16) : (t.issue lat r stat).pend50 =
    t.pend50 := rfl
@[simp] theorem Thread.issue_yielded (t : Thread) (lat : Nat) (r : Res) (stat : U16) : (t.issue lat r stat).yielded =
    t.yielded := rfl
@[simp] theorem Thread.issue_loadId (t : Thread) (lat : Nat) (r : Res) (stat : U16) : (t.issue lat r stat).loadId =
    t.loadId := rfl
@[simp] theorem Thread.issue_run (t : Thread) (lat : Nat) (r : Res) (stat : U16) : (t.issue lat r stat).run = t.run := rfl
@[simp] theorem Thread.issue_bound (t : Thread) (lat : Nat) (r : Res) (stat : U16) : (t.issue lat r stat).bound =
    t.bound := rfl
@[simp] theorem Thread.issue_iss (t : Thread) (lat : Nat) (r : Res) (stat : U16) : (t.issue lat r stat).iss =
    { t.iss with fresh := t.iss.fresh ++ [{ rem := lat, noq := false, slot := t.iss.slot, stat := stat, res := r, load := none }] } := rfl
@[simp] theorem Thread.issue_fetchFault (t : Thread) (lat : Nat) (r : Res) (stat : U16) : (t.issue lat r stat).fetchFault =
    t.fetchFault := rfl
@[simp] theorem Thread.issue_watch (t : Thread) (lat : Nat) (r : Res) (stat : U16) : (t.issue lat r stat).watch =
    t.watch := rfl
@[simp] theorem Thread.issue_ports (t : Thread) (lat : Nat) (r : Res) (stat : U16) : (t.issue lat r stat).ports =
    t.ports := rfl

@[simp] theorem Thread.transfer_slot1 (t : Thread) (x : Pc) : (t.transfer x).slot1 = t.slot1 := rfl
@[simp] theorem Thread.transfer_regs (t : Thread) (x : Pc) : (t.transfer x).regs = t.regs.clearQ := rfl
@[simp] theorem Thread.transfer_sp (t : Thread) (x : Pc) : (t.transfer x).sp = t.sp := rfl
@[simp] theorem Thread.transfer_trap (t : Thread) (x : Pc) : (t.transfer x).trap = t.trap := rfl
@[simp] theorem Thread.transfer_loop (t : Thread) (x : Pc) : (t.transfer x).loop = t.loop := rfl
@[simp] theorem Thread.transfer_mac (t : Thread) (x : Pc) : (t.transfer x).mac = t.mac := rfl
@[simp] theorem Thread.transfer_cx (t : Thread) (x : Pc) : (t.transfer x).cx = t.cx := rfl
@[simp] theorem Thread.transfer_pc (t : Thread) (x : Pc) : (t.transfer x).pc = x := rfl
@[simp] theorem Thread.transfer_priv (t : Thread) (x : Pc) : (t.transfer x).priv = t.priv := rfl
@[simp] theorem Thread.transfer_infl (t : Thread) (x : Pc) : (t.transfer x).infl = noQueue t.infl := rfl
@[simp] theorem Thread.transfer_f0 (t : Thread) (x : Pc) : (t.transfer x).f0 = t.f0 := rfl
@[simp] theorem Thread.transfer_f1 (t : Thread) (x : Pc) : (t.transfer x).f1 = t.f1 := rfl
@[simp] theorem Thread.transfer_orphans (t : Thread) (x : Pc) : (t.transfer x).orphans = t.orphans := rfl
@[simp] theorem Thread.transfer_tabq (t : Thread) (x : Pc) : (t.transfer x).tabq = t.tabq := rfl
@[simp] theorem Thread.transfer_rnq (t : Thread) (x : Pc) : (t.transfer x).rnq = t.rnq := rfl
@[simp] theorem Thread.transfer_mq (t : Thread) (x : Pc) : (t.transfer x).mq = t.mq := rfl
@[simp] theorem Thread.transfer_stopped (t : Thread) (x : Pc) : (t.transfer x).stopped = t.stopped := rfl
@[simp] theorem Thread.transfer_follows (t : Thread) (x : Pc) : (t.transfer x).follows = t.follows := rfl
@[simp] theorem Thread.transfer_nextId (t : Thread) (x : Pc) : (t.transfer x).nextId = t.nextId := rfl
@[simp] theorem Thread.transfer_pend31 (t : Thread) (x : Pc) : (t.transfer x).pend31 = t.pend31 := rfl
@[simp] theorem Thread.transfer_pend32 (t : Thread) (x : Pc) : (t.transfer x).pend32 = t.pend32 := rfl
@[simp] theorem Thread.transfer_pend50 (t : Thread) (x : Pc) : (t.transfer x).pend50 = t.pend50 := rfl
@[simp] theorem Thread.transfer_yielded (t : Thread) (x : Pc) : (t.transfer x).yielded = t.yielded := rfl
@[simp] theorem Thread.transfer_loadId (t : Thread) (x : Pc) : (t.transfer x).loadId = t.loadId := rfl
@[simp] theorem Thread.transfer_run (t : Thread) (x : Pc) : (t.transfer x).run = t.run := rfl
@[simp] theorem Thread.transfer_bound (t : Thread) (x : Pc) : (t.transfer x).bound = t.bound := rfl
@[simp] theorem Thread.transfer_iss (t : Thread) (x : Pc) : (t.transfer x).iss =
    { t.iss with taken := true, fresh := noQueue t.iss.fresh } := rfl
@[simp] theorem Thread.transfer_fetchFault (t : Thread) (x : Pc) : (t.transfer x).fetchFault = t.fetchFault := rfl
@[simp] theorem Thread.transfer_watch (t : Thread) (x : Pc) : (t.transfer x).watch = t.watch := rfl
@[simp] theorem Thread.transfer_ports (t : Thread) (x : Pc) : (t.transfer x).ports = t.ports := rfl

@[simp] theorem Thread.atSlot_slot1 (t : Thread) (e : Enc) : (t.atSlot e).slot1 = t.slot1 := rfl
@[simp] theorem Thread.atSlot_regs (t : Thread) (e : Enc) : (t.atSlot e).regs = t.regs := rfl
@[simp] theorem Thread.atSlot_sp (t : Thread) (e : Enc) : (t.atSlot e).sp = t.sp := rfl
@[simp] theorem Thread.atSlot_trap (t : Thread) (e : Enc) : (t.atSlot e).trap = t.trap := rfl
@[simp] theorem Thread.atSlot_loop (t : Thread) (e : Enc) : (t.atSlot e).loop = t.loop := rfl
@[simp] theorem Thread.atSlot_mac (t : Thread) (e : Enc) : (t.atSlot e).mac = t.mac := rfl
@[simp] theorem Thread.atSlot_cx (t : Thread) (e : Enc) : (t.atSlot e).cx = t.cx := rfl
@[simp] theorem Thread.atSlot_pc (t : Thread) (e : Enc) : (t.atSlot e).pc = t.pc := rfl
@[simp] theorem Thread.atSlot_priv (t : Thread) (e : Enc) : (t.atSlot e).priv = t.priv := rfl
@[simp] theorem Thread.atSlot_infl (t : Thread) (e : Enc) : (t.atSlot e).infl = t.infl := rfl
@[simp] theorem Thread.atSlot_f0 (t : Thread) (e : Enc) : (t.atSlot e).f0 = t.f0 := rfl
@[simp] theorem Thread.atSlot_f1 (t : Thread) (e : Enc) : (t.atSlot e).f1 = t.f1 := rfl
@[simp] theorem Thread.atSlot_orphans (t : Thread) (e : Enc) : (t.atSlot e).orphans = t.orphans := rfl
@[simp] theorem Thread.atSlot_tabq (t : Thread) (e : Enc) : (t.atSlot e).tabq = t.tabq := rfl
@[simp] theorem Thread.atSlot_rnq (t : Thread) (e : Enc) : (t.atSlot e).rnq = t.rnq := rfl
@[simp] theorem Thread.atSlot_mq (t : Thread) (e : Enc) : (t.atSlot e).mq = t.mq := rfl
@[simp] theorem Thread.atSlot_stopped (t : Thread) (e : Enc) : (t.atSlot e).stopped = t.stopped := rfl
@[simp] theorem Thread.atSlot_follows (t : Thread) (e : Enc) : (t.atSlot e).follows = t.follows := rfl
@[simp] theorem Thread.atSlot_nextId (t : Thread) (e : Enc) : (t.atSlot e).nextId = t.nextId := rfl
@[simp] theorem Thread.atSlot_pend31 (t : Thread) (e : Enc) : (t.atSlot e).pend31 = t.pend31 := rfl
@[simp] theorem Thread.atSlot_pend32 (t : Thread) (e : Enc) : (t.atSlot e).pend32 = t.pend32 := rfl
@[simp] theorem Thread.atSlot_pend50 (t : Thread) (e : Enc) : (t.atSlot e).pend50 = t.pend50 := rfl
@[simp] theorem Thread.atSlot_yielded (t : Thread) (e : Enc) : (t.atSlot e).yielded = t.yielded := rfl
@[simp] theorem Thread.atSlot_loadId (t : Thread) (e : Enc) : (t.atSlot e).loadId = t.loadId := rfl
@[simp] theorem Thread.atSlot_run (t : Thread) (e : Enc) : (t.atSlot e).run = t.run := rfl
@[simp] theorem Thread.atSlot_bound (t : Thread) (e : Enc) : (t.atSlot e).bound = t.bound := rfl
@[simp] theorem Thread.atSlot_iss (t : Thread) (e : Enc) : (t.atSlot e).iss =
    { t.iss with slot := e.slot, word := e.word, res := .issued } := rfl
@[simp] theorem Thread.atSlot_fetchFault (t : Thread) (e : Enc) : (t.atSlot e).fetchFault = t.fetchFault := rfl
@[simp] theorem Thread.atSlot_watch (t : Thread) (e : Enc) : (t.atSlot e).watch = t.watch := rfl
@[simp] theorem Thread.atSlot_ports (t : Thread) (e : Enc) : (t.atSlot e).ports = t.ports := rfl

@[simp] theorem Thread.begin_slot1 (t : Thread) (k : U2) (w : U32) (m : Bool) : (t.begin k w m).slot1 = t.slot1 := rfl
@[simp] theorem Thread.begin_regs (t : Thread) (k : U2) (w : U32) (m : Bool) : (t.begin k w m).regs = t.regs := rfl
@[simp] theorem Thread.begin_sp (t : Thread) (k : U2) (w : U32) (m : Bool) : (t.begin k w m).sp = t.sp := rfl
@[simp] theorem Thread.begin_trap (t : Thread) (k : U2) (w : U32) (m : Bool) : (t.begin k w m).trap = t.trap := rfl
@[simp] theorem Thread.begin_loop (t : Thread) (k : U2) (w : U32) (m : Bool) : (t.begin k w m).loop = t.loop := rfl
@[simp] theorem Thread.begin_mac (t : Thread) (k : U2) (w : U32) (m : Bool) : (t.begin k w m).mac = t.mac := rfl
@[simp] theorem Thread.begin_cx (t : Thread) (k : U2) (w : U32) (m : Bool) : (t.begin k w m).cx = t.cx := rfl
@[simp] theorem Thread.begin_pc (t : Thread) (k : U2) (w : U32) (m : Bool) : (t.begin k w m).pc = t.pc := rfl
@[simp] theorem Thread.begin_priv (t : Thread) (k : U2) (w : U32) (m : Bool) : (t.begin k w m).priv = t.priv := rfl
@[simp] theorem Thread.begin_infl (t : Thread) (k : U2) (w : U32) (m : Bool) : (t.begin k w m).infl = t.infl := rfl
@[simp] theorem Thread.begin_f0 (t : Thread) (k : U2) (w : U32) (m : Bool) : (t.begin k w m).f0 = t.f0 := rfl
@[simp] theorem Thread.begin_f1 (t : Thread) (k : U2) (w : U32) (m : Bool) : (t.begin k w m).f1 = t.f1 := rfl
@[simp] theorem Thread.begin_orphans (t : Thread) (k : U2) (w : U32) (m : Bool) : (t.begin k w m).orphans = t.orphans := rfl
@[simp] theorem Thread.begin_tabq (t : Thread) (k : U2) (w : U32) (m : Bool) : (t.begin k w m).tabq = t.tabq := rfl
@[simp] theorem Thread.begin_rnq (t : Thread) (k : U2) (w : U32) (m : Bool) : (t.begin k w m).rnq = t.rnq := rfl
@[simp] theorem Thread.begin_mq (t : Thread) (k : U2) (w : U32) (m : Bool) : (t.begin k w m).mq = t.mq := rfl
@[simp] theorem Thread.begin_stopped (t : Thread) (k : U2) (w : U32) (m : Bool) : (t.begin k w m).stopped =
    t.stopped := rfl
@[simp] theorem Thread.begin_follows (t : Thread) (k : U2) (w : U32) (m : Bool) : (t.begin k w m).follows = t.follows := rfl
@[simp] theorem Thread.begin_nextId (t : Thread) (k : U2) (w : U32) (m : Bool) : (t.begin k w m).nextId = t.nextId := rfl
@[simp] theorem Thread.begin_pend31 (t : Thread) (k : U2) (w : U32) (m : Bool) : (t.begin k w m).pend31 = t.pend31 := rfl
@[simp] theorem Thread.begin_pend32 (t : Thread) (k : U2) (w : U32) (m : Bool) : (t.begin k w m).pend32 = t.pend32 := rfl
@[simp] theorem Thread.begin_pend50 (t : Thread) (k : U2) (w : U32) (m : Bool) : (t.begin k w m).pend50 = t.pend50 := rfl
@[simp] theorem Thread.begin_yielded (t : Thread) (k : U2) (w : U32) (m : Bool) : (t.begin k w m).yielded = t.yielded := rfl
@[simp] theorem Thread.begin_loadId (t : Thread) (k : U2) (w : U32) (m : Bool) : (t.begin k w m).loadId = t.loadId := rfl
@[simp] theorem Thread.begin_run (t : Thread) (k : U2) (w : U32) (m : Bool) : (t.begin k w m).run = t.run := rfl
@[simp] theorem Thread.begin_bound (t : Thread) (k : U2) (w : U32) (m : Bool) : (t.begin k w m).bound = t.bound := rfl
@[simp] theorem Thread.begin_fetchFault (t : Thread) (k : U2) (w : U32) (m : Bool) : (t.begin k w m).fetchFault =
    t.fetchFault := rfl
@[simp] theorem Thread.begin_watch (t : Thread) (k : U2) (w : U32) (m : Bool) : (t.begin k w m).watch = t.watch := rfl
@[simp] theorem Thread.begin_ports (t : Thread) (k : U2) (w : U32) (m : Bool) : (t.begin k w m).ports = t.ports := rfl

@[simp] theorem Thread.setStat_slot1 (t : Thread) (f : U16) : (t.setStat f).slot1 = t.slot1 := rfl
@[simp] theorem Thread.setStat_regs (t : Thread) (f : U16) : (t.setStat f).regs = t.regs := rfl
@[simp] theorem Thread.setStat_sp (t : Thread) (f : U16) : (t.setStat f).sp =
    { t.sp with stat := t.sp.stat ||| f.zeroExtend 64 } := rfl
@[simp] theorem Thread.setStat_trap (t : Thread) (f : U16) : (t.setStat f).trap = t.trap := rfl
@[simp] theorem Thread.setStat_loop (t : Thread) (f : U16) : (t.setStat f).loop = t.loop := rfl
@[simp] theorem Thread.setStat_mac (t : Thread) (f : U16) : (t.setStat f).mac = t.mac := rfl
@[simp] theorem Thread.setStat_cx (t : Thread) (f : U16) : (t.setStat f).cx = t.cx := rfl
@[simp] theorem Thread.setStat_pc (t : Thread) (f : U16) : (t.setStat f).pc = t.pc := rfl
@[simp] theorem Thread.setStat_priv (t : Thread) (f : U16) : (t.setStat f).priv = t.priv := rfl
@[simp] theorem Thread.setStat_infl (t : Thread) (f : U16) : (t.setStat f).infl = t.infl := rfl
@[simp] theorem Thread.setStat_f0 (t : Thread) (f : U16) : (t.setStat f).f0 = t.f0 := rfl
@[simp] theorem Thread.setStat_f1 (t : Thread) (f : U16) : (t.setStat f).f1 = t.f1 := rfl
@[simp] theorem Thread.setStat_orphans (t : Thread) (f : U16) : (t.setStat f).orphans = t.orphans := rfl
@[simp] theorem Thread.setStat_tabq (t : Thread) (f : U16) : (t.setStat f).tabq = t.tabq := rfl
@[simp] theorem Thread.setStat_rnq (t : Thread) (f : U16) : (t.setStat f).rnq = t.rnq := rfl
@[simp] theorem Thread.setStat_mq (t : Thread) (f : U16) : (t.setStat f).mq = t.mq := rfl
@[simp] theorem Thread.setStat_stopped (t : Thread) (f : U16) : (t.setStat f).stopped = t.stopped := rfl
@[simp] theorem Thread.setStat_follows (t : Thread) (f : U16) : (t.setStat f).follows = t.follows := rfl
@[simp] theorem Thread.setStat_nextId (t : Thread) (f : U16) : (t.setStat f).nextId = t.nextId := rfl
@[simp] theorem Thread.setStat_pend31 (t : Thread) (f : U16) : (t.setStat f).pend31 = t.pend31 := rfl
@[simp] theorem Thread.setStat_pend32 (t : Thread) (f : U16) : (t.setStat f).pend32 = t.pend32 := rfl
@[simp] theorem Thread.setStat_pend50 (t : Thread) (f : U16) : (t.setStat f).pend50 = t.pend50 := rfl
@[simp] theorem Thread.setStat_yielded (t : Thread) (f : U16) : (t.setStat f).yielded = t.yielded := rfl
@[simp] theorem Thread.setStat_loadId (t : Thread) (f : U16) : (t.setStat f).loadId = t.loadId := rfl
@[simp] theorem Thread.setStat_run (t : Thread) (f : U16) : (t.setStat f).run = t.run := rfl
@[simp] theorem Thread.setStat_bound (t : Thread) (f : U16) : (t.setStat f).bound = t.bound := rfl
@[simp] theorem Thread.setStat_iss (t : Thread) (f : U16) : (t.setStat f).iss =
    { t.iss with landed := t.iss.landed ||| f.zeroExtend 64 } := rfl
@[simp] theorem Thread.setStat_fetchFault (t : Thread) (f : U16) : (t.setStat f).fetchFault = t.fetchFault := rfl
@[simp] theorem Thread.setStat_watch (t : Thread) (f : U16) : (t.setStat f).watch = t.watch := rfl
@[simp] theorem Thread.setStat_ports (t : Thread) (f : U16) : (t.setStat f).ports = t.ports := rfl

@[simp] theorem Thread.count_slot1 (t : Thread) (n : Nat) : (t.count n).slot1 = t.slot1 := rfl
@[simp] theorem Thread.count_regs (t : Thread) (n : Nat) : (t.count n).regs = t.regs := rfl
@[simp] theorem Thread.count_trap (t : Thread) (n : Nat) : (t.count n).trap = t.trap := rfl
@[simp] theorem Thread.count_loop (t : Thread) (n : Nat) : (t.count n).loop = t.loop := rfl
@[simp] theorem Thread.count_mac (t : Thread) (n : Nat) : (t.count n).mac = t.mac := rfl
@[simp] theorem Thread.count_cx (t : Thread) (n : Nat) : (t.count n).cx = t.cx := rfl
@[simp] theorem Thread.count_pc (t : Thread) (n : Nat) : (t.count n).pc = t.pc := rfl
@[simp] theorem Thread.count_priv (t : Thread) (n : Nat) : (t.count n).priv = t.priv := rfl
@[simp] theorem Thread.count_infl (t : Thread) (n : Nat) : (t.count n).infl = t.infl := rfl
@[simp] theorem Thread.count_f0 (t : Thread) (n : Nat) : (t.count n).f0 = t.f0 := rfl
@[simp] theorem Thread.count_f1 (t : Thread) (n : Nat) : (t.count n).f1 = t.f1 := rfl
@[simp] theorem Thread.count_orphans (t : Thread) (n : Nat) : (t.count n).orphans = t.orphans := rfl
@[simp] theorem Thread.count_tabq (t : Thread) (n : Nat) : (t.count n).tabq = t.tabq := rfl
@[simp] theorem Thread.count_rnq (t : Thread) (n : Nat) : (t.count n).rnq = t.rnq := rfl
@[simp] theorem Thread.count_mq (t : Thread) (n : Nat) : (t.count n).mq = t.mq := rfl
@[simp] theorem Thread.count_stopped (t : Thread) (n : Nat) : (t.count n).stopped = t.stopped := rfl
@[simp] theorem Thread.count_follows (t : Thread) (n : Nat) : (t.count n).follows = t.follows := rfl
@[simp] theorem Thread.count_nextId (t : Thread) (n : Nat) : (t.count n).nextId = t.nextId := rfl
@[simp] theorem Thread.count_pend31 (t : Thread) (n : Nat) : (t.count n).pend31 = t.pend31 := rfl
@[simp] theorem Thread.count_pend32 (t : Thread) (n : Nat) : (t.count n).pend32 = t.pend32 := rfl
@[simp] theorem Thread.count_pend50 (t : Thread) (n : Nat) : (t.count n).pend50 = t.pend50 := rfl
@[simp] theorem Thread.count_yielded (t : Thread) (n : Nat) : (t.count n).yielded = t.yielded := rfl
@[simp] theorem Thread.count_loadId (t : Thread) (n : Nat) : (t.count n).loadId = t.loadId := rfl
@[simp] theorem Thread.count_run (t : Thread) (n : Nat) : (t.count n).run = t.run := rfl
@[simp] theorem Thread.count_bound (t : Thread) (n : Nat) : (t.count n).bound = t.bound := rfl
@[simp] theorem Thread.count_iss (t : Thread) (n : Nat) : (t.count n).iss = t.iss := rfl
@[simp] theorem Thread.count_fetchFault (t : Thread) (n : Nat) : (t.count n).fetchFault = t.fetchFault := rfl
@[simp] theorem Thread.count_watch (t : Thread) (n : Nat) : (t.count n).watch = t.watch := rfl
@[simp] theorem Thread.count_ports (t : Thread) (n : Nat) : (t.count n).ports = t.ports := rfl

end Sys2Proof.Machine
end

