-- ==== Sys2Proof/Laws/Ops.lean ====
section
/-! SUPPORT. What the shared operations can do: a result that lands changes the slot and nothing else, a trap changes the slot
alone, and what the checks of an instruction decide. -/
namespace Sys2Proof.Machine

/-- A result that lands leaves the memories alone where it is no write of a special register; of the device it changes which words
of the slot's registers fail. -/
theorem State.landEntry_mems (s : State) (e : Infl) (h : ∀ n x v w, e.res ≠ .spr n x v w) :
    (s.landEntry e).mems = s.mems ∧ (s.landEntry e).dev = s.dev.resLanded (slotNo s.core.phys s.me.slot1) e.noq e.res ∧
      (s.landEntry e).core = s.core ∧ (s.landEntry e).me.regs = s.me.regs.land e.noq e.res := by
  unfold State.landEntry
  split
  · rename_i hr
    exact absurd hr (h _ _ _ _)
  · dsimp only
    split <;> exact ⟨rfl, rfl, rfl, rfl⟩

/-- With no failing word in the device none appears as a result lands. -/
theorem Dev.resLanded_sound (d : Dev) (slot : Nat) (noq : Bool) (r : Res) (h : d.bad = []) : d.resLanded slot noq r = d := by
  simp [Dev.resLanded, h]

/-- With no word that can be corrected an access of a scratchpad corrects nothing. -/
theorem State.correct_spl (s : State) (a n : Nat) (h : s.dev.weak = []) : s.correct .spl a n = s := by
  simp [State.correct, h]

/-- What a trap leaves of a slot: a frame is taken and the handler begins, or the slot stops. -/
theorem Thread.takeTrap_cases (t : Thread) (ev : TrapEvent) :
    ((t.f0 = none ∨ (t.f1 = none ∧ t.trapsToS ev.code = true)) ∧
      (t.takeTrap ev).pc = pcOf (if t.trapsToS ev.code then t.trap.svec else t.trap.uvec) ∧ (t.takeTrap ev).infl = [] ∧
      (t.takeTrap ev).regs = t.regs.clearQ) ∨
    (t.takeTrap ev).run = .faulting ev.code ev.info ev.faulting ∧ (t.takeTrap ev).regs = t.regs ∧ (t.takeTrap ev).pc = t.pc := by
  unfold Thread.takeTrap
  dsimp only
  split
  · rename_i h
    refine .inl ⟨?_, rfl, rfl, rfl⟩
    simp only [Bool.or_eq_true, Bool.and_eq_true] at h
    rcases h with h | ⟨⟨-, h⟩, k⟩
    · exact .inl (by simpa using h)
    · exact .inr ⟨by simpa using h, k⟩
  · exact .inr ⟨rfl, rfl, rfl⟩

/-- An instruction whose checks pass has its effect. -/
@[simp] theorem State.settle_ok {α : Type} (s : State) (x : α) (f : α → State) : s.settle (.ok x) f = f x := rfl

@[simp] theorem State.settle_trap {α : Type} (s : State) (c : Byte) (i : U64) (f : α → State) :
    s.settle (.error (.trap c i)) f = s.trap c i := rfl

@[simp] theorem State.settle_hold {α : Type} (s : State) (f : α → State) : s.settle (.error .hold) f = s.hold := rfl

theorem State.supervisor_user (s f : State) (h : s.me.priv = false) : s.supervisor f = s.trapWord 0x03 := by
  simp [State.supervisor, h]

theorem State.supervisor_priv (s f : State) (h : s.me.priv = true) : s.supervisor f = f := by simp [State.supervisor, h]

/-- The constant registers (R29). -/
@[simp] theorem Regs.readG_zero (r : Regs) : r.readG 0 = 0 := rfl
@[simp] theorem Regs.readP_zero (r : Regs) : r.readP 0 = true := rfl
@[simp] theorem Regs.readK_zero (r : Regs) : r.readK 0 = BitVec.allOnes 64 := rfl

theorem Regs.readG_writeG (r : Regs) (i j : U5) (x : U64) :
    (r.writeG i x).readG j = if j = i ∧ i ≠ 0 then x else r.readG j := by
  by_cases hi : i = 0
  · have h : ¬(j = i ∧ i ≠ 0) := fun h => h.2 hi
    rw [if_neg h, Regs.writeG, if_pos hi]
  · have hw : r.writeG i x = { r with g := r.g.set i.toNat x i.isLt } := if_neg hi
    rw [hw]
    by_cases hj : j = i
    · subst hj
      rw [if_pos ⟨rfl, hi⟩, Regs.readG, if_neg hi]
      exact Vector.getElem_set_self ..
    · have h : i.toNat ≠ j.toNat := fun h => hj (BitVec.eq_of_toNat_eq h.symm)
      have h' : ¬(j = i ∧ i ≠ 0) := fun h => hj h.1
      rw [if_neg h', Regs.readG, Regs.readG]
      split
      · rfl
      · exact Vector.getElem_set_ne i.isLt j.isLt h

end Sys2Proof.Machine
end

