-- ==== Sys2Proof/Laws/PerInstr.lean ====
section
/-! SUPPORT. The family of laws that holds of every instruction as syntax: an encoding that stands in a bundle without a
header takes no extension byte (R103: without a header all three extension bytes are zero). -/
namespace Sys2Proof.Laws.Encoding

/-- Where the instruction's encoding stands in a bundle without a header, its extension byte is zero. -/
def Statement (i : Instr) : Prop := ((encode i).all fun e => e.hdr || e.ext == 0) = true

theorem encSI_ext (imm : Imm) (op d a : U6) (p : U3) :
    ((encSI imm op d a p).hdr || (encSI imm op d a p).ext == 0) = true := by cases imm <;> rfl

theorem encSM_ext (disp : Disp) (op d a : U6) (sz p : U3) :
    ((encSM disp op d a sz p).hdr || (encSM disp op d a sz p).ext == 0) = true := by cases disp <;> rfl

theorem encSH_ext (imm : Imm9) (r : U3) (f : U5) (a : U6) (p : U3) :
    ((encSH imm r f a p).hdr || (encSH imm r f a p).ext == 0) = true := by cases imm <;> rfl

theorem encCF_ext (imm : Imm9) (op : U6) (fn t : U4) (a : U6) (p : U3) :
    ((encCF imm op fn t a p).hdr || (encCF imm op fn t a p).ext == 0) = true := by cases imm <;> rfl

theorem add (d : Dst) (a : Src) (b : Src) (p : U3) : Statement (.add d a b p) := rfl
theorem sub (d : Dst) (a : Src) (b : Src) (p : U3) : Statement (.sub d a b p) := rfl
theorem and (d : Dst) (a : Src) (b : Src) (p : U3) : Statement (.and d a b p) := rfl
theorem or (d : Dst) (a : Src) (b : Src) (p : U3) : Statement (.or d a b p) := rfl
theorem xor (d : Dst) (a : Src) (b : Src) (p : U3) : Statement (.xor d a b p) := rfl
theorem andn (d : Dst) (a : Src) (b : Src) (p : U3) : Statement (.andn d a b p) := rfl
theorem sll (d : Dst) (a : Src) (b : Src) (p : U3) : Statement (.sll d a b p) := rfl
theorem srl (d : Dst) (a : Src) (b : Src) (p : U3) : Statement (.srl d a b p) := rfl
theorem sra (d : Dst) (a : Src) (b : Src) (p : U3) : Statement (.sra d a b p) := rfl
theorem ror (d : Dst) (a : Src) (b : Src) (p : U3) : Statement (.ror d a b p) := rfl
theorem min (d : Dst) (a : Src) (b : Src) (p : U3) : Statement (.min d a b p) := rfl
theorem max (d : Dst) (a : Src) (b : Src) (p : U3) : Statement (.max d a b p) := rfl
theorem minu (d : Dst) (a : Src) (b : Src) (p : U3) : Statement (.minu d a b p) := rfl
theorem maxu (d : Dst) (a : Src) (b : Src) (p : U3) : Statement (.maxu d a b p) := rfl
theorem slt (d : Dst) (a : Src) (b : Src) (p : U3) : Statement (.slt d a b p) := rfl
theorem sltu (d : Dst) (a : Src) (b : Src) (p : U3) : Statement (.sltu d a b p) := rfl
theorem addw (d : Dst) (a : Src) (b : Src) (p : U3) : Statement (.addw d a b p) := rfl
theorem subw (d : Dst) (a : Src) (b : Src) (p : U3) : Statement (.subw d a b p) := rfl
theorem sllw (d : Dst) (a : Src) (b : Src) (p : U3) : Statement (.sllw d a b p) := rfl
theorem srlw (d : Dst) (a : Src) (b : Src) (p : U3) : Statement (.srlw d a b p) := rfl
theorem sraw (d : Dst) (a : Src) (b : Src) (p : U3) : Statement (.sraw d a b p) := rfl
theorem mul (d : Dst) (a : Src) (b : Src) (p : U3) : Statement (.mul d a b p) := rfl
theorem mulh (d : Dst) (a : Src) (b : Src) (p : U3) : Statement (.mulh d a b p) := rfl
theorem mulhu (d : Dst) (a : Src) (b : Src) (p : U3) : Statement (.mulhu d a b p) := rfl
theorem mulhsu (d : Dst) (a : Src) (b : Src) (p : U3) : Statement (.mulhsu d a b p) := rfl
theorem mulw (d : Dst) (a : Src) (b : Src) (p : U3) : Statement (.mulw d a b p) := rfl
theorem addsat (d : Dst) (a : Src) (b : Src) (p : U3) : Statement (.addsat d a b p) := rfl
theorem subsat (d : Dst) (a : Src) (b : Src) (p : U3) : Statement (.subsat d a b p) := rfl
theorem addsatw (d : Dst) (a : Src) (b : Src) (p : U3) : Statement (.addsatw d a b p) := rfl
theorem subsatw (d : Dst) (a : Src) (b : Src) (p : U3) : Statement (.subsatw d a b p) := rfl
theorem addsatu (d : Dst) (a : Src) (b : Src) (p : U3) : Statement (.addsatu d a b p) := rfl
theorem subsatu (d : Dst) (a : Src) (b : Src) (p : U3) : Statement (.subsatu d a b p) := rfl
theorem mulsatw (d : Dst) (a : Src) (b : Src) (p : U3) : Statement (.mulsatw d a b p) := rfl
theorem div (d : Dst) (a : Src) (b : Src) (p : U3) : Statement (.div d a b p) := rfl
theorem divu (d : Dst) (a : Src) (b : Src) (p : U3) : Statement (.divu d a b p) := rfl
theorem rem (d : Dst) (a : Src) (b : Src) (p : U3) : Statement (.rem d a b p) := rfl
theorem remu (d : Dst) (a : Src) (b : Src) (p : U3) : Statement (.remu d a b p) := rfl
theorem addi (d : Dst) (a : Src) (imm : Imm) (p : U3) : Statement (.addi d a imm p) := encSI_ext ..
theorem andi (d : Dst) (a : Src) (imm : Imm) (p : U3) : Statement (.andi d a imm p) := encSI_ext ..
theorem ori (d : Dst) (a : Src) (imm : Imm) (p : U3) : Statement (.ori d a imm p) := encSI_ext ..
theorem xori (d : Dst) (a : Src) (imm : Imm) (p : U3) : Statement (.xori d a imm p) := encSI_ext ..
theorem slli (d : Dst) (a : Src) (sh : U6) (p : U3) : Statement (.slli d a sh p) := rfl
theorem srli (d : Dst) (a : Src) (sh : U6) (p : U3) : Statement (.srli d a sh p) := rfl
theorem srai (d : Dst) (a : Src) (sh : U6) (p : U3) : Statement (.srai d a sh p) := rfl
theorem rori (d : Dst) (a : Src) (sh : U6) (p : U3) : Statement (.rori d a sh p) := rfl
theorem slliw (d : Dst) (a : Src) (sh : U5) (p : U3) : Statement (.slliw d a sh p) := rfl
theorem srliw (d : Dst) (a : Src) (sh : U5) (p : U3) : Statement (.srliw d a sh p) := rfl
theorem sraiw (d : Dst) (a : Src) (sh : U5) (p : U3) : Statement (.sraiw d a sh p) := rfl
theorem roriw (d : Dst) (a : Src) (sh : U5) (p : U3) : Statement (.roriw d a sh p) := rfl
theorem ldi (d : Dst) (imm : Imm) (p : U3) : Statement (.ldi d imm p) := encSI_ext ..
theorem ldis (d : Dst) (a : Src) (imm : Imm) (p : U3) : Statement (.ldis d a imm p) := encSI_ext ..
theorem cmp (pd : U3) (cond : U3) (cmb : U2) (a : Src) (b : Src) (p : U3) : Statement (.cmp pd cond cmb a b p) := rfl
theorem cmpi (pd : U3) (cond : U3) (a : Src) (imm : Imm) (p : U3) : Statement (.cmpi pd cond a imm p) := encSI_ext ..
theorem pand (pd : U3) (pa : U3) (pb : U3) (p : U3) : Statement (.pand pd pa pb p) := rfl
theorem por (pd : U3) (pa : U3) (pb : U3) (p : U3) : Statement (.por pd pa pb p) := rfl
theorem pxor (pd : U3) (pa : U3) (pb : U3) (p : U3) : Statement (.pxor pd pa pb p) := rfl
theorem pandn (pd : U3) (pa : U3) (pb : U3) (p : U3) : Statement (.pandn pd pa pb p) := rfl
theorem kfromg (kd : U3) (a : Src) (p : U3) : Statement (.kfromg kd a p) := rfl
theorem gfromk (d : Dst) (ka : U3) (p : U3) : Statement (.gfromk d ka p) := rfl
theorem pfromg (pd : U3) (a : Src) (p : U3) : Statement (.pfromg pd a p) := rfl
theorem gfromp (d : Dst) (pa : U3) (p : U3) : Statement (.gfromp d pa p) := rfl
theorem sel (d : Dst) (a : Src) (b : Src) (ps : U3) (p : U3) : Statement (.sel d a b ps p) := rfl
theorem seln (d : Dst) (a : Src) (b : Src) (ps : U3) (p : U3) : Statement (.seln d a b ps p) := rfl
theorem bext (d : Dst) (a : Src) (b : Src) (p : U3) : Statement (.bext d a b p) := rfl
theorem bextu (d : Dst) (a : Src) (b : Src) (p : U3) : Statement (.bextu d a b p) := rfl
theorem bins (d : U5) (a : Src) (b : Src) (p : U3) : Statement (.bins d a b p) := rfl
theorem clz (d : Dst) (a : Src) (p : U3) : Statement (.clz d a p) := rfl
theorem ctz (d : Dst) (a : Src) (p : U3) : Statement (.ctz d a p) := rfl
theorem popc (d : Dst) (a : Src) (p : U3) : Statement (.popc d a p) := rfl
theorem bswap (d : Dst) (a : Src) (p : U3) : Statement (.bswap d a p) := rfl
theorem brev (d : Dst) (a : Src) (p : U3) : Statement (.brev d a p) := rfl
theorem adds (d : Dst) (a : Src) (b : Src) (sh : U4) (p : U3) : Statement (.adds d a b sh p) := rfl
theorem setdev (d : Dst) (a : Src) (b : Src) (p : U3) : Statement (.setdev d a b p) := rfl
theorem setcore (d : Dst) (a : Src) (b : Src) (p : U3) : Statement (.setcore d a b p) := rfl
theorem ldSplSm (d : Dst) (a : Src) (disp : Disp) (sz : U3) (p : U3) : Statement (.ldSplSm d a disp sz p) := encSM_ext ..
theorem stSplSm (x : Src) (a : Src) (disp : Disp) (sz : U3) (p : U3) : Statement (.stSplSm x a disp sz p) := encSM_ext ..
theorem mfsr (d : U6) (spr : U11) (x : U6) (e : Byte) (p : U3) : Statement (.mfsr d spr x e p) := rfl
theorem mtsr (v : Src) (spr : U11) (x : U6) (e : Byte) (p : U3) : Statement (.mtsr v spr x e p) := rfl
theorem shwMs (reg : U2) (fld : U5) (a : Src) (imm : Imm9) (p : U3) : Statement (.shwMs reg fld a imm p) := encSH_ext ..
theorem shwXs (reg : U2) (fld : U5) (a : Src) (imm : Imm9) (p : U3) : Statement (.shwXs reg fld a imm p) := encSH_ext ..
theorem br (p : U3) (off : BitVec 19) : Statement (.br p off) := rfl
theorem brn (p : U3) (off : BitVec 19) : Statement (.brn p off) := rfl
theorem call (p : U3) (off : BitVec 19) : Statement (.call p off) := rfl
theorem jr (a : Src) (p : U3) : Statement (.jr a p) := rfl
theorem callr (d : Dst) (a : Src) (p : U3) : Statement (.callr d a p) := rfl
theorem ret (p : U3) : Statement (.ret p) := rfl
theorem lclr (n : U3) (p : U3) : Statement (.lclr n p) := rfl
theorem loop (lid : U3) (a : Src) (last : BitVec 17) : Statement (.loop lid a last) := rfl
theorem yield (p : U3) : Statement (.yield p) := rfl
theorem trap (a : Src) (p : U3) : Statement (.trap a p) := rfl
theorem brk (p : U3) : Statement (.brk p) := rfl
theorem halt (p : U3) : Statement (.halt p) := rfl
theorem uret (p : U3) : Statement (.uret p) := rfl
theorem sret (p : U3) : Statement (.sret p) := rfl
theorem rbsave (a : Src) (p : U3) : Statement (.rbsave a p) := rfl
theorem rbload (a : Src) (p : U3) : Statement (.rbload a p) := rfl
theorem rbdrop (p : U3) : Statement (.rbdrop p) := rfl
theorem tlbinv (a : Src) (p : U3) : Statement (.tlbinv a p) := rfl
theorem tlbinvctx (a : Src) (p : U3) : Statement (.tlbinvctx a p) := rfl
theorem tlbinvall (p : U3) : Statement (.tlbinvall p) := rfl
theorem tlbsync (p : U3) : Statement (.tlbsync p) := rfl
theorem cbldBf16 (t : U4) (a : Src) (imm : Imm9) (p : U3) : Statement (.cbldBf16 t a imm p) := encCF_ext ..
theorem cbldE4m3 (t : U4) (a : Src) (imm : Imm9) (p : U3) : Statement (.cbldE4m3 t a imm p) := encCF_ext ..
theorem scld (a : Src) (imm : Imm9) (p : U3) : Statement (.scld a imm p) := encCF_ext ..
theorem mmset (a : Src) (imm : Imm9) (p : U3) : Statement (.mmset a imm p) := encCF_ext ..
theorem mmcov (a : Src) (imm : Imm9) (p : U3) : Statement (.mmcov a imm p) := encCF_ext ..
theorem mmclamp (a : Src) (imm : Imm9) (p : U3) : Statement (.mmclamp a imm p) := encCF_ext ..
theorem vadd (d : Dst) (a : VSrc) (b : VSrc) (t : U3) (k : U3) (rm : U3) : Statement (.vadd d a b t k rm) := rfl
theorem vsub (d : Dst) (a : VSrc) (b : VSrc) (t : U3) (k : U3) (rm : U3) : Statement (.vsub d a b t k rm) := rfl
theorem vmin (d : Dst) (a : VSrc) (b : VSrc) (t : U3) (k : U3) (rm : U3) : Statement (.vmin d a b t k rm) := rfl
theorem vmax (d : Dst) (a : VSrc) (b : VSrc) (t : U3) (k : U3) (rm : U3) : Statement (.vmax d a b t k rm) := rfl
theorem vmul (d : Dst) (a : VSrc) (b : VSrc) (t : U3) (k : U3) (rm : U3) : Statement (.vmul d a b t k rm) := rfl
theorem vdiv (d : Dst) (a : VSrc) (b : VSrc) (t : U3) (k : U3) (rm : U3) : Statement (.vdiv d a b t k rm) := rfl
theorem vabs (d : Dst) (a : VSrc) (t : U3) (k : U3) (rm : U3) : Statement (.vabs d a t k rm) := rfl
theorem vneg (d : Dst) (a : VSrc) (t : U3) (k : U3) (rm : U3) : Statement (.vneg d a t k rm) := rfl
theorem vsqrt (d : Dst) (a : VSrc) (t : U3) (k : U3) (rm : U3) : Statement (.vsqrt d a t k rm) := rfl
theorem vrcp (d : Dst) (a : VSrc) (t : U3) (k : U3) (rm : U3) : Statement (.vrcp d a t k rm) := rfl
theorem vfrac (d : Dst) (a : VSrc) (t : U3) (k : U3) (rm : U3) : Statement (.vfrac d a t k rm) := rfl
theorem vclass (d : Dst) (a : VSrc) (t : U3) (k : U3) (rm : U3) : Statement (.vclass d a t k rm) := rfl
theorem vfma (d : Dst) (a : VSrc) (b : VSrc) (c : VSrc) (t : U2) (k : U3) (rm : U3) : Statement (.vfma d a b c t k rm) := rfl
theorem vfms (d : Dst) (a : VSrc) (b : VSrc) (c : VSrc) (t : U2) (k : U3) (rm : U3) : Statement (.vfms d a b c t k rm) := rfl
theorem vfnma (d : Dst) (a : VSrc) (b : VSrc) (c : VSrc) (t : U2) (k : U3) (rm : U3) : Statement (.vfnma d a b c t k rm) := rfl
theorem vfnms (d : Dst) (a : VSrc) (b : VSrc) (c : VSrc) (t : U2) (k : U3) (rm : U3) : Statement (.vfnms d a b c t k rm) := rfl
theorem viadd (d : Dst) (a : VSrc) (b : VSrc) (t : U3) (k : U3) : Statement (.viadd d a b t k) := rfl
theorem visub (d : Dst) (a : VSrc) (b : VSrc) (t : U3) (k : U3) : Statement (.visub d a b t k) := rfl
theorem viadds (d : Dst) (a : VSrc) (b : VSrc) (t : U3) (k : U3) : Statement (.viadds d a b t k) := rfl
theorem visubs (d : Dst) (a : VSrc) (b : VSrc) (t : U3) (k : U3) : Statement (.visubs d a b t k) := rfl
theorem vimul (d : Dst) (a : VSrc) (b : VSrc) (t : U3) (k : U3) (sat : Bool) : Statement (.vimul d a b t k sat) := rfl
theorem vimulh (d : Dst) (a : VSrc) (b : VSrc) (t : U3) (k : U3) : Statement (.vimulh d a b t k) := rfl
theorem vimin (d : Dst) (a : VSrc) (b : VSrc) (t : U3) (k : U3) : Statement (.vimin d a b t k) := rfl
theorem vimax (d : Dst) (a : VSrc) (b : VSrc) (t : U3) (k : U3) : Statement (.vimax d a b t k) := rfl
theorem vand (d : Dst) (a : VSrc) (b : VSrc) (k : U3) : Statement (.vand d a b k) := rfl
theorem vor (d : Dst) (a : VSrc) (b : VSrc) (k : U3) : Statement (.vor d a b k) := rfl
theorem vxor (d : Dst) (a : VSrc) (b : VSrc) (k : U3) : Statement (.vxor d a b k) := rfl
theorem vandn (d : Dst) (a : VSrc) (b : VSrc) (k : U3) : Statement (.vandn d a b k) := rfl
theorem vsll (d : Dst) (a : VSrc) (b : VSrc) (t : U3) (k : U3) : Statement (.vsll d a b t k) := rfl
theorem vsrl (d : Dst) (a : VSrc) (b : VSrc) (t : U3) (k : U3) : Statement (.vsrl d a b t k) := rfl
theorem vsra (d : Dst) (a : VSrc) (b : VSrc) (t : U3) (k : U3) : Statement (.vsra d a b t k) := rfl
theorem vrol (d : Dst) (a : VSrc) (b : VSrc) (t : U3) (k : U3) : Statement (.vrol d a b t k) := rfl
theorem vfcmpEq (kd : U3) (a : VSrc) (b : VSrc) (k : U3) : Statement (.vfcmpEq kd a b k) := rfl
theorem vfcmpLt (kd : U3) (a : VSrc) (b : VSrc) (k : U3) : Statement (.vfcmpLt kd a b k) := rfl
theorem vfcmpLe (kd : U3) (a : VSrc) (b : VSrc) (k : U3) : Statement (.vfcmpLe kd a b k) := rfl
theorem vfcmpUn (kd : U3) (a : VSrc) (b : VSrc) (k : U3) : Statement (.vfcmpUn kd a b k) := rfl
theorem vicmpEq (kd : U3) (a : VSrc) (b : VSrc) (t : U3) (k : U3) : Statement (.vicmpEq kd a b t k) := rfl
theorem vicmpLt (kd : U3) (a : VSrc) (b : VSrc) (t : U3) (k : U3) : Statement (.vicmpLt kd a b t k) := rfl
theorem vicmpLe (kd : U3) (a : VSrc) (b : VSrc) (t : U3) (k : U3) : Statement (.vicmpLe kd a b t k) := rfl
theorem vicmpLtu (kd : U3) (a : VSrc) (b : VSrc) (t : U3) (k : U3) : Statement (.vicmpLtu kd a b t k) := rfl
theorem vcvtFf (d : Dst) (a : VSrc) (src : U4) (t : U3) (k : U3) (part : U2) (rm : U3) (sat : Bool) : Statement (.vcvtFf d a src t k part rm sat) := rfl
theorem vcvtFi (d : Dst) (a : VSrc) (src : U4) (t : U3) (k : U3) (part : U2) (rm : U3) (sat : Bool) : Statement (.vcvtFi d a src t k part rm sat) := rfl
theorem vperm (d : Dst) (a : VSrc) (b : VSrc) (t : U3) (k : U3) : Statement (.vperm d a b t k) := rfl
theorem vziplo (d : Dst) (a : VSrc) (b : VSrc) (t : U3) (k : U3) : Statement (.vziplo d a b t k) := rfl
theorem vziphi (d : Dst) (a : VSrc) (b : VSrc) (t : U3) (k : U3) : Statement (.vziphi d a b t k) := rfl
theorem vunzip (d : Dst) (a : VSrc) (b : VSrc) (t : U3) (k : U3) : Statement (.vunzip d a b t k) := rfl
theorem vrot (d : Dst) (a : VSrc) (x : Src) (t : U3) (k : U3) : Statement (.vrot d a x t k) := rfl
theorem vshdn (d : Dst) (a : VSrc) (x : Src) (t : U3) (k : U3) : Statement (.vshdn d a x t k) := rfl
theorem vshup (d : Dst) (a : VSrc) (x : Src) (t : U3) (k : U3) : Statement (.vshup d a x t k) := rfl
theorem vrev (d : Dst) (a : VSrc) (t : U3) (k : U3) : Statement (.vrev d a t k) := rfl
theorem vfredsum (d : Dst) (a : VSrc) (t : U3) (k : U3) (rm : U3) : Statement (.vfredsum d a t k rm) := rfl
theorem vfredmax (d : Dst) (a : VSrc) (t : U3) (k : U3) (rm : U3) : Statement (.vfredmax d a t k rm) := rfl
theorem viredsum (d : Dst) (a : VSrc) (t : U3) (k : U3) (sat : Bool) : Statement (.viredsum d a t k sat) := rfl
theorem viredmax (d : Dst) (a : VSrc) (t : U3) (k : U3) : Statement (.viredmax d a t k) := rfl
theorem vbcast (d : Dst) (x : Src) (t : U3) (k : U3) : Statement (.vbcast d x t k) := rfl
theorem vins (d : Dst) (a : VSrc) (x : Src) (t : U3) (k : U3) : Statement (.vins d a x t k) := rfl
theorem vext (d : Dst) (a : VSrc) (x : Src) (t : U3) : Statement (.vext d a x t) := rfl
theorem vbcastl (d : Dst) (a : VSrc) (x : Src) (t : U3) (k : U3) : Statement (.vbcastl d a x t k) := rfl
theorem vexp2 (d : Dst) (a : VSrc) (t : U3) (k : U3) (rm : U3) : Statement (.vexp2 d a t k rm) := rfl
theorem vlog2 (d : Dst) (a : VSrc) (t : U3) (k : U3) (rm : U3) : Statement (.vlog2 d a t k rm) := rfl
theorem vrsqrt (d : Dst) (a : VSrc) (t : U3) (k : U3) (rm : U3) : Statement (.vrsqrt d a t k rm) := rfl
theorem vtanh (d : Dst) (a : VSrc) (t : U3) (k : U3) (rm : U3) : Statement (.vtanh d a t k rm) := rfl
theorem vsinpi (d : Dst) (a : VSrc) (t : U3) (k : U3) (rm : U3) : Statement (.vsinpi d a t k rm) := rfl
theorem vcospi (d : Dst) (a : VSrc) (t : U3) (k : U3) (rm : U3) : Statement (.vcospi d a t k rm) := rfl
theorem verf (d : Dst) (a : VSrc) (t : U3) (k : U3) (rm : U3) : Statement (.verf d a t k rm) := rfl
theorem vsigm (d : Dst) (a : VSrc) (t : U3) (k : U3) (rm : U3) : Statement (.vsigm d a t k rm) := rfl
theorem kand (kd : U3) (ka : U3) (kb : U3) : Statement (.kand kd ka kb) := rfl
theorem kor (kd : U3) (ka : U3) (kb : U3) : Statement (.kor kd ka kb) := rfl
theorem kxor (kd : U3) (ka : U3) (kb : U3) : Statement (.kxor kd ka kb) := rfl
theorem kandn (kd : U3) (ka : U3) (kb : U3) : Statement (.kandn kd ka kb) := rfl
theorem vsel (d : Dst) (a : VSrc) (b : VSrc) (k : U3) : Statement (.vsel d a b k) := rfl
theorem vimad (d : Dst) (a : VSrc) (b : VSrc) (c : VSrc) (k : U3) (sat : Bool) : Statement (.vimad d a b c k sat) := rfl
theorem mmake (d : U4) (a : VSrc) (b : VSrc) (k : U3) : Statement (.mmake d a b k) := rfl
theorem mgetm (d : Dst) (a : U4) (k : U3) : Statement (.mgetm d a k) := rfl
theorem mgetv (d : Dst) (a : U4) (k : U3) : Statement (.mgetv d a k) := rfl
theorem mmov (d : U4) (a : U4) (k : U3) : Statement (.mmov d a k) := rfl
theorem madd (d : U4) (a : U4) (b : U4) (c : VSrc) (k : U3) : Statement (.madd d a b c k) := rfl
theorem msub (d : U4) (a : U4) (b : U4) (c : VSrc) (k : U3) : Statement (.msub d a b c k) := rfl
theorem mmul (d : U4) (a : U4) (b : U4) (k : U3) : Statement (.mmul d a b k) := rfl
theorem mscale (d : U4) (a : U4) (x : Src) (k : U3) : Statement (.mscale d a x k) := rfl
theorem mrelu (d : U4) (a : U4) (k : U3) : Statement (.mrelu d a k) := rfl
theorem mexp (d : U4) (a : U4) (k : U3) : Statement (.mexp d a k) := rfl
theorem msigm (d : U4) (a : U4) (k : U3) : Statement (.msigm d a k) := rfl
theorem mgelu (d : U4) (a : U4) (k : U3) : Statement (.mgelu d a k) := rfl
theorem mcmean (d : Dst) (a : U4) (k : U3) : Statement (.mcmean d a k) := rfl
theorem mchi (d : Dst) (a : U4) (x : Src) (k : U3) : Statement (.mchi d a x k) := rfl
theorem mclo (d : Dst) (a : U4) (x : Src) (k : U3) : Statement (.mclo d a x k) := rfl
theorem mcdraw (d : Dst) (a : U4) (k : U3) : Statement (.mcdraw d a k) := rfl
theorem mma (m : U2) (sw : Bool) (acc : U11) (gx : U5) (asgn : Bool) (bsgn : Bool) (isat : Bool) (z : Bool) (p : U3) : Statement (.mma m sw acc gx asgn bsgn isat z p) := rfl
theorem mmasa (m : U2) (sw : Bool) (acc : U11) (gx : U5) (asgn : Bool) (bsgn : Bool) (isat : Bool) (z : Bool) (p : U3) : Statement (.mmasa m sw acc gx asgn bsgn isat z p) := rfl
theorem mmasb (m : U2) (sw : Bool) (acc : U11) (gx : U5) (asgn : Bool) (bsgn : Bool) (isat : Bool) (z : Bool) (p : U3) : Statement (.mmasb m sw acc gx asgn bsgn isat z p) := rfl
theorem mmam (m : U2) (sw : Bool) (acc : U11) (gx : U5) (z : Bool) (p : U3) : Statement (.mmam m sw acc gx z p) := rfl
theorem azero (acc : U11) (cnt : Byte) (p : U3) : Statement (.azero acc cnt p) := rfl
theorem aget (acc : U11) (v : U5) (row : U4) (col : Bool) (p : U3) : Statement (.aget acc v row col p) := rfl
theorem agetNw (acc : U11) (v : U5) (row : U4) (col : Bool) (p : U3) : Statement (.agetNw acc v row col p) := rfl
theorem amget (acc : U11) (md : U4) (row : U4) (p : U3) : Statement (.amget acc md row p) := rfl
theorem amgetNw (acc : U11) (md : U4) (row : U4) (p : U3) : Statement (.amgetNw acc md row p) := rfl
theorem aput (acc : U11) (v : U5) (row : U4) (col : Bool) (p : U3) : Statement (.aput acc v row col p) := rfl
theorem drain (m : U2) (sw : Bool) (acc : U11) (gx : U5) (rm : U3) (sat : Bool) (bias : Bool) (p : U3) : Statement (.drain m sw acc gx rm sat bias p) := rfl
theorem drainq (m : U2) (sw : Bool) (acc : U11) (gx : U5) (bias : Bool) (zp : Bool) (p : U3) : Statement (.drainq m sw acc gx bias zp p) := rfl
theorem arsum (m : U2) (sw : Bool) (acc : U11) (gx : U5) (sgn : Bool) (isat : Bool) (z : Bool) (p : U3) : Statement (.arsum m sw acc gx sgn isat z p) := rfl
theorem acsum (m : U2) (sw : Bool) (acc : U11) (gx : U5) (sgn : Bool) (isat : Bool) (z : Bool) (p : U3) : Statement (.acsum m sw acc gx sgn isat z p) := rfl
theorem ldSpl (d : LdDst) (a : Src) (wt : Bool) (cons : Bool) (p : U3) : Statement (.ldSpl d a wt cons p) := rfl
theorem stSpl (x : StSrc) (a : Src) (p : U3) : Statement (.stSpl x a p) := rfl
theorem ldSpk (d : LdDst) (a : Src) (n : Byte) (p : U3) : Statement (.ldSpk d a n p) := rfl
theorem stSpk (x : StSrc) (a : Src) (tag : Bool) (p : U3) : Statement (.stSpk x a tag p) := rfl
theorem putSpp (x : StSrc) (a : Src) (tier : U2) (tag : Bool) (p : U3) : Statement (.putSpp x a tier tag p) := rfl
theorem putfSpp (x : StSrc) (a : Src) (fg : U5) (tier : U2) (tag : Bool) (p : U3) : Statement (.putfSpp x a fg tier tag p) := rfl
theorem raddSpp (x : Src) (a : Src) (tier : U2) (p : U3) : Statement (.raddSpp x a tier p) := rfl
theorem rcopySpp (x : U5) (a : Src) (tier : U2) (tag : Bool) (p : U3) : Statement (.rcopySpp x a tier tag p) := rfl
theorem ldHbm (d : LdDst) (a : Src) (n : Byte) (p : U3) : Statement (.ldHbm d a n p) := rfl
theorem stHbm (x : StSrc) (a : Src) (p : U3) : Statement (.stHbm x a p) := rfl
theorem amo (x : Src) (a : Src) (n : Byte) (w : Bool) (scope : U3) (aop : U4) (p : U3) : Statement (.amo x a n w scope aop p) := rfl
theorem putPhm (x : StSrc) (a : Src) (tier : U2) (p : U3) : Statement (.putPhm x a tier p) := rfl
theorem ldHst (d : LdDst) (a : Src) (n : Byte) (p : U3) : Statement (.ldHst d a n p) := rfl
theorem stHst (x : StSrc) (a : Src) (p : U3) : Statement (.stHst x a p) := rfl
theorem parm (a : Src) (b : Src) (p : U3) : Statement (.parm a b p) := rfl
theorem prel (a : Src) (p : U3) : Statement (.prel a p) := rfl
theorem pfill (a : Src) (p : U3) : Statement (.pfill a p) := rfl
theorem pget (d : Dst) (a : Src) (p : U3) : Statement (.pget d a p) := rfl
theorem fwait (a : Src) (b : Src) (p : U3) : Statement (.fwait a b p) := rfl
theorem fwaitne (a : Src) (b : Src) (p : U3) : Statement (.fwaitne a b p) := rfl
theorem binit (a : Src) (b : Src) (p : U3) : Statement (.binit a b p) := rfl
theorem barrive (a : Src) (p : U3) : Statement (.barrive a p) := rfl
theorem bwait (a : Src) (p : U3) : Statement (.bwait a p) := rfl
theorem binval (a : Src) (p : U3) : Statement (.binval a p) := rfl
theorem qput (a : Src) (b : Src) (n : U4) (esz : U3) (tier : U2) (p : U3) : Statement (.qput a b n esz tier p) := rfl
theorem qpop (d : Dst) (n : U4) (nw : Bool) (p : U3) : Statement (.qpop d n nw p) := rfl
theorem qdone (n : U4) (p : U3) : Statement (.qdone n p) := rfl
theorem fence (scope : U4) (grp : Byte) (p : U3) : Statement (.fence scope grp p) := rfl
theorem copy (x : U2) (sw : Bool) (a : U5) (d : Dst) (n : U4) (tier : U2) (tag : Bool) (follow : Bool) (p : U3) : Statement (.copy x sw a d n tier tag follow p) := rfl
theorem cchain (d : Dst) (a : Src) (n : U4) (p : U3) : Statement (.cchain d a n p) := rfl
theorem cwait (n : U4) (b : Src) (p : U3) : Statement (.cwait n b p) := rfl
theorem macroRun (a : Src) (idx : BitVec 10) (p : U3) : Statement (.macroRun a idx p) := rfl
theorem mcld (a : Src) (b : Src) (p : U3) : Statement (.mcld a b p) := rfl
theorem ntile (p : U3) : Statement (.ntile p) := rfl
theorem rngseed (a : Src) (b : Src) (flush : Bool) (p : U3) : Statement (.rngseed a b flush p) := rfl
theorem rngpop (d : Dst) (p : U3) : Statement (.rngpop d p) := rfl
theorem nop : Statement (.nop) := rfl
theorem hdr (group : Bool) (e3 : Byte) (e2 : Byte) (e1 : Byte) : Statement (.hdr group e3 e2 e1) := rfl
theorem mwait : Statement (.mwait) := rfl
theorem coll (a : Src) : Statement (.coll a) := rfl
theorem rsend (a : Src) : Statement (.rsend a) := rfl
theorem macroStep : Statement (.macroStep) := rfl
theorem resultLanding : Statement (.resultLanding) := rfl
theorem loadDataArrival (n : Nat) : Statement (.loadDataArrival n) := rfl
theorem loadLanding : Statement (.loadLanding) := rfl
theorem fetchFill : Statement (.fetchFill) := rfl
theorem pageWalkComplete (n : Nat) : Statement (.pageWalkComplete n) := rfl
theorem trapEntry (ev : TrapEvent) : Statement (.trapEntry ev) := rfl
theorem rngAppend : Statement (.rngAppend) := rfl
theorem coreReset : Statement (.coreReset) := rfl
theorem rsplitWrite (v : Bool) : Statement (.rsplitWrite v) := rfl
theorem lactWrite (v : U64) : Statement (.lactWrite v) := rfl
theorem qcfgWrite (n : U4) (v : U64) : Statement (.qcfgWrite n v) := rfl
theorem qptrWrite (n : U4) (v : U64) : Statement (.qptrWrite n v) := rfl
theorem pctlReady : Statement (.pctlReady) := rfl
theorem accxferWrite (v : U64) : Statement (.accxferWrite v) := rfl
theorem elogposWrite (v : U64) : Statement (.elogposWrite v) := rfl
theorem ctrloRead (c : Nat) : Statement (.ctrloRead c) := rfl
theorem debugStop : Statement (.debugStop) := rfl
theorem matrixEntryStart : Statement (.matrixEntryStart) := rfl
theorem matrixEntryComplete : Statement (.matrixEntryComplete) := rfl
theorem copyRecord (cl : Nat) (ch : Nat) : Statement (.copyRecord cl ch) := rfl
theorem copyTransferComplete (cl : Nat) (ch : Nat) : Statement (.copyTransferComplete cl ch) := rfl
theorem chainRecordRead (cl : Nat) (ch : Nat) : Statement (.chainRecordRead cl ch) := rfl
theorem writeArrival (w : Arrival) : Statement (.writeArrival w) := rfl
theorem taggedWrite (n : Nat) : Statement (.taggedWrite n) := rfl
theorem release (n : Nat) : Statement (.release n) := rfl
theorem raddPerform (n : Nat) : Statement (.raddPerform n) := rfl
theorem flagIncrement (n : Nat) : Statement (.flagIncrement n) := rfl
theorem qputArrival (n : Nat) : Statement (.qputArrival n) := rfl
theorem spkStorePerform (n : Nat) : Statement (.spkStorePerform n) := rfl
theorem phmPutArrival (n : Nat) : Statement (.phmPutArrival n) := rfl
theorem hbmStorePerform (n : Nat) : Statement (.hbmStorePerform n) := rfl
theorem hstStoreEmit (n : Nat) : Statement (.hstStoreEmit n) := rfl
theorem atomicPerform (n : Nat) : Statement (.atomicPerform n) := rfl
theorem atomicAnswer (n : Nat) : Statement (.atomicAnswer n) := rfl
theorem writeAnswer (n : Nat) (outside : Option RemoteAnswer) : Statement (.writeAnswer n outside) := rfl
theorem eccWriteback (n : Nat) : Statement (.eccWriteback n) := rfl
theorem collBucketComplete (n : Nat) : Statement (.collBucketComplete n) := rfl
theorem routeSendAnswer (n : Nat) (outside : Option RemoteAnswer) : Statement (.routeSendAnswer n outside) := rfl
theorem routingEntryArrival (n : Nat) : Statement (.routingEntryArrival n) := rfl
theorem sealArrival (n : Nat) : Statement (.sealArrival n) := rfl
theorem routeBatchComplete (n : Nat) : Statement (.routeBatchComplete n) := rfl
theorem haltComplete : Statement (.haltComplete) := rfl
theorem instanceFault : Statement (.instanceFault) := rfl
theorem graphAdmit (part : Nat) : Statement (.graphAdmit part) := rfl
theorem dispatchDecision (part : Nat) : Statement (.dispatchDecision part) := rfl
theorem gangRelease (job : Nat) : Statement (.gangRelease job) := rfl
theorem quantumBoundary : Statement (.quantumBoundary) := rfl
theorem forcedSave : Statement (.forcedSave) := rfl
theorem gemmaWrite (ctx : Nat) : Statement (.gemmaWrite ctx) := rfl
theorem intervalBoundary (part : Nat) : Statement (.intervalBoundary part) := rfl
theorem headSample (cl : Nat) (v : Nat) : Statement (.headSample cl v) := rfl
theorem asqbaseWrite (fn : Nat) (v : U64) : Statement (.asqbaseWrite fn v) := rfl
theorem acqbaseWrite (fn : Nat) (v : U64) : Statement (.acqbaseWrite fn v) := rfl
theorem aqdepthWrite (fn : Nat) (v : U32) : Statement (.aqdepthWrite fn v) := rfl
theorem sqtailWrite (fn : Nat) (q : Nat) (v : U32) : Statement (.sqtailWrite fn q v) := rfl
theorem cqheadWrite (fn : Nat) (q : Nat) (v : U32) : Statement (.cqheadWrite fn q v) := rfl
theorem submissionFetch (fn : Nat) (q : Nat) : Statement (.submissionFetch fn q) := rfl
theorem completionPost (fn : Nat) (q : Nat) : Statement (.completionPost fn q) := rfl
theorem queueSlotMap (part : Nat) : Statement (.queueSlotMap part) := rfl
theorem vfCreate (c : Cmd) : Statement (.vfCreate c) := rfl
theorem vfBind (c : Cmd) : Statement (.vfBind c) := rfl
theorem vfUnbind (c : Cmd) : Statement (.vfUnbind c) := rfl
theorem qpCreate (c : Cmd) : Statement (.qpCreate c) := rfl
theorem qpDelete (c : Cmd) : Statement (.qpDelete c) := rfl
theorem imageLoad (c : Cmd) : Statement (.imageLoad c) := rfl
theorem mapCmd (c : Cmd) : Statement (.mapCmd c) := rfl
theorem unmap (c : Cmd) : Statement (.unmap c) := rfl
theorem submit (c : Cmd) : Statement (.submit c) := rfl
theorem pause (c : Cmd) : Statement (.pause c) := rfl
theorem resume (c : Cmd) : Statement (.resume c) := rfl
theorem evict (c : Cmd) : Statement (.evict c) := rfl
theorem relocate (c : Cmd) : Statement (.relocate c) := rfl
theorem ctrReq (c : Cmd) : Statement (.ctrReq c) := rfl
theorem ctrRelease (c : Cmd) : Statement (.ctrRelease c) := rfl
theorem ctrEvents (c : Cmd) : Statement (.ctrEvents c) := rfl
theorem layout (c : Cmd) : Statement (.layout c) := rfl
theorem partReset (c : Cmd) : Statement (.partReset c) := rfl
theorem schedSet (c : Cmd) : Statement (.schedSet c) := rfl
theorem bucketSet (c : Cmd) : Statement (.bucketSet c) := rfl
theorem regionPublish (c : Cmd) : Statement (.regionPublish c) := rfl
theorem regionWithdraw (c : Cmd) : Statement (.regionWithdraw c) := rfl
theorem linkRotate (c : Cmd) : Statement (.linkRotate c) := rfl
theorem journalRead (c : Cmd) : Statement (.journalRead c) := rfl
theorem regionSeal (n : Nat) : Statement (.regionSeal n) := rfl
theorem powerGateOn (cl : Nat) : Statement (.powerGateOn cl) := rfl
theorem scrubReport (n : Nat) : Statement (.scrubReport n) := rfl
theorem layoutCommit : Statement (.layoutCommit) := rfl
theorem mgmtWatchdogReset : Statement (.mgmtWatchdogReset) := rfl
theorem coldReset : Statement (.coldReset) := rfl
theorem tokenRefill : Statement (.tokenRefill) := rfl
theorem linkTraining (port : Nat) : Statement (.linkTraining port) := rfl
theorem rotateConfirm (port : Nat) (outward : Bool) : Statement (.rotateConfirm port outward) := rfl
theorem retire (port : Nat) (outward : Bool) : Statement (.retire port outward) := rfl
theorem keyCounterExpiry (port : Nat) (outward : Bool) : Statement (.keyCounterExpiry port outward) := rfl
theorem flitReplay (port : Nat) (outward : Bool) : Statement (.flitReplay port outward) := rfl
theorem linkRetrain (port : Nat) : Statement (.linkRetrain port) := rfl
theorem linkDown (port : Nat) : Statement (.linkDown port) := rfl
theorem boundaryLost (bnd : Nat) : Statement (.boundaryLost bnd) := rfl
theorem patrol (addr : Nat) : Statement (.patrol addr) := rfl
theorem spdmRequest (fn : Nat) (block : Nat) (signed : Bool) : Statement (.spdmRequest fn block signed) := rfl
theorem lockInterfaceRequest (fn : Nat) : Statement (.lockInterfaceRequest fn) := rfl
theorem startInterfaceRequest (fn : Nat) : Statement (.startInterfaceRequest fn) := rfl
theorem tdiError (fn : Nat) : Statement (.tdiError fn) := rfl
theorem tlbRemovalTakesEffect (cl : Nat) : Statement (.tlbRemovalTakesEffect cl) := rfl
theorem flitAcknowledgement (port : Nat) (outward : Bool) : Statement (.flitAcknowledgement port outward) := rfl
theorem journalFlashMirror : Statement (.journalFlashMirror) := rfl

end Sys2Proof.Laws.Encoding
end

