-- ==== Sys2Proof/Tests/Slice0.lean ====
section
/-! SUPPORT. The model's own tests: words decoded as the opcode table lays them out, ill-formed terms, a witness for the
hypotheses of each statement, and single steps whose results the spec works out or follow from it by hand. -/
namespace Sys2Proof.Tests
open Sys2Proof Sys2Proof.Machine
set_option Elab.async false

/-- What an M-core's decoder reads from each word. -/
noncomputable def words (es : List Enc) : List Decoded := es.filterMap fun e => (decode true e).toOption

theorem test_decode_scalar_arithmetic : words [
    ⟨0, false, 0, 0x00000000⟩, ⟨0, false, 0, 0xF1040506⟩, ⟨0, false, 0, 0x04518701⟩, ⟨0, false, 0, 0x04518709⟩,
    ⟨0, false, 0, 0x04518711⟩, ⟨0, false, 0, 0x04518719⟩, ⟨0, false, 0, 0x04518721⟩, ⟨0, false, 0, 0x04518729⟩,
    ⟨0, false, 0, 0x04518731⟩, ⟨0, false, 0, 0x04518739⟩, ⟨0, false, 0, 0x04518741⟩, ⟨0, false, 0, 0x04518749⟩,
    ⟨0, false, 0, 0x04518751⟩, ⟨0, false, 0, 0x04518759⟩, ⟨0, false, 0, 0x04518761⟩, ⟨0, false, 0, 0x04518769⟩,
    ⟨0, false, 0, 0x04518771⟩, ⟨0, false, 0, 0x04518779⟩, ⟨0, false, 0, 0x04518781⟩, ⟨0, false, 0, 0x04518789⟩,
    ⟨0, false, 0, 0x04518791⟩, ⟨0, false, 0, 0x04518799⟩, ⟨0, false, 0, 0x045187A1⟩, ⟨0, false, 0, 0x08518701⟩,
    ⟨0, false, 0, 0x08518709⟩, ⟨0, false, 0, 0x08518711⟩, ⟨0, false, 0, 0x08518719⟩, ⟨0, false, 0, 0x08518721⟩] = [
    .op .nop, .hdr true 4 5 6, .op (.add (.reg 5) (.g 6) (.g 7) 1), .op (.sub (.reg 5) (.g 6) (.g 7) 1),
    .op (.and (.reg 5) (.g 6) (.g 7) 1), .op (.or (.reg 5) (.g 6) (.g 7) 1), .op (.xor (.reg 5) (.g 6) (.g 7) 1),
    .op (.andn (.reg 5) (.g 6) (.g 7) 1), .op (.sll (.reg 5) (.g 6) (.g 7) 1), .op (.srl (.reg 5) (.g 6) (.g 7) 1),
    .op (.sra (.reg 5) (.g 6) (.g 7) 1), .op (.ror (.reg 5) (.g 6) (.g 7) 1), .op (.min (.reg 5) (.g 6) (.g 7) 1),
    .op (.max (.reg 5) (.g 6) (.g 7) 1), .op (.minu (.reg 5) (.g 6) (.g 7) 1), .op (.maxu (.reg 5) (.g 6) (.g 7) 1),
    .op (.slt (.reg 5) (.g 6) (.g 7) 1), .op (.sltu (.reg 5) (.g 6) (.g 7) 1), .op (.addw (.reg 5) (.g 6) (.g 7) 1),
    .op (.subw (.reg 5) (.g 6) (.g 7) 1), .op (.sllw (.reg 5) (.g 6) (.g 7) 1), .op (.srlw (.reg 5) (.g 6) (.g 7) 1),
    .op (.sraw (.reg 5) (.g 6) (.g 7) 1), .op (.mul (.reg 5) (.g 6) (.g 7) 1), .op (.mulh (.reg 5) (.g 6) (.g 7) 1),
    .op (.mulhu (.reg 5) (.g 6) (.g 7) 1), .op (.mulhsu (.reg 5) (.g 6) (.g 7) 1), .op (.mulw (.reg 5) (.g 6) (.g 7) 1)] := by decide +kernel

theorem test_decode_scalar_saturation_and_division : words [
    ⟨0, false, 0, 0x08518729⟩, ⟨0, false, 0, 0x08518731⟩, ⟨0, false, 0, 0x08518739⟩, ⟨0, false, 0, 0x08518741⟩,
    ⟨0, false, 0, 0x08518749⟩, ⟨0, false, 0, 0x08518751⟩, ⟨0, false, 0, 0x08518759⟩, ⟨0, false, 0, 0x08518761⟩,
    ⟨0, false, 0, 0x08518769⟩, ⟨0, false, 0, 0x08518771⟩, ⟨0, false, 0, 0x08518779⟩] = [
    .op (.addsat (.reg 5) (.g 6) (.g 7) 1), .op (.subsat (.reg 5) (.g 6) (.g 7) 1),
    .op (.addsatw (.reg 5) (.g 6) (.g 7) 1), .op (.subsatw (.reg 5) (.g 6) (.g 7) 1),
    .op (.addsatu (.reg 5) (.g 6) (.g 7) 1), .op (.subsatu (.reg 5) (.g 6) (.g 7) 1),
    .op (.mulsatw (.reg 5) (.g 6) (.g 7) 1), .op (.div (.reg 5) (.g 6) (.g 7) 1), .op (.divu (.reg 5) (.g 6) (.g 7) 1),
    .op (.rem (.reg 5) (.g 6) (.g 7) 1), .op (.remu (.reg 5) (.g 6) (.g 7) 1)] := by decide +kernel

theorem test_decode_scalar_immediates : words [
    ⟨0, false, 0, 0x0C518029⟩, ⟨0, false, 0, 0x10518029⟩, ⟨0, false, 0, 0x14518029⟩, ⟨0, false, 0, 0x18518029⟩,
    ⟨0, false, 0, 0x1C518039⟩, ⟨0, false, 0, 0x1C519039⟩, ⟨0, false, 0, 0x1C51A039⟩, ⟨0, false, 0, 0x1C51B039⟩,
    ⟨0, false, 0, 0x1C518829⟩, ⟨0, false, 0, 0x1C519829⟩, ⟨0, false, 0, 0x1C51A829⟩, ⟨0, false, 0, 0x1C51B829⟩,
    ⟨0, false, 0, 0x20500021⟩, ⟨0, false, 0, 0x24518029⟩] = [
    .op (.addi (.reg 5) (.g 6) (.narrow 5) 1), .op (.andi (.reg 5) (.g 6) (.narrow 5) 1),
    .op (.ori (.reg 5) (.g 6) (.narrow 5) 1), .op (.xori (.reg 5) (.g 6) (.narrow 5) 1), .op (.slli (.reg 5) (.g 6) 7 1),
    .op (.srli (.reg 5) (.g 6) 7 1), .op (.srai (.reg 5) (.g 6) 7 1), .op (.rori (.reg 5) (.g 6) 7 1),
    .op (.slliw (.reg 5) (.g 6) 5 1), .op (.srliw (.reg 5) (.g 6) 5 1), .op (.sraiw (.reg 5) (.g 6) 5 1),
    .op (.roriw (.reg 5) (.g 6) 5 1), .op (.ldi (.reg 5) (.narrow 4) 1), .op (.ldis (.reg 5) (.g 6) (.narrow 5) 1)] := by decide +kernel

theorem test_decode_compares_predicates_and_bits : words [
    ⟨0, false, 0, 0x28118789⟩, ⟨0, false, 0, 0x2C91C031⟩, ⟨0, false, 0, 0x30104101⟩, ⟨0, false, 0, 0x30104109⟩,
    ⟨0, false, 0, 0x30104111⟩, ⟨0, false, 0, 0x30104119⟩, ⟨0, false, 0, 0x30118021⟩, ⟨0, false, 0, 0x30504029⟩,
    ⟨0, false, 0, 0x30118031⟩, ⟨0, false, 0, 0x30504039⟩, ⟨0, false, 0, 0x34518709⟩, ⟨0, false, 0, 0x34518749⟩,
    ⟨0, false, 0, 0x38518701⟩, ⟨0, false, 0, 0x38518709⟩, ⟨0, false, 0, 0x38518711⟩, ⟨0, false, 0, 0x38518019⟩,
    ⟨0, false, 0, 0x38518021⟩, ⟨0, false, 0, 0x38518029⟩, ⟨0, false, 0, 0x38518031⟩, ⟨0, false, 0, 0x38518039⟩,
    ⟨0, false, 0, 0x3C518731⟩, ⟨0, false, 0, 0x3C518781⟩, ⟨0, false, 0, 0x3C518789⟩] = [
    .op (.cmp 1 1 2 (.g 6) (.g 7) 1), .op (.cmpi 1 1 (.g 7) (.narrow 6) 1), .op (.pand 1 1 1 1), .op (.por 1 1 1 1),
    .op (.pxor 1 1 1 1), .op (.pandn 1 1 1 1), .op (.kfromg 1 (.g 6) 1), .op (.gfromk (.reg 5) 1 1),
    .op (.pfromg 1 (.g 6) 1), .op (.gfromp (.reg 5) 1 1), .op (.sel (.reg 5) (.g 6) (.g 7) 1 1),
    .op (.seln (.reg 5) (.g 6) (.g 7) 1 1), .op (.bext (.reg 5) (.g 6) (.g 7) 1), .op (.bextu (.reg 5) (.g 6) (.g 7) 1),
    .op (.bins 5 (.g 6) (.g 7) 1), .op (.clz (.reg 5) (.g 6) 1), .op (.ctz (.reg 5) (.g 6) 1),
    .op (.popc (.reg 5) (.g 6) 1), .op (.bswap (.reg 5) (.g 6) 1), .op (.brev (.reg 5) (.g 6) 1),
    .op (.adds (.reg 5) (.g 6) (.g 7) 6 1), .op (.setdev (.reg 5) (.g 6) (.g 7) 1),
    .op (.setcore (.reg 5) (.g 6) (.g 7) 1)] := by decide +kernel

theorem test_decode_local_accesses_and_special_registers : words [
    ⟨0, false, 0, 0x40518149⟩, ⟨0, false, 0, 0x44518149⟩, ⟨0, false, 0, 0x48500839⟩, ⟨0, false, 0, 0x4C500839⟩,
    ⟨0, false, 0, 0x51907031⟩, ⟨0, false, 0, 0x53907031⟩, ⟨3, false, 0, 0x44518009⟩, ⟨3, false, 0, 0x48518149⟩,
    ⟨3, false, 0, 0x4C518049⟩, ⟨3, false, 0, 0x58518009⟩, ⟨3, false, 0, 0x68518009⟩] = [
    .op (.ldSplSm (.reg 5) (.g 6) (.narrow 5) 1 1), .op (.stSplSm (.g 5) (.g 6) (.narrow 5) 1 1), .op (.mfsr 5 4 7 0 1),
    .op (.mtsr (.g 5) 4 7 0 1), .op (.shwMs 3 4 (.g 7) (.narrow 6) 1), .op (.shwXs 3 4 (.g 7) (.narrow 6) 1),
    .op (.stSpl (.narrow 1 (.g 5)) (.g 6) 1), .op (.ldSpk (.narrow 1 (.reg 5)) (.g 6) 5 1),
    .op (.stSpk (.narrow 1 (.g 5)) (.g 6) true 1), .op (.stHbm (.narrow 1 (.g 5)) (.g 6) 1),
    .op (.stHst (.narrow 1 (.g 5)) (.g 6) 1)] := by decide +kernel

theorem test_decode_control : words [
    ⟨0, false, 0, 0x60080004⟩, ⟨0, false, 0, 0x60480004⟩, ⟨0, false, 0, 0x64080004⟩, ⟨0, false, 0, 0x68014001⟩,
    ⟨0, false, 0, 0x68518009⟩, ⟨0, false, 0, 0x68000011⟩, ⟨0, false, 0, 0x680E4019⟩, ⟨0, false, 0, 0x6C8C0005⟩,
    ⟨0, false, 0, 0x70000001⟩, ⟨0, false, 0, 0x70014009⟩, ⟨0, false, 0, 0x70000011⟩, ⟨0, false, 0, 0x70000019⟩,
    ⟨0, false, 0, 0x70000021⟩, ⟨0, false, 0, 0x70000029⟩, ⟨0, false, 0, 0x70014031⟩, ⟨0, false, 0, 0x70014039⟩,
    ⟨0, false, 0, 0x70000041⟩] = [
    .op (.br 1 4), .op (.brn 1 4), .op (.call 1 4), .op (.jr (.g 5) 1), .op (.callr (.reg 5) (.g 6) 1), .op (.ret 1),
    .op (.lclr 1 1), .op (.loop 1 (.g 6) 5), .op (.yield 1), .op (.trap (.g 5) 1), .op (.brk 1), .op (.halt 1),
    .op (.uret 1), .op (.sret 1), .op (.rbsave (.g 5) 1), .op (.rbload (.g 5) 1), .op (.rbdrop 1)] := by decide +kernel

theorem test_decode_system : words [
    ⟨0, false, 0, 0x74014001⟩, ⟨0, false, 0, 0x74014009⟩, ⟨0, false, 0, 0x74000011⟩, ⟨0, false, 0, 0x74000019⟩,
    ⟨1, false, 0, 0x800C6029⟩, ⟨1, false, 0, 0x804C6029⟩, ⟨1, false, 0, 0x84005021⟩, ⟨1, false, 0, 0x88005021⟩,
    ⟨1, false, 0, 0x88405021⟩, ⟨1, false, 0, 0x88805021⟩] = [
    .op (.tlbinv (.g 5) 1), .op (.tlbinvctx (.g 5) 1), .op (.tlbinvall 1), .op (.tlbsync 1),
    .op (.cbldBf16 3 (.g 6) (.narrow 5) 1), .op (.cbldE4m3 3 (.g 6) (.narrow 5) 1), .op (.scld (.g 5) (.narrow 4) 1),
    .op (.mmset (.g 5) (.narrow 4) 1), .op (.mmcov (.g 5) (.narrow 4) 1), .op (.mmclamp (.g 5) (.narrow 4) 1)] := by decide +kernel

theorem test_decode_float_vectors : words [
    ⟨2, false, 0, 0x04518724⟩, ⟨2, false, 0, 0x04518725⟩, ⟨2, false, 0, 0x04518726⟩, ⟨2, false, 0, 0x04518727⟩,
    ⟨2, false, 0, 0x08518724⟩, ⟨2, false, 0, 0x08518725⟩, ⟨2, false, 0, 0x08518026⟩, ⟨2, false, 0, 0x08518027⟩,
    ⟨2, false, 0, 0x0C518024⟩, ⟨2, false, 0, 0x0C518025⟩, ⟨2, false, 0, 0x0C518026⟩, ⟨2, false, 0, 0x0C518027⟩,
    ⟨2, false, 0, 0x10109E0D⟩, ⟨2, false, 0, 0x15F0C169⟩, ⟨2, false, 0, 0x18004124⟩, ⟨2, false, 0, 0x1C20C001⟩] = [
    .op (.vadd (.reg 5) (.v 6) (.v 7) 1 1 0), .op (.vsub (.reg 5) (.v 6) (.v 7) 1 1 0),
    .op (.vmin (.reg 5) (.v 6) (.v 7) 1 1 0), .op (.vmax (.reg 5) (.v 6) (.v 7) 1 1 0),
    .op (.vmul (.reg 5) (.v 6) (.v 7) 1 1 0), .op (.vdiv (.reg 5) (.v 6) (.v 7) 1 1 0),
    .op (.vabs (.reg 5) (.v 6) 1 1 0), .op (.vneg (.reg 5) (.v 6) 1 1 0), .op (.vsqrt (.reg 5) (.v 6) 1 1 0),
    .op (.vrcp (.reg 5) (.v 6) 1 1 0), .op (.vfrac (.reg 5) (.v 6) 1 1 0), .op (.vclass (.reg 5) (.v 6) 1 1 0),
    .op (.vfma   (.reg 1)   (.v 2)   (.v 30)   (.v 3)   1   0   0),
    .op (.vfms   (.reg 31)   (.v 3)   (.v 1)   (.v 26)   1   0   0),
    .op (.vfnma   (.reg 0)   (.v 1)   (.v 1)   (.v 9)   0   0   0),
    .op (.vfnms   (.reg 2)   (.v 3)   (.v 0)   (.v 0)   1   0   0)] := by decide +kernel

theorem test_decode_integer_vectors : words [
    ⟨2, false, 0, 0x20518724⟩, ⟨2, false, 0, 0x20518725⟩, ⟨2, false, 0, 0x20518726⟩, ⟨2, false, 0, 0x20518727⟩,
    ⟨2, false, 0, 0x24518724⟩, ⟨2, false, 0, 0x24518725⟩, ⟨2, false, 0, 0x24518726⟩, ⟨2, false, 0, 0x24518727⟩,
    ⟨2, false, 0, 0x28518704⟩, ⟨2, false, 0, 0x28518705⟩, ⟨2, false, 0, 0x28518706⟩, ⟨2, false, 0, 0x28518707⟩,
    ⟨2, false, 0, 0x2C518724⟩, ⟨2, false, 0, 0x2C518725⟩, ⟨2, false, 0, 0x2C518726⟩, ⟨2, false, 0, 0x2C518727⟩,
    ⟨2, false, 0, 0x60518727⟩] = [
    .op (.viadd (.reg 5) (.v 6) (.v 7) 1 1), .op (.visub (.reg 5) (.v 6) (.v 7) 1 1),
    .op (.viadds (.reg 5) (.v 6) (.v 7) 1 1), .op (.visubs (.reg 5) (.v 6) (.v 7) 1 1),
    .op (.vimul (.reg 5) (.v 6) (.v 7) 1 1 false), .op (.vimulh (.reg 5) (.v 6) (.v 7) 1 1),
    .op (.vimin (.reg 5) (.v 6) (.v 7) 1 1), .op (.vimax (.reg 5) (.v 6) (.v 7) 1 1),
    .op (.vand (.reg 5) (.v 6) (.v 7) 1), .op (.vor (.reg 5) (.v 6) (.v 7) 1), .op (.vxor (.reg 5) (.v 6) (.v 7) 1),
    .op (.vandn (.reg 5) (.v 6) (.v 7) 1), .op (.vsll (.reg 5) (.v 6) (.v 7) 1 1),
    .op (.vsrl (.reg 5) (.v 6) (.v 7) 1 1), .op (.vsra (.reg 5) (.v 6) (.v 7) 1 1),
    .op (.vrol (.reg 5) (.v 6) (.v 7) 1 1), .op (.vimad   (.reg 5)   (.v 6)   (.v 7)   (.v 9)   0   false)] := by decide +kernel

theorem test_decode_vector_compares_and_conversions : words [
    ⟨2, false, 0, 0x30118704⟩, ⟨2, false, 0, 0x30118705⟩, ⟨2, false, 0, 0x30118706⟩, ⟨2, false, 0, 0x30118707⟩,
    ⟨2, false, 0, 0x34118724⟩, ⟨2, false, 0, 0x34118725⟩, ⟨2, false, 0, 0x34118726⟩, ⟨2, false, 0, 0x34118727⟩,
    ⟨2, false, 0, 0x3850816D⟩, ⟨2, false, 0, 0x3C518524⟩] = [
    .op (.vfcmpEq 1 (.v 6) (.v 7) 1), .op (.vfcmpLt 1 (.v 6) (.v 7) 1), .op (.vfcmpLe 1 (.v 6) (.v 7) 1),
    .op (.vfcmpUn 1 (.v 6) (.v 7) 1), .op (.vicmpEq 1 (.v 6) (.v 7) 1 1), .op (.vicmpLt 1 (.v 6) (.v 7) 1 1),
    .op (.vicmpLe 1 (.v 6) (.v 7) 1 1), .op (.vicmpLtu 1 (.v 6) (.v 7) 1 1),
    .op (.vcvtFf (.reg 5) (.v 2) 1 3 3 1 0 false), .op (.vcvtFi (.reg 5) (.v 6) 5 1 1 0 0 false)] := by decide +kernel

theorem test_decode_vector_moves : words [
    ⟨2, false, 0, 0x40518724⟩, ⟨2, false, 0, 0x40518725⟩, ⟨2, false, 0, 0x40518726⟩, ⟨2, false, 0, 0x40518727⟩,
    ⟨2, false, 0, 0x44518724⟩, ⟨2, false, 0, 0x44518725⟩, ⟨2, false, 0, 0x44518726⟩, ⟨2, false, 0, 0x44518027⟩,
    ⟨2, false, 0, 0x4C500624⟩, ⟨2, false, 0, 0x4C518725⟩, ⟨2, false, 0, 0x4C518722⟩, ⟨2, false, 0, 0x4C518727⟩] = [
    .op (.vperm (.reg 5) (.v 6) (.v 7) 1 1), .op (.vziplo (.reg 5) (.v 6) (.v 7) 1 1),
    .op (.vziphi (.reg 5) (.v 6) (.v 7) 1 1), .op (.vunzip (.reg 5) (.v 6) (.v 7) 1 1),
    .op (.vrot (.reg 5) (.v 6) (.g 7) 1 1), .op (.vshdn (.reg 5) (.v 6) (.g 7) 1 1),
    .op (.vshup (.reg 5) (.v 6) (.g 7) 1 1), .op (.vrev (.reg 5) (.v 6) 1 1), .op (.vbcast (.reg 5) (.g 6) 1 1),
    .op (.vins (.reg 5) (.v 6) (.g 7) 1 1), .op (.vext (.reg 5) (.v 6) (.g 7) 1),
    .op (.vbcastl (.reg 5) (.v 6) (.g 7) 1 1)] := by decide +kernel

theorem test_decode_reductions_and_elementary : words [
    ⟨2, false, 0, 0x48518024⟩, ⟨2, false, 0, 0x48518025⟩, ⟨2, false, 0, 0x48518026⟩, ⟨2, false, 0, 0x48518027⟩,
    ⟨2, false, 0, 0x50518024⟩, ⟨2, false, 0, 0x50518025⟩, ⟨2, false, 0, 0x50518026⟩, ⟨2, false, 0, 0x50518027⟩,
    ⟨2, false, 0, 0x54518024⟩, ⟨2, false, 0, 0x54518025⟩, ⟨2, false, 0, 0x54518026⟩, ⟨2, false, 0, 0x54518027⟩] = [
    .op (.vfredsum (.reg 5) (.v 6) 1 1 0), .op (.vfredmax (.reg 5) (.v 6) 1 1 0),
    .op (.viredsum (.reg 5) (.v 6) 1 1 false), .op (.viredmax (.reg 5) (.v 6) 1 1), .op (.vexp2 (.reg 5) (.v 6) 1 1 0),
    .op (.vlog2 (.reg 5) (.v 6) 1 1 0), .op (.vrsqrt (.reg 5) (.v 6) 1 1 0), .op (.vtanh (.reg 5) (.v 6) 1 1 0),
    .op (.vsinpi (.reg 5) (.v 6) 1 1 0), .op (.vcospi (.reg 5) (.v 6) 1 1 0), .op (.verf (.reg 5) (.v 6) 1 1 0),
    .op (.vsigm (.reg 5) (.v 6) 1 1 0)] := by decide +kernel

theorem test_decode_masks_and_moments : words [
    ⟨2, false, 0, 0x58104100⟩, ⟨2, false, 0, 0x58104101⟩, ⟨2, false, 0, 0x58104102⟩, ⟨2, false, 0, 0x58104103⟩,
    ⟨2, false, 0, 0x5C518700⟩, ⟨2, false, 0, 0x80318704⟩, ⟨2, false, 0, 0x805D0005⟩, ⟨2, false, 0, 0x805D0006⟩,
    ⟨2, false, 0, 0x803D0007⟩, ⟨2, false, 0, 0x843D3524⟩, ⟨2, false, 0, 0x883D3524⟩, ⟨2, false, 0, 0x8C3D3504⟩,
    ⟨2, false, 0, 0x903D0704⟩, ⟨2, false, 0, 0x943D0004⟩, ⟨2, false, 0, 0x943D0005⟩, ⟨2, false, 0, 0x943D0006⟩,
    ⟨2, false, 0, 0x943D0007⟩, ⟨2, false, 0, 0x985D0004⟩, ⟨2, false, 0, 0x985D0705⟩, ⟨2, false, 0, 0x985D0706⟩,
    ⟨2, false, 0, 0x985D0007⟩] = [
    .op (.kand 1 1 1), .op (.kor 1 1 1), .op (.kxor 1 1 1), .op (.kandn 1 1 1), .op (.vsel (.reg 5) (.v 6) (.v 7) 0),
    .op (.mmake 3 (.v 6) (.v 7) 1), .op (.mgetm (.reg 5) 4 1), .op (.mgetv (.reg 5) 4 1), .op (.mmov 3 4 1),
    .op (.madd 3 4 5 (.v 9) 0), .op (.msub 3 4 5 (.v 9) 0), .op (.mmul 3 4 5 1), .op (.mscale 3 4 (.g 7) 1),
    .op (.mrelu 3 4 1), .op (.mexp 3 4 1), .op (.msigm 3 4 1), .op (.mgelu 3 4 1), .op (.mcmean (.reg 5) 4 1),
    .op (.mchi (.reg 5) 4 (.g 7) 1), .op (.mclo (.reg 5) 4 (.g 7) 1), .op (.mcdraw (.reg 5) 4 1)] := by decide +kernel

theorem test_decode_matrix : words [
    ⟨3, false, 0, 0x04380527⟩, ⟨3, false, 0, 0x08380527⟩, ⟨3, false, 0, 0x08780527⟩, ⟨3, false, 0, 0x0C380527⟩,
    ⟨3, false, 0, 0x10000320⟩, ⟨3, false, 0, 0x10400325⟩, ⟨3, false, 0, 0x10800325⟩, ⟨3, false, 0, 0x10C00325⟩,
    ⟨3, false, 0, 0x11000325⟩, ⟨3, false, 0, 0x11400325⟩, ⟨3, false, 0, 0x14380527⟩, ⟨3, false, 0, 0x14780527⟩,
    ⟨3, false, 0, 0x18380527⟩, ⟨3, false, 0, 0x18780527⟩, ⟨3, false, 0, 0x1C000000⟩] = [
    .op (.mma 3 true 5 7 false false false false 1), .op (.mmasa 3 true 5 7 false false false false 1),
    .op (.mmasb 3 true 5 7 false false false false 1), .op (.mmam 3 true 5 7 false 1), .op (.azero 3 0 1),
    .op (.aget 3 5 0 false 1), .op (.agetNw 3 5 0 false 1), .op (.amget 3 5 0 1), .op (.amgetNw 3 5 0 1),
    .op (.aput 3 5 0 false 1), .op (.drain 3 true 5 7 0 false false 1), .op (.drainq 3 true 5 7 false false 1),
    .op (.arsum 3 true 5 7 false false false 1), .op (.acsum 3 true 5 7 false false false 1), .op .mwait] := by decide +kernel

theorem test_decode_memory : words [
    ⟨3, false, 0, 0x405180C9⟩, ⟨3, false, 0, 0x50518189⟩, ⟨3, true, 1, 0x5039C002⟩, ⟨3, true, 2, 0x50518049⟩,
    ⟨3, true, 3, 0x50518181⟩, ⟨3, false, 0, 0x54518149⟩, ⟨3, false, 0, 0x5C518149⟩, ⟨3, false, 0, 0x60518049⟩,
    ⟨3, false, 0, 0x64518149⟩] = [
    .op (.ldSpl (.narrow 1 (.reg 5)) (.g 6) true true 1), .op (.putSpp (.narrow 1 (.g 5)) (.g 6) 2 true 1),
    .op (.putfSpp   (.narrow 0 (.g 3))   (.q 7)   0   0   false   2), .op (.raddSpp (.g 5) (.g 6) 1 1),
    .op (.rcopySpp 5 (.g 6) 2 true 1), .op (.ldHbm (.narrow 1 (.reg 5)) (.g 6) 5 1),
    .op (.amo (.g 5) (.g 6) 5 true 0 0 1), .op (.putPhm (.narrow 1 (.g 5)) (.g 6) 1 1),
    .op (.ldHst (.narrow 1 (.reg 5)) (.g 6) 5 1)] := by decide +kernel

theorem test_decode_tags_and_waits : words [
    ⟨3, false, 0, 0x6C00A301⟩, ⟨3, false, 0, 0x6C40A001⟩, ⟨3, false, 0, 0x6C80A001⟩, ⟨3, false, 0, 0x6CC0A301⟩,
    ⟨3, false, 0, 0x7000A301⟩, ⟨3, false, 0, 0x7040A301⟩, ⟨3, false, 0, 0x7400A301⟩, ⟨3, false, 0, 0x7440A001⟩,
    ⟨3, false, 0, 0x7480A001⟩, ⟨3, false, 0, 0x74C0A001⟩, ⟨3, false, 0, 0x7800A329⟩, ⟨3, false, 0, 0x784002A1⟩,
    ⟨3, false, 0, 0x78800019⟩, ⟨3, false, 0, 0x7C000019⟩] = [
    .op (.parm (.g 5) (.g 6) 1), .op (.prel (.g 5) 1), .op (.pfill (.g 5) 1), .op (.pget (.reg 6) (.g 5) 1),
    .op (.fwait (.g 5) (.g 6) 1), .op (.fwaitne (.g 5) (.g 6) 1), .op (.binit (.g 5) (.g 6) 1), .op (.barrive (.g 5) 1),
    .op (.bwait (.g 5) 1), .op (.binval (.g 5) 1), .op (.qput (.g 5) (.g 6) 5 0 0 1), .op (.qpop (.reg 5) 4 false 1),
    .op (.qdone 3 1), .op (.fence 3 0 1)] := by decide +kernel

theorem test_decode_engines_and_macros : words [
    ⟨3, false, 0, 0x8038E4B9⟩, ⟨3, false, 0, 0x8400A329⟩, ⟨3, false, 0, 0x844002A1⟩, ⟨3, false, 0, 0x8800A000⟩,
    ⟨3, false, 0, 0x8C00A000⟩, ⟨3, false, 0, 0x9000A329⟩, ⟨3, false, 0, 0x9040A301⟩, ⟨3, false, 0, 0x94000001⟩,
    ⟨3, false, 0, 0x9800A301⟩, ⟨3, false, 0, 0x98400281⟩] = [
    .op (.copy 3 true 7 (.reg 9) 7 0 false false 1), .op (.cchain (.reg 6) (.g 5) 5 1), .op (.cwait 4 (.g 5) 1),
    .coll (.g 5), .rsend (.g 5), .op (.macroRun (.g 5) 101 1), .op (.mcld (.g 5) (.g 6) 1), .op (.ntile 1),
    .op (.rngseed (.g 5) (.g 6) false 1), .rngpop (.reg 5) 1] := by decide +kernel

/-! ### Ill-formed terms (R99..R110): each check of WellFormed refuses one -/

theorem test_wf_refuses_scalar : ∀ i ∈ [Instr.ldis .tr (.g 0) (.wide 32 0) 0, .cmp 1 0 3 (.g 0) (.g 0) 0,
    .ldSplSm .tr (.g 0) (.narrow 0) 7 0, .stSplSm (.g 0) (.g 0) (.narrow 0) 2 0, .shwMs 0 18 (.g 0) (.narrow 0) 0,
    .shwXs 0 9 (.g 0) (.narrow 0) 0, .loop 0 (.g 1) 0], i.wf = false := by decide +kernel

theorem test_wf_refuses_vector : ∀ i ∈ [Instr.vadd .tr .b0 .b0 3 0 0, .vsub .tr .b0 .b0 0 0 5, .vmin .tr .b0 .b0 7 0 0,
    .vmax .tr .b0 .b0 0 0 7, .vmul .tr .b0 .b0 4 0 0, .vdiv .tr .b0 .b0 0 0 6, .vabs .tr .b0 3 0 0, .vneg .tr .b0 0 0 5,
    .vsqrt .tr .b0 5 0 0, .vrcp .tr .b0 0 0 5, .vfrac .tr .b0 6 0 0, .vclass .tr .b0 7 0 0, .vfma .tr .b0 .b0 .b0 3 0 0,
    .vfms .tr .b0 .b0 .b0 0 0 5, .vfnma .tr .b0 .b0 .b0 3 0 0, .vfnms .tr .b0 .b0 .b0 0 0 5, .viadd .tr .b0 .b0 2 0,
    .visub .tr .b0 .b0 3 0, .viadds .tr .b0 .b0 4 0, .visubs .tr .b0 .b0 2 0, .vimul .tr .b0 .b0 3 0 true,
    .vimulh .tr .b0 .b0 4 0, .vimin .tr .b0 .b0 2 0, .vimax .tr .b0 .b0 3 0, .vsll .tr .b0 .b0 4 0, .vsrl .tr .b0 .b0 2 0,
    .vsra .tr .b0 .b0 3 0, .vrol .tr .b0 .b0 4 0, .vicmpEq 1 .b0 .b0 0 0, .vicmpLt 1 .b0 .b0 2 0, .vicmpLe 1 .b0 .b0 6 0,
    .vicmpLtu 1 .b0 .b0 7 0, .vfredsum .tr .b0 3 0 0, .vfredmax .tr .b0 0 0 4, .viredsum .tr .b0 2 0 true,
    .viredmax .tr .b0 4 0, .vexp2 .tr .b0 3 0 0, .vlog2 .tr .b0 0 0 5, .vrsqrt .tr .b0 3 0 0, .vtanh .tr .b0 0 0 5,
    .vsinpi .tr .b0 3 0 0, .vcospi .tr .b0 0 0 5, .verf .tr .b0 3 0 0, .vsigm .tr .b0 0 0 5], i.wf = false := by
  decide +kernel

theorem test_wf_refuses_conversion : ∀ i ∈ [Instr.vcvtFf .tr .b0 5 0 0 0 0 false, .vcvtFf .tr .b0 0 5 0 0 0 false,
    .vcvtFf .tr .b0 1 1 0 0 0 false, .vcvtFf .tr .b0 0 1 0 2 0 false, .vcvtFf .tr .b0 0 1 0 0 5 false,
    .vcvtFf .tr .b0 0 1 0 0 0 true, .vcvtFi .tr .b0 10 0 0 0 0 false, .vcvtFi .tr .b0 0 2 0 0 0 false,
    .vcvtFi .tr .b0 5 5 0 0 0 false, .vcvtFi .tr .b0 0 6 0 2 0 false, .vcvtFi .tr .b0 0 6 0 0 5 false,
    .vcvtFi .tr .b0 5 0 0 0 0 true], i.wf = false := by decide +kernel

theorem test_wf_refuses_memory : ∀ i ∈ [Instr.drain 0 false 0 0 5 false false 0, .ldSpl (.narrow 7 .tr) (.g 0) false false 0,
    .ldSpl (.vec .tr 1 false) (.g 0) false false 0, .ldSpl (.vec .tr 0 true) (.g 0) false false 0,
    .stSpl (.narrow 4 (.g 0)) (.g 0) 0, .stSpl (.vec .b0 1 false) (.g 0) 0, .ldSpk (.narrow 0 .tr) (.g 0) 0 0,
    .stSpk (.vec .b0 0 true) (.g 0) false 0, .putSpp (.narrow 0 (.g 0)) (.g 0) 3 false 0,
    .putfSpp (.narrow 6 (.g 0)) (.g 0) 0 0 false 0, .raddSpp (.g 0) (.g 0) 3 0, .rcopySpp 0 (.g 0) 0 false 0,
    .rcopySpp 31 (.g 0) 0 false 0, .rcopySpp 1 (.g 0) 3 false 0, .ldHbm (.vec .tr 0 true) (.g 0) 1 0,
    .ldHbm (.narrow 0 .tr) (.g 0) 0 0, .stHbm (.vec .b0 6 true) (.g 0) 0, .putPhm (.narrow 0 (.g 0)) (.g 0) 3 0,
    .ldHst (.narrow 0 .tr) (.g 0) 0 0, .stHst (.narrow 2 (.g 0)) (.g 0) 0], i.wf = false := by decide +kernel

theorem test_wf_refuses_the_rest : ∀ i ∈ [Instr.amo (.g 2) (.g 1) 6 false 5 0 0, .amo (.g 2) (.g 1) 6 false 0 11 0,
    .amo (.g 2) (.g 1) 0 false 0 8 0, .amo (.g 31) (.g 1) 6 false 0 9 0, .amo (.c 0) (.g 1) 6 false 0 9 0,
    .amo (.g 2) (.g 1) 6 false 0 10 0, .qput (.g 0) (.g 0) 0 7 0 0, .qput (.g 0) (.g 0) 0 0 3 0, .fence 5 0 0, .fence 2 1 0,
    .copy 0 false 0 .tr 0 0 false false 0, .copy 0 false 31 .tr 0 0 false false 0, .copy 0 false 1 .tr 0 3 false false 0],
    i.wf = false := by decide +kernel

/-! ### Witnesses: small states that meet the hypotheses of the statements, clause by clause -/

/-- A machine with a task (context 1, partition 0, job 0) running at supervisor level on core 0. -/
def s0 : State := State.reset.withFetchWord 32 0

/-- With a change of the slot, of its general registers, of the device and of the memories. -/
def onMe (f : Thread → Thread) : State := { s0 with me := f s0.me }
def on (s : State) (f : Thread → Thread) : State := { s with me := f s.me }
def withG (s : State) (i : U5) (x : U64) : State := { s with me := { s.me with regs := s.me.regs.writeG i x } }
def onDev (f : Dev → Dev) : State := { s0 with dev := f s0.dev }
def onMems (f : Mems → Mems) : State := { s0 with mems := f s0.mems }
def user : State := onMe fun t => { t with priv := false }

/-- A result in flight that lands at this boundary. -/
def due (r : Res) (stat : U16) : Infl := ⟨0, false, 1, stat, r, none⟩
def flying (e : Infl) : State := onMe fun t => { t with infl := [e] }

theorem witness_ResultsLand_scalar : ∀ e ∈ [due (.g (.reg 0) 5 true) 0x0800, due (.g (.reg 31) 5 false) 0, due (.g .tr 5 true) 0,
    { due (.g (.reg 3) 5 true) 0 with noq := true }],
    (flying e).me.due = some e ∧ e.load = none := by decide +kernel
theorem witness_ResultsLand_vector : ∀ e ∈ [due (.v (.reg 31) 7 1) 0x0001, { due (.v .tr 7 0) 0 with noq := true }],
    (flying e).me.due = some e ∧ e.load = none := by decide +kernel
theorem witness_ResultsLand_others : ∀ r ∈ [Res.m 15 7 1, .p 0 true true, .p 7 true true, .k 0 5 5, .k 7 5 1, .tc 3 9],
    (flying (due r 0)).me.due = some (due r 0) ∧ (due r 0).load = none ∧ (due r 0).stat = 0 := by decide +kernel

theorem witness_ResultInstructionsFrame : resultOnly (.add (.reg 3) (.g 1) (.g 2) 0) = true ∧
    resultOnly (.mcdraw (.reg 3) 1 0) = true ∧ s0.me.iss.res = .issued := by decide +kernel

theorem witness_ImmediateResults : (31 : Byte).toNat < 32 := by decide
theorem witness_OperandsRead : (31 : U6).toNat < 32 ∧ 32 ≤ (32 : U6).toNat ∧ (47 : U6).toNat < 48 ∧ 48 ≤ (48 : U6).toNat := by
  decide

theorem witness_SpecialRegisterWritesLand_split : (false = s0.core.rsplit) ∧ (true ≠ s0.core.rsplit) := by decide +kernel
theorem witness_SpecialRegisterWritesLand_transfer :
    let v : U64 := 2047 ||| (0 <<< 16)
    let u : U64 := 2047 ||| (1 <<< 16)
    granuleCount s0.core = 2048 ∧ ¬ granuleCount s0.core ≤ v.toNat % 2 ^ 11 + v.toNat / 2 ^ 16 % 2 ^ 11 ∧
      granuleCount s0.core ≤ u.toNat % 2 ^ 11 + u.toNat / 2 ^ 16 % 2 ^ 11 ∧ ¬ 16 ≤ s0.me.mq.length := by decide +kernel

/-- A partition of two clusters, with the scheduling parameters that R316 admits. -/
def sched0 : Sched := ⟨1, 0, 1000, Vector.replicate 8 0, Vector.replicate 8 0, 0, 0⟩
def part0 : Part := ⟨1, 3, 2, 2, false, 1, sched0, none, [], [], 0, [], none, 0, 0, 0, 0, none, none, [], false⟩
/-- A machine whose task belongs to it. -/
def inPart : State :=
  on (onDev fun d => { d with parts := [part0] }) fun t => { t with bound := t.bound.map fun b => { b with part := 1 } }

theorem witness_SpecialRegisterWritesLand_log : inPart.dev.part inPart.me.part = some part0 := by decide +kernel

theorem witness_SpecialRegisterAccesses_read :
    sprInfo s0.core 0x000 = some ⟨0, true, 0⟩ ∧ sprInfo s0.core 0x031 = some ⟨32, false, 1⟩ ∧
      (s0.src (srcOf 0)).toNat < 32 ∧ s0.me.priv = true ∧ sprInfo s0.core 0x7FF = none ∧ s0.pred 0 = true ∧
      sprInfo user.core 0x031 = some ⟨32, false, 1⟩ ∧ sprInfo user.core 0x030 = some ⟨0, false, 1⟩ ∧ user.me.priv = false := by
  decide +kernel
theorem witness_SpecialRegisterAccesses_beyond :
    let s := withG s0 5 32
    let t := withG s0 5 31
    let c := withG s0 5 295
    sprInfo s.core 0x031 = some ⟨32, false, 1⟩ ∧ 32 ≤ (s.src (srcOf 5)).toNat ∧ (t.src (srcOf 5)).toNat < 32 ∧
      (c.src (srcOf 5)).toNat < 296 := by decide +kernel
theorem witness_SpecialRegisterAccesses_write :
    sprInfo s0.core 0x070 = some ⟨0, false, 1⟩ ∧ sprInfo s0.core 0x072 = some ⟨0, false, 0⟩ ∧
      sprInfo user.core 0x070 = some ⟨0, false, 1⟩ ∧ sprInfo user.core 0x080 = some ⟨0, true, 2⟩ ∧ user.me.priv = false ∧
      (onMe fun t => { t with regs := { t.regs with p := t.regs.p.set 1 false } }).pred 1 = false := by decide +kernel

theorem witness_BranchesTransferControl :
    (withG s0 3 0x40).pred 0 = true ∧ s0.pred 1 = false ∧ ((withG s0 3 0x40).src (.g 3)).toNat % 16 = 0 ∧
      ((withG s0 3 0x48).src (.g 3)).toNat % 16 ≠ 0 := by decide +kernel

theorem witness_LoopsStartAndClear : lactOk s0.me.loop.lact = true ∧ lactOk 0x301 = false ∧
    lactOk 0x101 = false ∧ lactOk 0xFF = false ∧ lactOk (lactOf [7, 6, 5, 4, 3, 2, 1, 0]) = true := by decide +kernel

/-- A slot with one loop active that ends at the bundle in progress, with a count. -/
def looping (c : U64) : State :=
  onMe fun t => { t with loop := { t.loop with lact := lactOf [2], lcnt := t.loop.lcnt.set 2 c } }

theorem witness_LoopsTakeTheBackEdge : (looping 0).me.run = .running ∧ (looping 0).me.iss.taken = false ∧
    loopOrder (looping 0).me.loop.lact = [2] ∧
    ((looping 0).me.loop.lend.toList.getD 2 0 == pcAddr (looping 0).me.iss.bpc) = true ∧
    ¬ 1 < (looping 0).me.loop.lcnt[2].toNat ∧ ¬ 1 < (looping 1).me.loop.lcnt[2].toNat ∧ 1 < (looping 2).me.loop.lcnt[2].toNat ∧
    loopOrder s0.me.loop.lact = [] := by decide +kernel

/-- A slot whose user vector is set, one that delegates cause 0x10, and one in its first and its second handler. -/
def delegating : State := onMe fun t => { t with priv := false, trap := { t.trap with uvec := 0x100, tdeleg := 1 } }
def inUser : State := on delegating fun t => { t with f0 := some ⟨false, [], Vector.replicate 16 0, Vector.replicate 3 0⟩ }
def inBoth : State := on inUser fun t => { t with f1 := some ⟨true, [], Vector.replicate 16 0, Vector.replicate 3 0⟩ }
def inSup : State := onMe fun t => { t with f0 := some ⟨true, [], Vector.replicate 16 0, Vector.replicate 3 0⟩ }

theorem witness_TrapEntry_user : ((0x31 : Byte) = 0x31 ∨ (0x31 : Byte) = 0x32) ∧ (∃ x ∈ delegBit, x.1 = 0x10 ∧
    delegating.me.trap.tdeleg.getLsbD x.2 = true) ∧ delegating.me.trap.uvec ≠ 0 ∧ delegating.me.f0 = none := by decide +kernel
theorem witness_TrapEntry_supervisor : (¬ ∃ x ∈ delegBit, x.1 = 0x41 ∧ delegating.me.trap.tdeleg.getLsbD x.2 = true) ∧
    s0.me.trap.uvec = 0 ∧ s0.me.f0 = none ∧ inUser.me.f0 = some ⟨false, [], Vector.replicate 16 0, Vector.replicate 3 0⟩ ∧ inUser.me.f1 = none := by decide +kernel
theorem witness_TrapEntry_double : inSup.me.f0 = some ⟨true, [], Vector.replicate 16 0, Vector.replicate 3 0⟩ ∧ inBoth.me.f0 = some ⟨false, [], Vector.replicate 16 0, Vector.replicate 3 0⟩ ∧
    inBoth.me.f1.isSome = true := by decide +kernel

theorem witness_ReturnsFromTraps : s0.pred 0 = true ∧ s0.me.priv = true ∧ inUser.me.priv = false ∧
    inUser.me.top = some ⟨false, [], Vector.replicate 16 0, Vector.replicate 3 0⟩ ∧ inSup.me.top = some ⟨true, [], Vector.replicate 16 0, Vector.replicate 3 0⟩ ∧ s0.me.top = none := by decide +kernel

theorem witness_SupervisorInstructionsTrapAtUserLevel : user.me.priv = false := by decide +kernel

theorem witness_TranslationMaintenance : s0.me.priv = true ∧ s0.pred 0 = true ∧
    ((onDev fun d => { d with removals := [⟨31, 159, true, some (7, some 0x10000)⟩, ⟨0, 0, false, none⟩] }).dev.removals.find?
      fun r => r.cl == 0) = some ⟨0, 0, false, none⟩ := by decide +kernel

theorem witness_FramesAreDropped : s0.pred 0 = true ∧ s0.me.top = none ∧ inUser.me.top = some ⟨false, [], Vector.replicate 16 0, Vector.replicate 3 0⟩ ∧
    (onMe fun t => { t with priv := false, f0 := some ⟨true, [], Vector.replicate 16 0, Vector.replicate 3 0⟩ }).me.top = some ⟨true, [], Vector.replicate 16 0, Vector.replicate 3 0⟩ ∧
    inSup.me.priv = true := by decide +kernel

theorem witness_RoundingChoosesTheAdjacentValue : (⟨3, 0⟩ : Dy).n ≠ 0 ∧
    (∀ F ∈ [fp32, bf16, fp16, e4m3, e5m2], ∀ rm ∈ [0, 1, 2, 3],
      (fround F rm false 0 (Dy.toEx ⟨3, 0⟩)).fl.getLsbD 2 = false ∧ (fround F rm false 0 (Dy.toEx ⟨-1, -300⟩)).fl.getLsbD 2 = false ∧
      finiteBits F F.one = true) := by decide +kernel

theorem witness_FloatingArithmetic : (0 : U3).toNat < 3 ∧ (2 : U3).toNat < 3 ∧ (2 : U2).toNat < 3 ∧ (⟨-1, 0⟩ : Dy).n < 0 ∧
    s0.me.rnq ≠ [] ∧ (onMe fun t => { t with rnq := [] }).me.rnq = [] := by decide +kernel
theorem witness_FusedMultiplyAdd : (2 : U2).toNat < 3 := by decide
theorem witness_FloatingSelections : (2 : U3).toNat < 3 := by decide
theorem witness_ElementaryFunctions : fp16 ∈ [fp32, bf16, fp16] ∧ 4 < 5 := by decide
theorem witness_IntegerVectors : okInt 0 = true ∧ okInt 1 = true ∧ okInt 5 = true ∧ okInt 7 = true := by decide
theorem witness_LogicShiftsMasksAndSelect : okInt 0 = true ∧ okInt 1 = true ∧ okInt 7 = true := by decide
theorem witness_VectorCompares : (1 : U3) = 1 ∨ (1 : U3) = 5 := by decide
theorem witness_Conversions : okCvtFf 0 4 3 4 true = true ∧ okCvtFf 4 0 3 0 false = true ∧ okCvtFf 1 2 0 4 false = true ∧
    okCvtFi 0 1 1 3 false = true ∧ okCvtFi 9 3 3 4 true = true ∧ okCvtFi 8 4 0 0 true = true := by decide

/-- Lane masks with no lane, one lane and two lanes enabled. -/
def masked : State := onMe fun t => { t with regs := { t.regs with k := (t.regs.k.set 2 (2 ^ 63)).set 3 (3 <<< 62) } }

theorem witness_Reductions : (2 : U3).toNat < 3 ∧ (3 : U3).toNat < 4 ∧ okInt 7 = true ∧ okInt 1 = true ∧ masked.kmask 1 = 0 ∧
    masked.kmask 2 = 2 ^ 63 ∧ masked.kmask 3 = 3 <<< 62 ∧
    ((List.range 64).all fun e => (masked.kmask 1).getLsbD (e * 32 / 32) == false) = true ∧
    ((List.range 64).all fun e => (masked.kmask 2).getLsbD (e * 32 / 32) == (e == 63)) = true ∧
    ((List.range 64).all fun e => (masked.kmask 3).getLsbD (e * 32 / 32) == (e == 62 || e == 63)) = true := by decide +kernel

/-- A moment register whose means are 0 and whose first two variances are these. -/
def momOf (x y : Nat) : Mom := BitVec.ofNat 4096 ((x + y * 2 ^ 32) * 2 ^ 2048)

/-- A moment register with a NaN variance in lane 0 and a variance below zero in lane 1, under CLAMP and not, and one with
ordinary pairs alone. -/
def pairs (cl : Bool) : State := onMe fun t => { t with
  sp := { t.sp with mmode := if cl then 4 else 0 }
  regs := { t.regs with m := (t.regs.m.set 1 (momOf 0x7FC00000 0xBF800000)).set 2 (momOf 0x3F800000 0x40000000) } }
def lanes (s : State) (a : U4) (j : Nat) : LaneOps := ⟨[momPair (s.msrc a) j], [], []⟩

theorem witness_MomentMovesAndCollapses : ((pairs false).kmask 0).getLsbD 0 = true ∧
    (lanes (pairs false) 1 0).domain = true ∧ (lanes (pairs false) 1 1).domain = false ∧ (lanes (pairs false) 1 1).negVar = true ∧
    (lanes (pairs true) 1 1).negVar = true ∧ (pairs true).me.sp.mmode.getLsbD 2 = true ∧
    ((List.range 64).all fun j => !(lanes (pairs false) 2 j).domain && !(lanes (pairs false) 2 j).negVar &&
      !negative ((lanes (pairs false) 2 j).value (on1 id)).v) = true := by decide +kernel
theorem witness_MomentArithmetic : (s0.me.sp.mmode.toNat % 4 ≠ 3 ∧ VSrc.v 5 ≠ .v 0) ∧
    (onMe fun t => { t with sp := { t.sp with mmode := 3 } }).me.sp.mmode.toNat % 4 = 3 ∧
    negative ((lanes (pairs false) 2 0).value (on1 (momentScale 0x3F800000))).v = false := by decide +kernel

/-! Products. The shapes name the fields of R179 by number: 4 M, 5 N, 6 K, 7 and 8 the strides, 9 and 10 the formats,
13 the layouts, 14 the scaling, 15 and 16 the cores, 17 the output format. -/

/-- A matrix shape from its fields. -/
def shape (l : List (Nat × Nat)) : U128 :=
  l.foldl (fun x y => setField x (msField (BitVec.ofNat 5 y.1)).1 (msField (BitVec.ofNat 5 y.1)).2 y.2) 0
/-- The context owns the accumulator store and has this shape live. -/
def owning (sh : U128) : State := onMe fun t => { t with
  cx := { t.cx with accown := 0x8000000000000001 }, regs := { t.regs with msL := t.regs.msL.set 0 sh } }

theorem rowsWithin_of {base stride n size rows : Nat}
    (h : ((List.range rows).all fun r => decide (base + stride * r + n ≤ size)) = true) : RowsWithin base stride n size rows :=
  fun r hr => by simpa using (List.all_eq_true.mp h) r (List.mem_range.mpr hr)

def shDense : U128 := shape [(4, 32), (5, 96), (6, 4), (7, 1), (8, 1), (9, 4), (10, 4), (13, 0)]
def shSparse : U128 := shape [(4, 1), (5, 1), (6, 4), (7, 1), (8, 1), (9, 2), (10, 2), (1, 1)]
def shMoment : U128 := shape [(4, 1), (5, 33), (6, 1), (7, 1), (8, 64), (9, 2), (10, 6)]

/-- An entry of the matrix queue. -/
def entry (i : Instr) (st : Bool) : MqEntry := ⟨.ins i, false, 0, 0, 0, 0, 0, s0.core.tabs, [], 0, st⟩

theorem witness_ProductsEnterTheQueue_dense : (owning shDense).productOk .dense shDense 0 2045 true ∧
    (owning shDense).pred 0 = true ∧ (owning shDense).me.queueTaken < 16 ∧
    (owning shDense).liveShape 0 false = shDense := by
  unfold State.productOk State.shapeOk State.modsOk State.tileOk State.owns State.mayRead Operand.within RowsWithin
  dsimp only
  and_intros <;> decide +kernel
theorem witness_ProductsEnterTheQueue_sparse : (owning shSparse).productOk .sparseA shSparse 0 2047 false ∧
    (owning shSparse).productOk .sparseB shSparse 0 0 false ∧ (owning shMoment).productOk .moment shMoment 0 2044 false := by
  unfold State.productOk State.shapeOk State.modsOk State.tileOk State.owns State.mayRead Operand.within RowsWithin
  dsimp only
  and_intros <;> decide +kernel
-- The slot's entry is still to read row 0 of B, which lies in the cell behind A: an own store there waits (R186).
theorem witness_ScratchpadLoadsAndStores_ahead :
    (on (owning shDense) fun t => { t with mq := [{ entry (.mma 0 false 0 0 false false false false 0) false with
      shape := shDense }] }).readAhead 0 4 = true := by decide +kernel

def shDrain (f : Nat) : U128 := shape [(4, 32), (5, 96), (6, 4), (7, 24), (8, 1), (9, 4), (10, 4), (17, f)]

theorem witness_OtherEntriesEnterTheQueue :
    (∀ f ∈ [0, 4, 5, 7], (owning (shDrain f)).tileOk (shDrain f) ∧ (owning (shDrain f)).owns ∧
      2045 + (shf (shDrain f) 5 + 31) / 32 ≤ granuleCount s0.core ∧ shf (shDrain f) 17 = f ∧
      shf (shDrain f) 2 * 1024 + 16 * shf (shDrain f) 5 ≤ s0.splSize) ∧
    (∀ n ∈ [384, 96], RowsWithin 0 384 n s0.splSize 32) ∧ 2047 + 1 ≤ granuleCount s0.core ∧
    (let o := (owning shDense).opA shDense 0 s0.core.tabs false
     o.fmt = 4 ∧ o.scaled = false ∧ o.within 32 4 ∧ (owning shDense).mayRead 0) := by
  refine ⟨?_, ?_, by decide +kernel, by decide +kernel, by decide +kernel, rowsWithin_of (by decide +kernel), .inl rfl⟩
  · unfold State.tileOk State.owns
    decide +kernel
  · intro n hn
    simp only [List.mem_cons, List.not_mem_nil, or_false] at hn
    rcases hn with rfl | rfl <;> exact rowsWithin_of (by decide +kernel)

theorem witness_AccumulatorReads : (owning 0).pred 0 = true ∧ (owning 0).owns ∧ 2047 + 1 ≤ granuleCount (owning 0).core ∧
    2046 + 2 ≤ granuleCount (owning 0).core ∧ 2046 % 2 = 0 ∧ (owning 0).me.mq = [] ∧
    (owning 0).me.sp.mfault.getLsbD 63 = false ∧ (owning 0).me.sp.mecc.getLsbD 63 = false ∧ (owning 0).me.priv = true := by
  unfold State.owns
  decide +kernel

theorem witness_MatrixElements : ∀ i ∈ [Instr.mma 0 false 0 0 false false false false 0, .mmasa 0 false 0 0 false false false false 0,
      .mmasb 0 false 0 0 false false false false 0, .mmam 0 false 0 0 false 0, .azero 0 0 0, .aput 0 0 0 false 0,
      .drain 0 false 0 0 0 false false 0, .drainq 0 false 0 0 false false 0, .arsum 0 false 0 0 false false false 0,
      .acsum 0 false 0 0 false false false 0],
    let e := { entry i true with shape := shDense }
    let s := on (owning shDense) fun t => { t with mq := [e] }
    s.me.mq = e :: [] ∧ e.started = true ∧ e.op = .ins i ∧ s.dev.bad = [] ∧ s.dev.weak = [] ∧ shf e.shape 4 ≤ 32 ∧
      shf e.shape 5 ≤ 96 ∧ (s.opA shDense 0 s.core.tabs false).fmt = 4 ∧ shf shDense 17 ≤ 4 ∧
      (s.opA shSparse 0 s.core.tabs false).fmt ≠ 4 := by decide +kernel
theorem witness_MatrixElements_inv (e : MqEntry) : State.Inv (on (owning shDense) fun t => { t with mq := [e] }) := by
  unfold State.Inv; dsimp only [on]; decide +kernel
theorem witness_MatrixElements_drain : ∀ f ∈ [0, 3, 5, 7], let sh := shape [(4, 32), (5, 96), (6, 4), (7, 24), (8, 1), (9, 4), (10, 4), (17, f)]
    (if f = 0 ∨ f = 7 then 4 else 1) * shf sh 5 ≤ 16 * shf sh 7 ∧ shf sh 17 = f := by decide +kernel

/-! Memory. -/

/-- The last cell of core 0's scratchpad is full, and its last word holds 7. -/
def stored : State := onMems fun m => (m.setByte .spl 786428 7).setTag 767 ⟨true, 1024, 1024⟩

theorem stored_inv : stored.Inv := by unfold State.Inv; decide +kernel

theorem witness_ScratchpadLoadsAndStores : stored.Inv ∧ stored.pred 0 = true ∧ stored.splSize = 786432 ∧
    stored.splQuiet 786428 4 ∧ stored.splSound 786428 4 ∧ stored.place.cell 786428 ∉ stored.dev.badTags ∧ stored.dev.weak = [] ∧
    (stored.mems.tag (stored.place.cell 786428)).full = true ∧ (stored.mems.tag (stored.place.cell 0)).full = false ∧
    stored.readAhead 786428 4 = false ∧ s0.pred 1 = false := by
  refine ⟨stored_inv, ?_⟩
  unfold State.splQuiet State.splSound
  decide +kernel

theorem witness_PresenceTags : stored.Inv ∧ stored.pred 0 = true ∧ stored.splSize = 786432 ∧
    ¬ stored.splSize ≤ (786431 : U64).toNat ∧ stored.splSize ≤ (786432 : U64).toNat ∧
    (∀ n ∈ [1, 1024], ¬ (n % 2048 = 0 ∨ 1024 < n % 2048)) ∧
    (∀ n ∈ [0, 1025], n % 2048 = 0 ∨ 1024 < n % 2048) ∧
    (0 : Nat) ∈ (onDev fun d => { d with badTags := [0] }).dev.badTags := by
  exact ⟨stored_inv, by decide +kernel⟩

theorem witness_TablesAndControlStore : isS s0.core.phys = false ∧ s0.pred 0 = true ∧ s0.splQuiet 0 32 ∧ s0.splSound 0 32 ∧
    s0.generationsHeld 16 = false ∧ s0.splQuiet 0 (16 * 1024) ∧ s0.splSound 0 (16 * 1024) ∧
    (onMe fun t => { t with regs := { t.regs with p := t.regs.p.set 1 false } }).pred 1 = false := by
  unfold State.splQuiet State.splSound
  decide +kernel

/-- A job of two devices with one group, whose core 0 is this one; its segment entry lets everything in. -/
def job0 : Job := ⟨0, 1, 1, 0, [⟨true, true, 0⟩, ⟨true, true, 3⟩], [(0, ⟨true, 0, 1023, 0, 255, 0, 1048575, true, true, true⟩)],
  [⟨0, 0, false, 1⟩], [[0, 1]], 2, true⟩
def inJob : State := onDev fun d => { d with jobs := [job0] }
/-- An address of device 1, core 0, at an offset. -/
def podAddr (off : Nat) : U64 := BitVec.ofNat 64 (2 ^ 54 + off)
def remote : State := withG (withG (withG inJob 5 (podAddr 1024)) 6 (podAddr 2048)) 7 0

theorem witness_WritesToThePod : remote.pred 0 = true ∧ (remote.dev.unanswered remote.party remote.ctx 0) + 256 ≤ 256 ∧ remote.dev.net = [] ∧
    (remote.src (.g 5)).toNat % 256 = 0 ∧ (remote.src (.g 5)).toNat / 2 ^ 20 % 2 ^ 26 = 0 ∧
    remote.devValid ((remote.src (.g 5)).toNat / 2 ^ 54) = true ∧
    (remote.src (.g 5)).toNat % 2 ^ 20 / 1024 = ((remote.src (.g 5)).toNat % 2 ^ 20 + 1024 - 1) / 1024 ∧
    (remote.me.regs.readG 6).toNat / 2 ^ 46 = (remote.src (.g 5)).toNat / 2 ^ 46 ∧
    (remote.me.regs.readG 6).toNat / 2 ^ 20 % 2 ^ 26 = 0 ∧ (remote.me.regs.readG 6).toNat % 4 = 0 ∧
    (remote.src (.g 5)).toNat / 2 ^ 48 % 64 = 0 ∧ remote.dev.weak = [] ∧ remote.devValid 2 = false := by
  decide +kernel

-- Two rows of 16 bytes, the second 1024 bytes after the first (R222).
theorem witness_WritesToThePod_rows :
    let lo : U64 := BitVec.ofNat 64 (786432 - 1040 + 15 * 2 ^ 20 + 2 ^ 30)
    let hi : U64 := BitVec.ofNat 64 (1024 + 1024 * 2 ^ 20)
    (remote.rcopyCheck lo hi (podAddr 0) true (rcopyOf lo hi)).isOk = true ∧ (rcopyOf lo hi).rows = 2 ∧
      (rcopyOf lo hi).len = 16 ∧ remote.splQuiet 785392 16 ∧ remote.splSound 786416 16 := by
  unfold State.splQuiet State.splSound
  decide +kernel

/-- The task's first 64 KiB page: HBM at its start, and one that lies in host memory. -/
def pageOf (w : U64) : Pte := ⟨1, 0, 65536, w, false⟩
def mappedBy (w : U64) : State := on (onDev fun d => { d with jobs := [job0], tlb := [(0, [pageOf w])] }) id

theorem witness_AccessesBeyondTheCore : s0.pred 0 = true ∧ s0.tagsFree (ldUnits (.mom 0)) = true ∧
    2 ^ 48 - 8 + ldBytes (.narrow 0 .tr) ≤ 2 ^ 48 ∧ s0.pathFull 3 1 = false ∧
    (∃ q, (withG s0 5 0).spkCheck 0 8 = .ok q) ∧
    (s0.me.priv = true ∨ s0.me.sp.aemuc.getLsbD 0 = false) ∧ pteFmt (0x07 : U64) = 0 := by
  refine ⟨by decide +kernel, by decide +kernel, by decide +kernel, by decide +kernel, ⟨_, by rfl⟩, by decide +kernel⟩
theorem witness_AccessesBeyondTheCore_page (a : U64) (h : a = 0 ∨ a = 65528) : (mappedBy 0x07).onPage (pageOf 0x07) a 8 none ∧
    (mappedBy 0x0F).onPage (pageOf 0x0F) a 8 (some true) := by
  unfold State.onPage
  rcases h with rfl | rfl <;> exact ⟨by decide +kernel, by decide +kernel⟩

theorem witness_FlagsBarriersAndFences : stored.Inv ∧ stored.pred 0 = true ∧
    (786428 % 4 = 0 ∧ ¬ stored.splSize < 786428 + 4) ∧ stored.me.drainPending 786428 4 = false ∧ stored.me.watch = none ∧
    stored.mems.nat .spl (stored.place.at 786428) 4 = 7 ∧ stored.me.sp.rfault.getLsbD 63 = false ∧
    (inJob.myJob.bind fun j => j.groups[(0 : Byte).toNat]?) = some [0, 1] ∧
    (inJob.myJob.bind fun j => j.groups[(1 : Byte).toNat]?) = none := by
  exact ⟨stored_inv, by decide +kernel⟩

/-- A queue region of four entries of 16 bytes, enabled, with so many full and popped. -/
def queued (full pop : Nat) : State := onMe fun t => { t with sp := { t.sp with
  qcfg := t.sp.qcfg.set 15 (BitVec.ofNat 64 (2 ^ 63 + 64 * 2 ^ 20 + 1024)), qptr := t.sp.qptr.set 15 (BitVec.ofNat 64
    (full * 2 ^ 32 + pop * 2 ^ 16 + 3)) } }

theorem witness_QueueRegions : s0.pred 0 = true ∧ ((queued 0 0).me.sp.region 15).en = true ∧
    ((queued 0 0).me.sp.region 15).full = 0 ∧ ((queued 4 0).me.sp.region 15).full ≠ 0 ∧ ((queued 4 0).me.sp.region 15).pop = 0 ∧
    ((queued 0 4).me.sp.region 15).pop ≠ 0 ∧ ((queued 0 4).me.sp.region 15).cap = 4 ∧ (s0.me.sp.region 0).en = false ∧
    remote.splQuiet 786416 16 ∧ remote.splSound 786416 16 ∧ 786416 + 16 ≤ remote.splSize ∧ 786416 % 16 = 0 := by
  unfold State.splQuiet State.splSound
  decide +kernel

/-- A copy shape from its fields (R243): 0 the row's last byte, 1 and 2 the rows, 7 and 8 the spaces. -/
def copyShape (l : List (Nat × Nat)) : U128 :=
  l.foldl (fun x y => setField x (xsField (BitVec.ofNat 5 y.1)).1 (xsField (BitVec.ofNat 5 y.1)).2 y.2) 0

theorem witness_CopiesAndChains : s0.pred 0 = true ∧ (s0.copyCheck 0 0 0 true 0 true 0).isOk = true ∧
    (remote.copyCheck (copyShape [(0, 15), (1, 1), (4, 64), (8, 2)]) 0 (podAddr 0) true 2 false 15).isOk = true ∧
    s0.me.sp.cmask.getLsbD 15 = true ∧
    (onMe fun t => { t with sp := { t.sp with cmask := 0x7FFF } }).me.sp.cmask.getLsbD 15 = false := by
  decide +kernel

theorem witness_HeadersMacrosSeedsAndTiles : s0.pred 0 = true ∧ s0.me.mac.mpc.getLsbD 63 = false ∧
    (onMe fun t => { t with mac := { t.mac with mpc := 2 ^ 63 } }).me.mac.mpc.getLsbD 63 = true ∧
    (onMe fun t => { t with regs := { t.regs with p := t.regs.p.set 1 false } }).pred 1 = false := by decide +kernel

/-! Engines, records and events. -/

/-- A collective of one member (the group [0]), two buckets of 256 bytes, SIG at 64 and DONE at 128, whose descriptor is zero
but for GROUP, NBKT, LEN, SIGN and DONE (R258). -/
def collMem : Mems := ((((s0.mems.setByte .spl 4 2).setByte .spl 9 1).setByte .spl 12 1).setByte .spl 32 64).setByte .spl 36 128
def alone : Job := ⟨0, 1, 1, 0, [⟨true, true, 0⟩], [], [⟨0, 0, false, 1⟩], [[0]], 1, true⟩
def collecting : State := { onDev fun d => { d with jobs := [alone] } with mems := collMem }
def collOf (started done status : Nat) : Coll :=
  ⟨7, s0.me.who, 0, false, 0, collMem.read .spl 0 64, 64, true, started, started, done, 0, status, false, []⟩

theorem collecting_inv : collecting.Inv := by unfold State.Inv; decide +kernel

theorem witness_EngineRequests : collecting.Inv ∧ collecting.splQuiet 0 64 ∧ collecting.splSound 0 64 ∧
    collecting.dev.weak = [] ∧ collecting.dev.bad = [] ∧ collecting.dev.ctxs = [] ∧
    collecting.descOk (collOf 0 0 0) collecting.splSize = true ∧
    ((dispatchOf (zeroBytes 64)).cnt % 4 = 0 ∧ (dispatchOf (zeroBytes 64)).done % 4 = 0 ∧
      (dispatchOf (zeroBytes 64)).beyond s0.splSize = none) ∧ 786368 % 64 = 0 ∧ ¬ s0.splSize < 786368 + 64 := by
  refine ⟨collecting_inv, ?_⟩
  unfold State.splQuiet State.splSound
  decide +kernel

/-- The record of an empty frame at offset 0 (R373): its tag and size, and all else zero. -/
def recordMem : Mems := (((s0.mems.setByte .spl 0 1).setByte .spl 2 0xE1).setByte .spl 3 0xFA).setByte .spl 17 4
def recorded : State := { s0 with mems := recordMem }

theorem recorded_inv : recorded.Inv := by unfold State.Inv; decide +kernel

theorem witness_ReplayRecords : recorded.Inv ∧ recorded.me.priv = true ∧ recorded.pred 0 = true ∧ recorded.me.f0 = none ∧
    recorded.mems.nat .spl 16 8 = 1024 ∧ headerOk (recorded.mems.read .spl 0 1024) = true ∧
    (parseRecord (recorded.mems.read .spl 0 1024)).isSome = true ∧ recorded.splQuiet 0 1024 ∧ recorded.splSound 0 1024 ∧
    inSup.me.top = some ⟨true, [], Vector.replicate 16 0, Vector.replicate 3 0⟩ ∧ inSup.readAhead 0 1024 = false := by
  refine ⟨recorded_inv, ?_⟩
  unfold State.splQuiet State.splSound
  decide +kernel

/-- A machine with one message, of this slot, and a job. -/
def msgOf (k : MsgKind) (f : Msg → Msg) : Msg := f ((fun m : Msg => { m with id := 5 }) (s0.blank k))
def carrying (m : Msg) : State := onDev fun d => { d with jobs := [job0], net := [m] }
/-- Page tables at device address 0 whose first GiB maps itself. -/
def tableMem : Mems := ((s0.mems.setByte .hbm 0 1).setByte .hbm 1 0x10).setByte .hbm 0x1000 0x17
def walking (va : Nat) : State :=
  { onDev fun d => { d with parts := [part0], walks := [⟨0, 1, 0, va, 1, [(.slot 0 false, false)]⟩] } with mems := tableMem }
def loadOf (space : Nat) : LoadReq := ⟨0, space, 0, 1, false, 0, false, [], [(0, .leaf (pageOf 0x03))], true, s0.core.tabs⟩

theorem witness_CoreEvents_load : ∀ sp ∈ [1, 3],
    let m := msgOf (.load (loadOf sp)) id
    (carrying m).dev.msg 5 = some m ∧ m.stage = .flying ∧ (carrying m).ordered m = true ∧ m.src = .slot 0 false ∧
      (s0.me.bound.map (·.ctx)) = some m.ctx ∧ (carrying m).dev.bad = [] ∧ (carrying m).dev.weak = [] ∧
      (carrying m).placeAt m.core m.slot1 = some ⟨0, false, 0, 786432⟩ ∧ (carrying m).spkOpen m.core m.slot1 = true ∧
      ((carrying m).farValue (loadOf sp) m.slot.1).isOk = true := by decide +kernel

/-- A load in flight that is due. -/
def loading (ph : Phase) : Infl := ⟨0, false, 3, 0, .g (.reg 4) 9 true, some ⟨0, 1, 0, ph, none⟩⟩

theorem witness_CoreEvents_landing : ∀ ph ∈ [Phase.waiting, .ready], (flying (loading ph)).me.due = some (loading ph) ∧
    (loading ph).load = some ⟨0, 1, 0, ph, none⟩ := by decide +kernel
theorem witness_CoreEvents_fetch : (onDev fun d => { d with fetches := [(0x1000, .slot 0 false)] }).dev.fetches =
    [(0x1000, .slot s0.core.phys false)] ∧ s0.dev.bad = [] ∧ ∀ x ∈ s0.core.icache, x.1 ≠ 0x1000 := by decide +kernel
theorem witness_CoreEvents_walk : (walking 0).dev.walks.length = 1 ∧
    walkTables (walking 0).mems (walking 0).dev 1 1 0 0 = .leaf ⟨1, 0, 2 ^ 30, 0x17, false⟩ ∧
    walkTables (walking 0).mems (walking 0).dev 1 1 0 (2 ^ 39) = .fail 0x11 := by decide +kernel

/-- A macro at entry 0 of the control store, which holds an instruction of the matrix engine or none. -/
def macroAt (e : U128) : State :=
  { on (owning 0) fun t => { t with mac := { t.mac with mpc := 2 ^ 63 } } with mems := s0.mems.setCtl 0 e }
def engineIssues (i : Instr) (s : State) : Bool :=
  match runEngine i { s with me := s.me.begin 3 (s.macroEntry.extractLsb' 0 32) true } with
  | .next u => u.me.iss.res == .issued
  | _ => false

theorem witness_CoreEvents_macro : (macroAt 0).me.mac.mpc.getLsbD 63 = true ∧ (macroAt 0).dev.bad = [] ∧
    (decode (!isS s0.core.phys) ⟨3, true, 0, 0⟩).toOption = some (.op .nop) ∧
    (decode (!isS s0.core.phys) ⟨3, true, 0, 0x10000300⟩).toOption = some (.op (.azero 3 0 0)) ∧
    engineIssues (.azero 3 0 0) (macroAt 0x10000300) = true := by decide +kernel

/-- A slot with an entry in its matrix queue. -/
def matrixWith (e : MqEntry) : State := on (owning 0) fun t => { t with mq := [e] }

theorem witness_CoreEvents_matrix : (matrixWith (entry (.azero 3 0 0) false)).canStart (entry (.azero 3 0 0) false) = true ∧
    (matrixWith (entry (.azero 3 0 0) true)).me.mq = [entry (.azero 3 0 0) true] ∧
    (matrixWith (entry (.azero 3 0 0) true)).dev.bad = [] := by decide +kernel
theorem witness_CoreEvents_others : (onDev fun d => { d with writebacks := [7] }).dev.writebacks[0]? = some 7 ∧
    (let s := onMe fun t => { t with sp := { t.sp with dstop := 2 ^ 63 + 9, bundle := 9 } }
     s.me.sp.dstop.getLsbD 63 = true ∧ s.me.sp.bundle.toNat = s.me.sp.dstop.toNat % 2 ^ 48 ∧ s.me.pend50 = false) ∧
    (let s := onMe fun t => { t with cx := { t.cx with req := true, left := 0 } }
     s.me.bound.isSome = true ∧ s.me.cx.req = true ∧ s.settled = true ∧ s.me.mq = [] ∧ s.me.run = .running ∧
       s.me.cx.left = 0 ∧ ∀ e ∈ s.me.infl, e.rem ≠ 0) := by decide +kernel

/-- A graph of two running nodes in the partition; the task is the instance of the first, at its end. -/
def node (bs : List Byte) (st : NodeState) (undisp live : Nat) : GNode := ⟨bs, st, 0, undisp, live, 0, false⟩
def graph0 (ns : List GNode) (adm : Bool) : Graph := ⟨9, 0, 4, 1, 1, 1, 2, 0, 0, adm, ns, [], 0, 0, [], 0, 0⟩
def withGraph (ns : List GNode) (adm : Bool) (r : Run) : State :=
  on (onDev fun d => { d with parts := [(fun p : Part => { p with graphs := [graph0 ns adm] }) part0] }) fun t => { t with
    run := r, bound := t.bound.map fun b => { b with part := 1, graph := 9 } }
def ending (r : Run) : State := withGraph [node [] .running 0 1, node [] .running 0 1] true r

theorem witness_CoreEvents_end : ∀ r ∈ [Run.halting, .faulting 0x21 7 3],
    (ending r).me.bound.isSome = true ∧ (ending r).drained = true ∧ (ending r).me.run = r ∧ (ending r).dev.colls = [] ∧
      ((ending r).dev.part 1).any (fun p => (p.graph 9).any fun g =>
        (g.nodes[0]?).any (fun x => x.live == 1 && x.undisp == 0 && !x.bad && x.st == .running) &&
        (g.nodes[1]?).any fun y => !y.st.final && y.live != 0) = true := by decide +kernel

/-! Ports. -/

/-- A machine with a message at its port, the presence tag of the first cell, the refusal list of core 0 and region 15. -/
def arriving (m : Msg) (full : Bool) (refs : List RefEntry) : State :=
  { on (onDev fun d => { d with jobs := [job0], net := [m], refs := refs }) fun t =>
      { t with sp := (queued 0 0).me.sp } with mems := s0.mems.setTag 0 ⟨full, 0, 4⟩ }

theorem arriving_inv (m : Msg) (refs : List RefEntry) : (arriving m true refs).Inv ∧ (arriving m false refs).Inv := by
  constructor <;> (unfold State.Inv; dsimp only [arriving]; decide +kernel)

def putMsg (tag : Bool) (st : Stage) : Msg := msgOf (.pod .put) fun m => { m with tag := tag, stage := st, data := [1, 2, 3, 4] }
def core0 : Place := ⟨0, false, 0, 786432⟩

theorem witness_PortOperations_put : (arriving (putMsg false .flying) false []).dev.msg 5 = some (putMsg false .flying) ∧
    (arriving (putMsg false .flying) false []).ordered (putMsg false .flying) = true ∧
    (arriving (putMsg false .flying) false []).dev.leaves (putMsg false .flying) = false ∧
    (arriving (putMsg false .flying) false []).placeAt 0 false = some core0 ∧
    (arriving (putMsg false .flying) false []).dev.mapped 0 0 = some ⟨0, 0, false, 1⟩ ∧
    (arriving (putMsg false .flying) false []).dev.segmentOk (putMsg false .flying) 0 4 = true ∧
    (arriving (putMsg false .flying) false []).present ⟨0, 0, false, 1⟩ = true ∧
    (carrying (putMsg false .flying)).dev.job 3 = none := by decide +kernel
theorem witness_PortOperations_tagged : (∀ full ∈ [false, true],
    (arriving (putMsg true .atPort) full []).podPlace (putMsg true .atPort) = some core0 ∧
      (arriving (putMsg true .atPort) full []).ordered (putMsg true .atPort) = true ∧
      ((arriving (putMsg true .atPort) full []).mems.tag (core0.cell 0)).full = full) ∧
    ((List.replicate 64 (⟨0, .cell 3, 4⟩ : RefEntry)).countP fun e => e.phys == core0.phys) = 64 ∧
    ((List.replicate 63 (⟨0, .cell 3, 4⟩ : RefEntry)).countP fun e => e.phys == core0.phys) < 64 := by decide +kernel
theorem witness_PortOperations_region :
    let m := msgOf (.pod .qput) fun m => { m with stage := .atPort, region := 15, data := zeroBytes 16 }
    let s := arriving m false []
    s.podPlace m = some core0 ∧ s.ordered m = true ∧ (s.regionAt core0 m.region).en = true ∧ (s.regionAt core0 m.region).esz = m.esz ∧
      s.dev.segmentOk m (s.regionAt core0 m.region).next (s.regionAt core0 m.region).entry = true ∧
      (s.regionAt core0 15).pop + (s.regionAt core0 15).full ≠ (s.regionAt core0 15).cap := by decide +kernel
theorem witness_PortOperations_others :
    (∀ k ∈ [MsgKind.pod .radd, .pod .flag, .pod .phm],
      let m := msgOf k fun m => { m with stage := .atPort, data := [1, 0, 0, 0] }
      (arriving m false []).podPlace m = some core0 ∧ m.stage = .atPort) ∧
    (let m := msgOf .spk fun m => { m with data := [1] }
     (arriving m false []).placeAt m.core m.slot1 = some core0 ∧ (arriving m false []).spkOpen m.core m.slot1 = true) ∧
    (let m := msgOf .hst fun m => { m with pieces := [(true, 8, [1])] }
     (arriving m false []).ordered m = true ∧ ahead 5 (arriving m false []).dev.net = []) ∧
    (let m := msgOf .hbm fun m => { m with pieces := [(false, 8, [1])] }
     (arriving m false []).ordered m = true) ∧
    (putMsg false .released).stage = .released := by decide +kernel
theorem witness_PortOperations_atomic :
    let r : AmoReq := ⟨9, true, 2, 3, 4, true, 0, false, 64, false, 0, false⟩
    let m := msgOf (.amo r) id
    let s := carrying m
    (s.ordered m = true ∧ s.unreleased m r = false) ∧
      (carrying (msgOf (.amo r) fun m => { m with stage := .answered 0 0 })).dev.msg 5 =
        some (msgOf (.amo r) fun m => { m with stage := .answered 0 0 }) ∧ m.src = .slot 0 false ∧
      (s0.me.bound.map (·.ctx)) = some m.ctx := by decide +kernel
theorem witness_PortOperations_peer :
    let m := msgOf (.pod .phm) fun m => { m with stage := .atPort, addr := 65532, data := [1, 2, 3, 4] }
    let s : State := { on (onDev fun d => { d with jobs := [job0], net := [m], parts := [part0] }) fun t =>
      { t with bound := t.bound.map fun b => { b with part := 1 } } with mems := tableMem }
    m.data ≠ [] ∧ m.addr / 65536 = (m.addr + m.data.length - 1) / 65536 ∧ m.addr + m.data.length ≤ 2 ^ 48 ∧
      ((s.jobTables m.job).any fun u => decide (walkTables s.mems s.dev u.part (bitsOf u.cx.ctxid 15 0) u.root
        (pageBase m.addr) = .leaf ⟨1, 0, 2 ^ 30, 0x17, false⟩)) = true ∧ pteFmt (0x17 : U64) = 0 ∧
      (Pte.denies ⟨1, 0, 2 ^ 30, 0x17, false⟩ ⟨false, true, false, some false⟩) = none := by decide +kernel
theorem witness_PortOperations_answer : (∀ st ∈ [Stage.answered 0 9, .answered 0x14 0, .away],
    let m := putMsg false st
    m.routed = false ∧ m.stage = st ∧ m.rkind < 16) ∧
    (msgOf (.pod .qput) fun m => { m with region := 15 }).region < 16 := by decide +kernel

/-! Engines at work. -/

/-- A transfer of the slot, of one row of 16 bytes within its scratchpad, at a row, and a machine whose channel 3 holds it. -/
def transfer (row : Nat) (chain rows : Bool) : Transfer :=
  ⟨1, 6, s0.me.who, 0, false, copyShape [(0, 15)], 0, 1024, false, 0, false, chain, 64, 0, 0, rows, row, 0⟩
def copying (t : Transfer) : State :=
  { onDev fun d => { d with chans := [⟨0, 3, 0, false, [t]⟩], tlb := [(0, [pageOf 0x17])], ctlb := [(0, [pageOf 0x17])] }
    with mems := s0.mems }

theorem witness_EngineProgress_copy : (copying (transfer 0 false true)).copyReady 0 3 = true ∧
    (copying (transfer 0 false true)).copyParked ((copying (transfer 0 false true)).dev.chan 0 3) (transfer 0 false true) = false ∧
    xsf (transfer 0 false true).shape 7 = 0 ∧ xsf (transfer 0 false true).shape 8 = 0 ∧
    (copying (transfer 0 false true)).placeAt 0 false = some core0 ∧ rowCount (transfer 1 false true).shape ≤ 1 ∧
    (copying (transfer 0 false true)).dev.net = [] := by decide +kernel
theorem witness_EngineProgress_chain : (copying (transfer 0 true false)).chainReady 0 3 = true ∧
    (match (copying (transfer 0 true false)).chainPiece (transfer 0 true false) 0 3 64 false with
      | .ok x => x == (false, 64)
      | .error _ => false) = true ∧
    (((copying (transfer 0 true false)).asIssuer (transfer 0 true false)).copyCheck 0 0 0 true 0 false 3).isOk = true := by
  decide +kernel
theorem witness_EngineProgress_collective :
    let s : State := { onDev fun d => { d with jobs := [alone], colls := [collOf 2 1 0], ctlb := [(0, [pageOf 0x17])] }
      with mems := collMem }
    (s.dev.colls.find? fun x => x.serial == 7) = some (collOf 2 1 0) ∧ (collOf 2 1 0).agreed = true ∧ (collOf 2 1 0).fail = 0 ∧
      (s.members (collOf 2 1 0)).length ≤ 1 ∧ s.dev.collBusy (collOf 2 1 0) = false ∧
      (s.bucketWrites (collOf 2 1 0) false).isOk = true ∧ (collOf 2 1 0).done + 1 = (collOf 2 1 0).fld 4 2 ∧
      (collOf 2 2 1).status ≠ 0 ∧ (collOf 2 2 1).held = [] := by decide +kernel

def batch0 (out : List (Nat × Send)) (sealing : Bool) : Batch :=
  ⟨8, s0.me.who, 0, false, none, 0, 0, 0, true, 64, 128, [], out, 0, 0, 0, 0, [], sealing⟩
def routed (k : PodKind) (st : Stage) : Msg := msgOf (.pod k) fun m =>
  { m with owner := 8, stage := st, region := 15, data := zeroBytes 16, tag := true }
def batching (m : Msg) (b : Batch) : State :=
  { on (onDev fun d => { d with jobs := [job0], net := [m], batches := [b] }) fun t => { t with sp := (queued 0 0).me.sp }
    with mems := s0.mems }

theorem witness_EngineProgress_routing : ∀ st ∈ [Stage.answered 0 0, .answered 1 0],
    let x : Send := ⟨0, .region 0 0 15, .nobody, false, zeroBytes 16⟩
    let s := batching (routed .route st) (batch0 [(5, x)] false)
    (routed .route st).routed = true ∧ s.dev.batch (routed .route st).owner = some (batch0 [(5, x)] false) ∧
      ((batch0 [(5, x)] false).out.find? fun o => o.1 == 5) = some (5, x) ∧ s.dev.msg 5 = some (routed .route st) := by
  decide +kernel
theorem witness_EngineProgress_region : ∀ k ∈ [PodKind.route, .seal],
    let s := batching (routed k .atPort) (batch0 [] false)
    (s.dev.job 0).isSome = true ∧ s.dev.mapped 0 0 = some ⟨0, 0, false, 1⟩ ∧ s.placeAt 0 false = some core0 ∧
      s.present ⟨0, 0, false, 1⟩ = true ∧ (s.regionAt core0 15).en = true ∧ (s.regionAt core0 15).esz = (routed k .atPort).esz ∧
      s.dev.segmentOk (routed k .atPort) (s.regionAt core0 15).next (s.regionAt core0 15).entry = true ∧
      s.dev.segmentOk (routed k .atPort) ((s.regionAt core0 15).last / 1024 * 1024) 1 = true ∧
      (s.mems.tag (core0.cell (s.regionAt core0 15).next)).full = false := by decide +kernel
theorem witness_EngineProgress_end : (batching (routed .seal .flying) (batch0 [] true)).dev.batch 8 = some (batch0 [] true) ∧
    (batch0 [] true).todo = [] ∧ (batch0 [] true).out = [] ∧ (batch0 [] true).sealing = true ∧
    (batching (routed .seal .flying) (batch0 [] true)).placeAt 0 false = some core0 ∧ 64 + 16 ≤ 128 := by decide +kernel

/-! States in which something waits. -/

/-- A returning atomic of the slot that is still to be performed. -/
def acquires : State := carrying (msgOf (.amo ⟨0, true, 2, 3, 4, true, 0, false, 64, false, 0, false⟩) id)
/-- As many writes of the slot on path 0 as are given, unanswered or still unsent. -/
def crowded (n : Nat) (st : Stage) : State := onDev fun d => { d with net := List.replicate n { putMsg false st with path := 0, src := s0.party, ctx := s0.ctx } }

theorem witness_waits_for_an_atomic : acquires.acquiring = true ∧ s0.acquiring = false ∧ acquires.splSize = 786432 := by
  decide +kernel
theorem witness_WritesToThePod_full : 256 < (crowded 256 .flying).dev.unanswered s0.party s0.ctx 0 + [0].length ∧
    (crowded 255 .flying).dev.unanswered s0.party s0.ctx 0 + [0].length ≤ 256 ∧
    (crowded 1 .unsent).dev.unanswered s0.party s0.ctx 0 = 0 ∧ (crowded 1 .unsent).rowsUnsent = true := by decide +kernel
-- A queued drain of the slot is still to write its first row: a cluster access of these bytes of its own scratchpad waits.
theorem witness_AccessesBeyondTheCore_drain : core0 = s0.place ∧ s0.me.drainPending 0 4 = false ∧
    (on (owning (shDrain 0)) fun t => { t with mq := [{ entry (.drain 0 false 0 0 0 false false 0) false with
      shape := shDrain 0 }] }).me.drainPending 0 4 = true := by decide +kernel
theorem witness_QueueRegions_bad : let s : State := { queued 0 0 with dev := { s0.dev with badTags := [regionKey 0 15] } }
    s.dev.badTags.contains (regionKey (slotNo s.core.phys s.me.slot1) 15) = true ∧ (s.me.sp.region 15).en = true ∧
      s.acquiring = false := by decide +kernel
theorem witness_CoreEvents_unsettled : let s : State := { carrying (msgOf .own id) with me := { s0.me with cx := { s0.me.cx with
      req := true, left := 0 } } }
    s.me.bound.isSome = true ∧ s.me.cx.req = true ∧ s.settled = false ∧ s.me.run = .running ∧ s.me.cx.left = 0 := by decide +kernel
theorem witness_CoreEvents_page : let r := loadOf 3
    (r.sz ≠ 7 ∨ r.wide = true) ∧ r.got = [(pageBase 0, .leaf (pageOf 0x03))] ∧ r.addr.toNat + r.bytes ≤ 2 ^ 48 ∧
      r.addr.toNat / 65536 = (r.addr.toNat + r.bytes - 1) / 65536 ∧ pteFmt (pageOf 0x03).word = 0 ∧
      (pageOf 0x03).denies ⟨r.priv, false, false, some false⟩ = none ∧ (r.wide = true → r.sz = 7) := by decide +kernel
theorem witness_EngineRequests_members : (inJob.members { collOf 0 0 0 with who := { s0.me.who with job := 0 } }).length = 2 ∧
    (collecting.members (collOf 0 0 0)).length = 1 := by decide +kernel
theorem witness_EngineProgress_sum : let c := { collOf 2 1 0 with desc := [0, 5, 0] }
    c.fld 0 1 = 0 ∧ c.fld 1 1 = 5 ∧ c.fld 2 1 = 0 ∧ [zeroBytes 8, zeroBytes 8] ≠ [] ∧
      (∀ b ∈ [zeroBytes 8, zeroBytes 8], b.length = 8) ∧ 4 * 1 + 4 ≤ 8 := by decide +kernel

/-! The scheduler, the queues and the commands. -/

/-- A policy with every flag, and virtual function 1 of partition 1 with it, in RUN, with one mapping. -/
def pol0 : Policy := ⟨1, List.replicate 32 0, 0x1FF, 0, [], [], [], []⟩
def vf0 : Vf := ⟨1, 1, some pol0, .run, 0, false, false, false, none, [⟨3, 1, 0, 65536, 0, 0⟩], []⟩
/-- Pair q of a function, its queues of 4 entries at 0x1000 and 0x2000 of host memory. -/
def pair0 (fn q : Nat) : QPair := ⟨fn, q, 0x1000, 0x2000, 4, 4, 0, 1, 0, 0, true, false, [], none, none⟩
/-- The object image of a task and a graph of one node of it (R122, R313). -/
def image0 : List Byte :=
  leBytes 4 0x314F4E4B ++ leBytes 4 1 ++ leBytes 4 2 ++ zeroBytes 4 ++
  leBytes 4 1 ++ zeroBytes 8 ++ leBytes 4 16 ++ zeroBytes 16 ++
  leBytes 4 12 ++ leBytes 4 0xFFFF ++ zeroBytes 4 ++ leBytes 4 176 ++ leBytes 8 1 ++ zeroBytes 168
def secs0 : List Section := [⟨1, 0, 0, zeroBytes 16⟩, ⟨12, 0xFFFF, 0, leBytes 8 1 ++ zeroBytes 168⟩]
def loaded0 : Image := ⟨9, 0, 1, secs0, [(0, 0, 1)], 0x40000000⟩
/-- Host memory with bytes from an address on. -/
def hostBytes (m : Mems) (a : Nat) (bs : List Byte) : Mems :=
  (bs.zipIdx a).foldl (fun m x => if x.1 = 0 then m else m.setByte .host x.2 x.1) m
def region0 (done : Bool) (d : List Byte) : Region := ⟨8, zeroBytes 32, 1, 16, d, 0, 0x100000, 0, 16, done, false, [], 0, 7⟩
/-- Two partitions, the function, an image, a mapping and a region with their handles, and pair 0 of function 0. -/
def served : State :=
  { onDev fun d => { d with
      parts := [part0]
      host := { d.host with
        vfs := [vf0], images := [loaded0], regions := [region0 true []], pairs := [pair0 0 0, pair0 0 1]
        handles := [(5, 0, .vf 1), (6, 0, .image 9), (7, 1, .mapping 3), (8, 0, .region 8)] } }
    with mems := hostBytes s0.mems 0x4000 image0 }
def withVf (f : Vf → Vf) : State :=
  { served with dev := { served.dev with host := { served.dev.host with vfs := [f vf0] } } }
/-- A command of function fn through pair 0, with parameters given as (offset, value). -/
def cmd (fn : Nat) (h : U64) (ps : List (Nat × Nat)) : Cmd :=
  ⟨fn, 0, 7, h, BitVec.ofNat 384 (ps.foldl (fun x p => x + p.2 * 2 ^ (8 * p.1)) 0)⟩

theorem served_inv : served.Inv := by unfold State.Inv; decide +kernel

def cand0 (s : State) : Option Candidate := (s.dev.part 1).bind fun p => (s.dev.candidates p).head?
/-- A graph of one ready node, whose image and job are there. -/
def offering : State :=
  let g : Graph := ⟨9, 0, 4, 1, 1, 1, 2, 9, 0, true, [node (zeroBytes 160) .ready 1 0], [], 0, 0, [], 0, 0⟩
  { served with dev := { served.dev with
      parts := [(fun p : Part => { p with graphs := [g] }) part0], mgmt := { served.dev.mgmt with power := 3 }, jobs := [(fun j : Job => { j with id := 9 }) job0] } }

theorem witness_SchedulerAndQueueEvents_admit :
    let s := withGraph [node (zeroBytes 160) .pending 0 0] false .running
    let g := graph0 [node (zeroBytes 160) .pending 0 0] false
    ∃ p, s.dev.part 1 = some p ∧ p.nextGraph = some g ∧ p.graph g.serial = some g ∧ g.nodes ≠ [] ∧ g.hold = 0 :=
  ⟨_, rfl, by decide +kernel⟩
theorem witness_SchedulerAndQueueEvents_dispatch : part0.stopped = false ∧ served.dev.mgmt.state = 2 ∧
    served.dev.part 1 = some part0 ∧ served.dev.candidates part0 = [] ∧
    (match cand0 offering, offering.dev.part 1 with
      | some c, some p =>
        (let u : State := { offering with dev := offering.dev.updPart 1 fun _ =>
            { p with reserve := offering.reservation p (offering.dev.candidates p) } }
         offering.dev.candidates p == [c] && !p.stopped &&
          match u.placement { p with reserve := offering.reservation p (offering.dev.candidates p) } c with
          | some x => ((u.seat { p with reserve := offering.reservation p (offering.dev.candidates p) } c x.2.1 x.2.2).bind
              fun v => v.dev.part 1).isSome
          | none => false)
      | _, _ => false) = true := by decide +kernel
theorem witness_SchedulerAndQueueEvents_queues : part0.clusters.testBit 0 = true ∧ 0 < part0.qslots ∧
    (let x : QPair := { pair0 1 1 with wait := some 3 }
     let s := { served with dev := { served.dev with host := { served.dev.host with pairs := [x] } } }
     (∀ y ∈ s.dev.host.pairs, s.dev.queuePart y = some 1 → y.mapped = none) ∧
       earliest (·.wait) (s.dev.host.pairs.filter fun y => s.dev.queuePart y == some 1) = some x ∧
       s.dev.pair x.fn x.q = some x) ∧
    served.dev.isFn 1 = true ∧ served.dev.pair 0 0 = some (pair0 0 0) ∧ (pair0 0 0).error = false ∧
    served.dev.fetchable (pair0 0 0) = true ∧
    (let bs := served.mems.read .host 0x1000 64
     bytesAt bs 4 4 = 0 ∧ bytesAt bs 0 2 = 0) ∧
    (let bs := (hostBytes served.mems 0x1000 [0x10]).read .host 0x1000 64
     bytesAt bs 4 4 = 0 ∧ bytesAt bs 0 2 = 0x10) ∧
    (let x : QPair := { pair0 0 0 with posts := [⟨1, 0, 0, false, 0⟩] }
     x.posts = ⟨1, 0, 0, false, 0⟩ :: [] ∧ (x.cqTail + 1) % x.cqDepth ≠ x.cqHead) ∧
    (∀ v ∈ served.dev.host.vfs, v.act = none) ∧ (0x1000 : U64).toNat % 4096 = 0 ∧ (0x1001 : U64).toNat % 4096 ≠ 0 ∧
    (0x00040004 : U32).toNat % 65536 = 4 ∧ (0x00040004 : U32).toNat / 65536 = 4 := by decide +kernel
theorem witness_SchedulerAndQueueEvents_gang :
    (let s := onMe fun t => { t with run := .gang }
     s.me.run = .gang ∧ (s.me.bound.map (·.job)) = some 0 ∧ s.dev.parts = []) ∧
    inPart.me.run = .running ∧ inPart.me.cx.req = false ∧ (inPart.me.bound.map (·.part)) = some 1 ∧
    (let c : SavedCtx := ⟨3, (s0.me.bound.getD ⟨0, 0, 0, 0, 0, 0, 0, 0, 0, 0, 0⟩), 0, false, 1, false, false, 0, gemmaOffset false, 0, s0.me,
       s0.core.tabs, [], [], [], []⟩
     ([c].find? fun x => x.id == 3) = some c ∧ c.written = false ∧ (s0.coreAt c.phys).isSome = true) := by decide +kernel

theorem witness_CommandsTakeEffect_functions :
    (let c := cmd 0 0 [(0, 2), (2, 1)]
     restZero c [(0, 3)] = true ∧ c.handle = 0 ∧ param c 0 2 = 2 ∧ param c 2 1 = 1 ∧ served.dev.pendingPart 1 = false ∧
       served.dev.vf 2 = none ∧ (served.dev.part 1).isSome = true ∧ served.dev.host.handles.length < 2 ^ 32) ∧
    (let c := cmd 0 5 []
     restZero c [] = true ∧ (served.pfVf c).toOption = some vf0) ∧
    (let c := cmd 0 0 [(0, 2), (8, 0x3000), (16, 0x4000), (24, 4), (26, 8)]
     restZero c [(0, 1), (8, 20)] = true ∧ param c 0 1 = 2 ∧ param c 8 8 % 4096 = 0 ∧ param c 16 8 % 4096 = 0 ∧
       depthOk (param c 24 2) = true ∧ depthOk (param c 26 2) = true ∧ c.q ≠ 2 ∧ served.dev.pair 0 2 = none) ∧
    (let c := cmd 0 0 [(0, 1)]
     restZero c [(0, 1)] = true ∧ (served.dev.pair 0 1).isSome = true) ∧
    (let c := cmd 1 0 []
     (served.asVf c).toOption = some vf0 ∧ vf0.tdi = .run) := by decide +kernel
theorem witness_CommandsTakeEffect_image :
    (let c := cmd 0 0 [(0, 0x4000), (8, image0.length)]
     restZero c [(0, 12)] = true ∧ (served.loader c).toOption = some (some vf0) ∧ vf0.policy = some pol0 ∧
       served.dev.part 1 = some part0 ∧ parseImage (served.mems.read .host (param c 0 8) (param c 8 4)) = some secs0 ∧
       part0.roomFor (served.dev.serial + 1)
         (((secs0.filter fun x => x.typ == 1).map (·.owner)).map fun k => codePages (taskCode secs0 k)) = true ∧
       (vf0.codeBase 1).isSome = true) ∧
    (let c := cmd 0 6 []
     restZero c [(0, 1)] = true ∧ served.dev.imageNamed 0 6 = some loaded0 ∧
       (served.submits c (some loaded0)).toOption = some (vf0, loaded0) ∧ vf0.assigned = true ∧ vf0.flag 2 = true ∧ ((loaded0.secs.find? fun y => y.typ == 12 && y.target == 0).any fun x =>
         graphOk loaded0 x.data) = true) := by decide +kernel
theorem witness_CommandsTakeEffect_maps :
    (let c := cmd 1 0 [(0, 1), (8, 0x10000), (16, 100), (24, 0x20000)]
     restZero c [(0, 2), (8, 24)] = true ∧ param c 0 1 = 1 ∧ param c 1 1 = 0 ∧ param c 8 8 % 65536 = 0 ∧
       param c 24 8 % 65536 = 0 ∧ param c 24 8 < 2 ^ 52 ∧ param c 16 8 = 100 ∧ (served.asVf c).toOption = some vf0 ∧
       served.dev.meetsCode vf0.fn 0x10000 65536 = false ∧ (∀ m ∈ vf0.maps, m.va + 65536 * m.pages ≤ 0x10000) ∧
       0x10000 + 65536 ≤ Config.logVa ∧ 0x10000 + 65536 ≤ Config.tableVa) ∧
    (let c := cmd 1 7 []
     restZero c [] = true ∧ served.dev.object c.fn c.handle = some (.mapping 3) ∧
       (vf0.maps.find? fun x => x.id == 3).isSome = true) := by decide +kernel
theorem witness_CommandsTakeEffect_pause :
    let c := cmd 0 5 []
    vf0.assigned = true ∧ vf0.act = none ∧ served.anyBound vf0.fn = false ∧ vf0.flag 0 = true ∧ vf0.flag 1 = true ∧
      vf0.flag 3 = true ∧ vf0.paused = false ∧ vf0.evicted = false ∧
      (((withVf fun v => { v with paused := true }).pfVf c).toOption.any fun v => v.paused && v.flag 0 && v.assigned) = true ∧
      (let s := on served fun t => { t with bound := t.bound.map fun b => { b with vf := 1 } }
       s.anyBound vf0.fn = true ∧ (s.me.bound.map (·.vf)) = some vf0.fn ∧ s.me.run = .running) := by decide +kernel
theorem witness_CommandsTakeEffect_places :
    (let c := cmd 0 5 [(0, 0), (1, 1)]
     restZero c [(0, 2)] = true ∧ param c 1 1 = 1 ∧ (served.pfVf c).toOption = some vf0 ∧
       part0.clusters.testBit 0 = true ∧ part0.clusters.testBit 1 = true ∧ served.dev.ctxs = []) ∧
    (let c := cmd 0 5 [(0, 3)]
     restZero c [(0, 2), (8, 8)] = true ∧ (∀ i, i < 8 → param c (8 + i) 1 < 32) ∧ served.dev.mgmt.banks = []) ∧
    (let c := cmd 0 5 [(0, 3)]
     restZero c [(0, 2)] = true ∧ ∃ b ∈ [(⟨3, some 0, [], [], false⟩ : Bank)], b.num = param c 0 2 ∧ b.holder = some 0) ∧
    (let c := cmd 0 5 [(0, 7)]
     restZero c [(0, 8)] = true ∧ (served.pfVf c).toOption = some vf0) := by decide +kernel
theorem witness_CommandsTakeEffect_layout :
    let c := cmd 0 0 [(0, 0x8000)]
    let bs := (hostBytes served.mems 0x8000 (leBytes 4 3 ++ leBytes 2 16 ++ [1, 1] ++ zeroBytes 56 ++ [2])).read .host (param c 0 8) 1536
    restZero c [(0, 8)] = true ∧ served.dev.mgmt.commit = none ∧ served.dev.affected bs &&& served.dev.busyClusters = 0 ∧
      layoutFormat bs = true ∧ served.dev.layoutOk bs = true ∧ (descOf bs 0).valid = true ∧
      ∀ i, i < 12 → (descOf bs i).lend = false := by
  decide +kernel
theorem witness_CommandsTakeEffect_partitions :
    (let c := cmd 0 0 [(0, 1)]
     restZero c [(0, 1)] = true ∧ param c 0 1 = 1 ∧ served.dev.pendingPart 1 = false ∧ served.dev.part 1 = some part0 ∧
       served.dev.mgmt.scrubs = []) ∧
    (let c := cmd 0 0 [(0, 1), (8, 0x8000)]
     let bs := (hostBytes served.mems 0x8000 [100]).read .host 0x8000 64
     restZero c [(0, 1), (8, 8)] = true ∧ bytesAt bs 41 7 = 0 ∧ (schedOf bs).ok part0.clusters = true) ∧
    (let c := cmd 0 0 [(0, 2), (1, 1), (4, 5), (8, 100)]
     restZero c [(0, 2), (4, 2), (8, 5)] = true ∧ param c 0 1 < 26 ∧ param c 4 2 ≤ param c 8 4 ∧
       param c 8 4 ≤ 1048575 ∧ param c 12 1 = 0) := by decide +kernel
theorem witness_CommandsTakeEffect_regions :
    (let c := cmd 0 0 [(0, 0x8000)]
     let bs := (hostBytes served.mems 0x8000 (zeroBytes 36 ++ [16])).read .host 0x8000 80
     restZero c [(0, 8)] = true ∧ (served.publisher c (some ())).isOk = true ∧ bytesAt bs 40 8 = 0 ∧ bytesAt bs 36 4 = 16 ∧
       (∀ r ∈ served.dev.host.regions, ¬ (r.name = bs.take 32 ∧ r.version = bytesAt bs 32 4)) ∧
       (served.dev.regionPlace 65536).isSome = true) ∧
    (let c := cmd 0 8 []
     restZero c [] = true ∧ served.dev.object c.fn c.handle = some (.region 8) ∧
       (served.publisher c (some (region0 true []))).isOk = true ∧
       (served.dev.host.regions.find? fun x => x.id == 8) = some (region0 true []) ∧
       (region0 true []).withdrawn = false ∧ (region0 true []).sealed = true) := by decide +kernel
/-- A direction of a link at key k. -/
def dir (k : Nat) (rot : Bool) (count : Nat) : LinkDir := ⟨0, k, some k, some (k + 1), count, [], rot⟩

theorem witness_CommandsTakeEffect_links :
    (let c := cmd 0 0 [(0, 2)]
     let x : Port := ⟨2, .up, dir 0 false 0, dir 0 false 0⟩
     let s := onDev fun d => { d with mgmt := { d.mgmt with ports := [x] } }
     restZero c [(0, 1)] = true ∧ param c 0 1 = 2 ∧ s.dev.port 2 = some x) ∧
    (let c := cmd 0 0 [(0, 1), (8, 0x8000), (16, 128)]
     restZero c [(0, 1), (8, 12), (24, 8)] = true ∧ param c 0 1 ≤ 2 ∧ param c 8 8 % 64 = 0) ∧
    ∀ st ∈ [1, 3], (onDev fun d => { d with mgmt := { d.mgmt with state := st } }).dev.mgmt.state = st := by decide +kernel

/-! Management. -/

theorem witness_ManagementEvents_regions :
    (∀ d ∈ [zeroBytes 32, sha256 (zeroBytes 16)],
      let s := onDev fun x => { x with host := { x.host with regions := [region0 false d], pairs := [pair0 0 0] } }
      (s.dev.host.regions.find? fun x => x.id == 8 && !x.sealed && x.len ≤ x.got) = some (region0 false d) ∧
        s.mems.read .hbm 0 16 = zeroBytes 16 ∧ (region0 false d).got = (region0 false d).len) ∧
    sha256 (zeroBytes 16) ≠ zeroBytes 32 ∧
    (let r : Region := { region0 false [] with got := 10 }
     (onDev fun x => { x with host := { x.host with regions := [r] } }).dev.filling = some r) := by decide +kernel
theorem witness_ManagementEvents_power :
    (let g : Gate := ⟨1, 0, 1, 0, 0, 0, 7, false, 0⟩
     let s := onDev fun d => { d with now := 270000, mgmt := { d.mgmt with gates := [g] } }
     (s.dev.mgmt.gates.find? fun x => x.cls.testBit 0 && x.since + 270000 ≤ s.dev.now) = some g ∧ clusterOf s.core.phys = 0 ∧
       g.cls = 2 ^ 0 ∧ g.commit = false ∧ s.dev.mgmt.commit = none) ∧
    (let x : Scrub := ⟨4, 1, 0, 0, 7, 0, false⟩
     let s := onDev fun d => { d with mgmt := { d.mgmt with scrubs := [x] } }
     (s.dev.mgmt.scrubs.find? fun y => y.id == 4) = some x ∧ s.dev.bad = []) := by decide +kernel
theorem witness_ManagementEvents_layout :
    (∀ x ∈ [(0, false), (0, true), (1, true)],
      let k : Commit := ⟨zeroBytes 1536, zeroBytes 32, 0, 0, 7, 1, x.1, x.2, false, 0⟩
      (onDev fun d => { d with mgmt := { d.mgmt with commit := some k } }).dev.mgmt.commit = some k ∧
        k.ready = (x.1 == 1) ∧ k.durable = x.2 ∧ k.affected ≠ 0) ∧ s0.dev.mgmt.gates = [] ∧ (∃ g ∈ [(⟨1, 0, 0, 0, 0, 0, 7, true, 0⟩ : Gate)], g.commit = true) ∧ s0.dev.pair 1 0 = none ∧
    (s0.dev.mgmt.buckets.map fun b => (b.port, b.part)).Nodup ∧ s0.dev.net = [] ∧ s0.dev.mgmt.commit = none := by
  decide +kernel
def portIn (st : LinkState) (l : LinkDir) : Port := ⟨2, st, l, l⟩
theorem witness_ManagementEvents_links :
    (∀ st ∈ [LinkState.down, .up, .retraining 0],
      let s := onDev fun d => { d with now := 27000000, mgmt := { d.mgmt with ports := [portIn st (dir 0 false 0)] } }
      s.dev.port 2 = some (portIn st (dir 0 false 0)) ∧ 0 + 27000000 ≤ s.dev.now) ∧
    (∀ o : Bool,
      ((portIn .up (dir 0 true 0)).half o).rotating = true ∧ ((portIn .up (dir 0 true 0)).half o).held 1 = some 1 ∧
      (let l : LinkDir := ⟨0, 1, some 0, some 1, 0, [], true⟩
       ((portIn .up l).half o).rotating = true ∧ 1 ≤ l.k ∧ ((portIn .up l).half o).held 0 = some 0 ∧ 0 ∉ l.unacked) ∧
      ((portIn .up (dir 0 false (2 ^ 40))).half o).rotating = false ∧ 2 ^ 40 ≤ ((portIn .up (dir 0 false (2 ^ 40))).half o).count) := by
  decide +kernel
theorem witness_ManagementEvents_others :
    (let s : State := { inPart with dev := { inPart.dev with weak := [(12, 5)] } }
     (s.dev.parts.find? fun p => p.owns (40 / 8 * 8) 8) = some part0 ∧ s.dev.bad = [] ∧ (12, 40 / 8) ∈ s.dev.weak) ∧
    s0.me.bound.isSome = true ∧ s0.dev.mgmt.hssNext < 2 ^ 40 ∧
    2 ^ 40 ≤ (onDev fun d => { d with mgmt := { d.mgmt with hssNext := 2 ^ 40 } }).dev.mgmt.hssNext ∧
    served.dev.vf 1 = some vf0 ∧ s0.dev.mgmt.flash.length + s0.dev.mgmt.journal.length ≤ 1048576 := by decide +kernel

/-! Encodings and steps. -/

theorem witness_EncodeThenDecode : ∃ e, Instr.wf (.addi (.reg 4) (.g 0) (.wide 0 5) 0) = true ∧
    encode (.addi (.reg 4) (.g 0) (.wide 0 5) 0) = some e := ⟨⟨1, true, 0, 0x0C400028⟩, by decide +kernel⟩
theorem witness_AcceptedWordsAreWellFormed : ∃ d, decode true ⟨1, true, 0, 0x0C400028⟩ = .ok d := ⟨_, rfl⟩

/-- A policy blob with no record (R413), whose tenant is the digest of a key of zeros. -/
def blob0 : List Byte :=
  leBytes 4 0x59434C50 ++ leBytes 2 1 ++ zeroBytes 2 ++ leBytes 8 1 ++ sha256 (zeroBytes 60) ++ leBytes 4 148 ++
    leBytes 4 0x1FF ++ zeroBytes 88 ++ leBytes 4 4
def unlocked : State :=
  { served with
      dev := { served.dev with host := { served.dev.host with vfs := [(fun v : Vf => { v with tdi := .unlocked }) vf0] } }
      mems := hostBytes s0.mems 0x4000 blob0 }

theorem witness_CommandsTakeEffect_bind :
    let c := cmd 0 5 [(0, 0x4000), (8, 148)]
    let bs := unlocked.mems.read .host (param c 0 8) (param c 8 4)
    restZero c [(0, 12)] = true ∧ (unlocked.pfVf c).toOption.any (fun v => v.tdi == .unlocked) = true ∧
      part0.tenant = none ∧ (match parsePolicy bs with
        | some (pol, body, sig) => pol.tenant == sha256 ((bs.drop 80).take 60) && body.length == 144 && sig == [] &&
            decide (unlocked.dev.mgmt.pver pol.tenant ≤ pol.pver)
        | none => false) = true := by decide +kernel

/-- The state s0 after the clock, and after the fetch, of its turn. -/
def clocked : State := match s0.clock with | .next c => c | _ => s0
def fetched : State := clocked.fetch.2

-- The table bundle of `withFetchWord` issues next.
theorem witness_StepRunsTheDecodedInstructions :
    IssuesNext s0 (tableBundle 0) { fetched.land with me := fetched.land.me.begin 0 0 false } := by
  refine ⟨⟨List.isEmpty_iff.mp (by decide +kernel), by decide +kernel⟩, clocked, fetched, ?_, ?_, by decide +kernel, ?_, ?_, ?_, rfl⟩
  · unfold clocked
    have h : (match s0.clock with | .next _ => true | _ => false) = true := by decide +kernel
    revert h
    cases s0.clock <;> simp
  · unfold Thread.free; decide +kernel
  · exact Prod.ext (by decide +kernel) rfl
  · unfold Thread.free; decide +kernel
  · decide +kernel
theorem witness_StepKeepsTheInvariant : s0.Inv ∧ (match step s0 with | .next _ => true | _ => false) = true := by
  unfold State.Inv
  decide +kernel

/-! ### Witnesses of clauses that need a state of their own -/

-- R68: 2^16 overflows FP16 under every mode, the number just below does not, and 2^-20 is tiny there.
theorem witness_RoundingChoosesTheAdjacentValue_range : ∀ rm ∈ [0, 1, 2, 3],
    Overflows fp16 rm 0 ⟨1, 16⟩ ∧ ¬ Overflows fp16 rm 0 ⟨-65504, 0⟩ ∧ Tiny fp16 rm 0 ⟨3, -20⟩ ∧ ¬ Tiny fp16 rm 0 ⟨3, 0⟩ ∧
      (dyDist ⟨3, -26⟩ (dyOfBits fp16 (fround fp16 rm false 0 (Dy.toEx ⟨3, -26⟩)).bits)).n ≠ 0 := by
  intro rm h
  simp only [List.mem_cons, List.not_mem_nil, or_false] at h
  rcases h with rfl | rfl | rfl | rfl <;> simp only [Overflows, Tiny, Outward] <;> decide +kernel
theorem witness_FloatingArithmetic_quotient : (⟨3, 0⟩ : Dy).n ≠ 0 ∧ (⟨-5, 2⟩ : Dy).n ≠ 0 ∧ (⟨-5, 2⟩ : Dy).n.natAbs < 2 ^ 64 ∧
    0 < (⟨3, 0⟩ : Dy).n ∧ 4 < 5 := by decide

/-- The slot that names granules owns nothing. -/
def disowned (sh : U128) : State := on (owning sh) fun t => { t with cx := { t.cx with accown := 0 } }

-- R189, R190: a K that is not a multiple of 4, a modifier of a floating product, a row that begins past the scratchpad's end, and a
-- store that another context owns.
theorem witness_ProductsEnterTheQueue_traps :
    ¬ (owning (shape [(4, 32), (5, 96), (6, 3), (9, 4), (10, 4)])).shapeOk .dense (shape [(4, 32), (5, 96), (6, 3), (9, 4), (10, 4)]) 0 0 ∧
    (owning shSparse).shapeOk .sparseA shSparse 0 0 ∧ ¬ (owning shSparse).modsOk shSparse 0 true ∧
    FirstOf ((owning shDense).productOut .dense shDense 768) 786432 ∧
    (disowned shDense).shapeOk .dense shDense 0 0 ∧ ¬ (disowned shDense).owns := by
  refine ⟨?_, ?_, ?_, ⟨0, _, rfl, ?_, ?_⟩, ?_, ?_⟩
  · unfold State.shapeOk State.tileOk; decide +kernel
  · unfold State.shapeOk State.tileOk; decide +kernel
  · unfold State.modsOk; decide +kernel
  · refine ⟨0, by decide +kernel, fun r h => absurd h (Nat.not_lt_zero r), by decide +kernel, by decide +kernel⟩
  · intro m Q h; omega
  · unfold State.shapeOk State.tileOk; decide +kernel
  · unfold State.owns; decide +kernel
theorem witness_OtherEntriesEnterTheQueue_traps : ¬ (2047 + (1 + 1) ≤ granuleCount s0.core) ∧ shf (shDrain 0) 17 ≠ 3 ∧
    shf (shDrain 0) 17 ≠ 4 ∧ shf (shDrain 5) 17 = 5 ∧ ¬ shf (shDrain 5) 17 ≤ 4 ∧
    FirstOut (767 * 1024) 384 384 786432 32 786432 ∧ ¬ (disowned 0).owns := by
  refine ⟨by decide +kernel, by decide +kernel, by decide +kernel, by decide +kernel, by decide +kernel, ?_, ?_⟩
  · exact ⟨2, by omega, fun r h => by omega, by omega, by decide +kernel⟩
  · unfold State.owns; decide +kernel
theorem witness_AccumulatorReads_faults :
    (on (owning 0) fun t => { t with sp := { t.sp with mfault := 2 ^ 63 } }).me.sp.mfault.getLsbD 63 = true ∧
    (on (owning 0) fun t => { t with sp := { t.sp with mecc := 2 ^ 63 } }).me.sp.mecc.getLsbD 63 = true ∧
    (let s := on (owning 0) fun t => { t with priv := false, cx := { t.cx with accxfer := 2 ^ 61 } }
     s.me.cx.accxfer.getLsbD 61 = true ∧ s.me.priv = false ∧ s.me.sp.mfault.getLsbD 63 = false ∧ s.me.mq = []) ∧
    ¬ (2047 + 2 ≤ granuleCount (owning 0).core) := by decide +kernel

-- R429: the entry reads a byte that fails.
theorem witness_MatrixElements_failing :
    let e := { entry (.mma 0 false 0 0 false false false false 0) true with shape := shDense }
    let s := on { owning shDense with dev := { s0.dev with bad := [(arrayOf .spl, 0)] } } fun t => { t with mq := [e] }
    s.me.mq = e :: [] ∧ s.dev.weak = [] ∧
      (s.entryReads e (.mma 0 false 0 0 false false false false 0)).any (fun r => (s.dev.failing r.1 r.2.1 r.2.2).isSome) = true := by
  decide +kernel

/-- At user level with the emulation of atomics armed for the bundle at address 16 times n. -/
def armedFor (n : Nat) : State := on (mappedBy 0x07) fun t => { t with
  priv := false, sp := { t.sp with aemuc := BitVec.ofNat 64 (16 * n + 1) } }

theorem witness_AccessesBeyondTheCore_atomic :
    (!(armedFor 0).me.priv && (armedFor 0).me.sp.aemuc.getLsbD 0) = true ∧
    (armedFor 0).me.sp.aemuc.toNat / 16 = (armedFor 0).me.iss.bpc.toNat ∧
    (armedFor 5).me.sp.aemuc.toNat / 16 ≠ (armedFor 5).me.iss.bpc.toNat ∧ (armedFor 5).me.iss.res = .issued ∧
    pteHost (0x0F : U64) = true ∧ pteHost (0x07 : U64) = false ∧ (armedFor 5).tagsFree 1 = true := by decide +kernel
theorem witness_AccessesBeyondTheCore_host : (mappedBy 0x0F).onPage (pageOf 0x0F) 8 8 none ∧ pteFmt (0x0F : U64) = 0 := by
  unfold State.onPage; decide +kernel

/-- The slot's node with tile space 0 of 3 by 2 tiles, row by row or column by column, after so many claims. -/
def tiled (order i : Nat) : State :=
  let bs := zeroBytes 2 ++ [4] ++ zeroBytes 13 ++ leBytes 2 3 ++ leBytes 2 2 ++ leBytes 2 1 ++ leBytes 1 order ++ leBytes 1 0 ++ leBytes 2 1 ++
    zeroBytes 134
  let s := withGraph [node bs .running 0 1] true .running
  { s with dev := s.dev.updPart 1 fun p => { p with graphs := p.graphs.map fun (g : Graph) => { g with claims := [(0, i)] } } }

theorem witness_HeadersMacrosSeedsAndTiles_tiles : [(0, 0), (0, 5), (1, 6)].all (fun x =>
    let s := tiled x.1 x.2
    match s.me.bound with
    | some b => match s.dev.part b.part with
      | some p => match p.graph b.graph with
        | some g => match g.nodes[b.node]? with
          | some n => bytesAt n.bytes 2 1 / 4 % 2 == 1 && bytesAt n.bytes 24 2 != 0 && bytesAt n.bytes 23 1 == 0 &&
              (g.claims.find? fun c => c.1 == 0) == some (0, x.2)
          | none => false
        | none => false
      | none => false
    | none => false) = true := by decide +kernel
-- R272: the last tile of 3 by 2, in either order, and none behind it.
theorem test_ntile_order : (tiled 0 5).claim.1 = 0x10002 ∧ (tiled 0 3).claim.1 = 0x10000 ∧ (tiled 1 3).claim.1 = 0x10001 ∧
    (tiled 0 6).claim.1 = 0x8000000000000000 := by decide +kernel

-- The registers whose writes check their value: an order of loops that names one twice, pointers past a region's end, and a transfer
-- of granules that are not there.
theorem witness_SpecialRegisterAccesses_checks :
    s0.me.priv = true ∧ s0.pred 0 = true ∧ sprInfo s0.core 0x031 = some ⟨32, false, 1⟩ ∧
    (isS s0.core.phys = false ∧ ¬ (∀ t ∈ s0.packed.slots, t.bound = none ∧ t.loads = [])) ∧
    (let x : U64 := 0x403
     ((List.range 8).countP fun i => x.getLsbD i) = 2 ∧ x.toNat / 2 ^ 8 % 8 = 4 ∧ x.getLsbD 4 = false) ∧
    ((queued 0 0).me.sp.qcfg.toList.getD 15 0).toNat / 2 ^ 63 = 1 ∧ 2047 < granuleCount s0.core ∧
    granuleCount s0.core ≤ 2047 + 1 ∧ s0.me.queueTaken < 16 := by decide +kernel

-- R259, R260: a bucket of a member alone goes to one run of bytes.
theorem witness_EngineProgress_bucket :
    let s : State := { onDev fun d => { d with jobs := [alone], colls := [collOf 2 0 0], ctlb := [(0, [pageOf 0x17])] }
      with mems := collMem }
    let c := collOf 2 0 0
    (match s.bucketWrites c false with | .ok ps => ps.length == 1 | .error _ => false) = true ∧
    (match s.bucketSource c false with | .ok b => b.length == 256 | .error _ => false) = true ∧
    s.members c = [0] ∧ (s.dev.job c.who.job).elim 0 (·.self) = 0 ∧ c.done < c.started ∧ c.status = 0 ∧ c.gone = false ∧
    s.dev.ctxs = [] ∧ (s.placeAt c.phys c.slot1).isSome = true ∧ c.done + 1 < c.fld 4 2 ∧
    c.fld 0 1 ≤ 3 ∧ c.fld 1 1 ∈ [0, 1, 5] ∧ c.fld 2 1 ≤ 2 := by decide +kernel

theorem witness_SchedulerAndQueueEvents_placed :
    (match offering.dev.part 1, cand0 offering with
      | some p, some c => (List.range 32).all (fun x => p.balOf x < 2 ^ 21) && p.reserve.isNone && (offering.placement p c).isSome && c.eprio != 7
      | _, _ => false) = true ∧
    (match offering.dev.part 1 with
      | some p => (offering.placement { p with bal := [(0, 0), (1, 0)], sched := { p.sched with charge := Vector.replicate 8 1 } }
          ((cand0 offering).getD ⟨.saved 0, 0, 0, 0, 0, 0, 0, false, false, none, 0⟩)).isNone
      | none => false) = true := by decide +kernel

theorem witness_StepKeepsTheInvariant_nested : s0.me.Nested ∧ inBoth.me.Nested ∧ inSup.me.Nested := by
  have n0 : s0.me.f1 = none := by decide +kernel
  have n1 : inSup.me.f1 = none := by decide +kernel
  refine ⟨fun g h => by simp [n0] at h, fun g h => ?_, fun g h => by simp [n1] at h⟩
  have e : inBoth.me.f1 = some ⟨true, [], Vector.replicate 16 0, Vector.replicate 3 0⟩ := by decide +kernel
  have e0 : inBoth.me.f0 = some ⟨false, [], Vector.replicate 16 0, Vector.replicate 3 0⟩ := by decide +kernel
  rw [e] at h
  cases h
  exact ⟨rfl, _, e0, rfl⟩

/-! ### Single instructions and steps

Each expected value is worked out in the spec, at the place named, or follows from the quoted rule by hand. -/

/-- What an instruction issues in slot 0 of the bundle at hand: its results, each with its flags. -/
def issues (i : Instr) (s : State) : List (Res × U16) :=
  match exec i s with
  | .next t => t.me.iss.fresh.map fun e => (e.res, e.stat)
  | _ => []
/-- How it issues. -/
def ending? (i : Instr) (s : State) : Option Issue := match exec i s with | .next t => some t.me.iss.res | _ => none
def withV (s : State) (i : Fin 32) (l : List Nat) : State :=
  on s fun t => { t with regs := { t.regs with v := t.regs.v.set i (BitVec.ofNat 2048 (packBits 32 l)) } }
def withM (s : State) (i : Fin 16) (mu var : List Nat) : State :=
  let x : Mom := BitVec.ofNat 4096 (packBits 32 mu + packBits 32 var * 2 ^ 2048)
  on s fun t => { t with regs := { t.regs with m := t.regs.m.set i x } }
/-- The lanes of a vector result. -/
def lanesAt (l : List Nat) (r : Res) : List Nat :=
  match r with
  | .v _ x _ => l.map fun j => velem x 32 j
  | .m _ x _ => l.flatMap fun j => [(momPair x j).mu, (momPair x j).v]
  | _ => []

-- R124: add wraps modulo 2^64.
theorem test_add_wraps : issues (.add (.reg 3) (.g 1) (.g 2) 0) (withG (withG s0 1 (BitVec.allOnes 64)) 2 1) =
    [(.g (.reg 3) 0 true, 0)] := by decide +kernel
-- R10, example: the INT32 saturating add; R125: SAT.
theorem test_addsatw : issues (.addsatw (.reg 3) (.g 1) (.g 2) 0) (withG (withG s0 1 0x7FFFFFFF) 2 1) =
    [(.g (.reg 3) 0x7FFFFFFF true, 0x0800)] := by decide +kernel
-- Chapter 4, example: the last bundle of the constant 0x0123_4567_89AB_CDEF.
theorem test_ldis : issues (.ldis (.reg 4) (.g 4) (.wide 0x19 0x5EF) 0) (withG s0 4 0x0123456789AB) =
    [(.g (.reg 4) 0x0123456789ABCDEF true, 0)] := by decide +kernel
-- Chapter 2, example: five conversions of R70.
theorem test_conversions :
    (fconvert 0 3 0 false 0 0x3FC00000).bits = 0x3C ∧ (fconvert 0 4 0 false 0 0x3FC00000).bits = 0x3E ∧
    (fconvert 0 3 0 false 0 0x43960000).bits = 0x79 ∧ (fconvert 0 3 0 false 0 0x43FA0000).bits = 0x7F ∧
    (fconvert 0 3 0 true 0 0x43FA0000).bits = 0x7E ∧ (fconvert 0 1 0 false 0 0x3F818000).bits = 0x3F82 ∧
    (fconvert 0 1 0 false 0 0x3F808000).bits = 0x3F80 := by decide +kernel
-- Chapter 2, example: stochastic rounding of 1.03125 to E4M3 under two draws (R72).
theorem test_stochastic : (fconvert 0 3 4 false 0x3000 0x3F840000).bits = 0x39 ∧
    (fconvert 0 3 4 false 0x4000 0x3F840000).bits = 0x38 := by decide +kernel
-- Chapter 5, example: vcvt.bf16.sf32.part1 with lane 33 disabled: the lanes written, the value and NX.
theorem test_vcvt : (issues (.vcvtFf (.reg 2) (.v 1) 0 1 1 1 0 false)
      (on (withV (withV s0 1 [0x3F808000, 0x3F818000]) 2 (List.replicate 33 0 ++ [0x12345678])) fun t =>
        { t with regs := { t.regs with k := t.regs.k.set 1 0xFFFFFFFDFFFFFFFF } })).map
      (fun x => (lanesAt [32, 34] x.1, (match x.1 with | .v _ _ w => w | _ => 0), x.2)) =
    [([0x3F823F80, 0], 0xFFFFFFFD00000000, 0x0010)] := by decide +kernel

/-- The registers of chapter 5's moment example, with a mode. -/
def moments (mode : U3) : State :=
  on (withV (withM (withM s0 1 [0x3F800000, 0x3F800000] [0x40800000, 0x3F800000]) 2 [0x40000000, 0xBF800000]
    [0x3F800000, 0x3F800000]) 5 [0x3F800000, 0xBFC00000]) fun t =>
    { t with sp := { t.sp with mmode := mode.zeroExtend _ } }

-- Chapter 5, example: the madd under REF with the clamp on, and its sum with C = 0 under INDEP.
theorem test_madd : (issues (.madd 3 1 2 (.v 5) 0) (moments 7)).map (fun x => (lanesAt [0, 1, 2] x.1, x.2)) =
    [([0x40400000, 0x41100000, 0, 0, 0, 0], 0x4000)] ∧
    (issues (.madd 3 1 2 (.v 0) 0) (moments 0)).map (fun x => (lanesAt [1] x.1, x.2)) = [([0, 0x40000000], 0)] := by
  decide +kernel
-- The same example with the clamp off: cause 0x20 for lane 1 and slot 2; and under INDEP with C non-zero: cause 0x02.
theorem test_madd_trap : ending? (.madd 3 1 2 (.v 5) 0) (moments 3) = some (.trapped 0x20 0x201) ∧
    (match ending? (.madd 3 1 2 (.v 5) 0) (moments 0) with | some (.trapped c _) => c == 0x02 | _ => false) = true := by
  decide +kernel
-- The same example: the mchi of (3.0, 9.0) with k = 2.0.
theorem test_mchi : (issues (.mchi (.reg 6) 3 (.g 8) 0) (withG (withM s0 3 [0x40400000] [0x41100000]) 8 0x40000000)).map
      (fun x => (lanesAt [0, 1] x.1, x.2)) = [([0x41100000, 0], 0)] := by decide +kernel
-- Chapter 2, example: MomentMul, MomentScale and the two sums of (2.0, 0.25) and (3.0, 1.0) (R84, R85).
theorem test_moment_operations :
    momentMul ⟨0x40000000, 0x3E800000⟩ ⟨0x40400000, 0x3F800000⟩ = ⟨0x40C00000, 0x40D00000⟩ ∧
    momentScale 0xBF000000 ⟨0x40000000, 0x3E800000⟩ = ⟨0xBF800000, 0x3D800000⟩ ∧
    momentAddSub false 0 0 ⟨0x40000000, 0x3E800000⟩ ⟨0x40400000, 0x3F800000⟩ = ⟨0x40A00000, 0x3FA00000⟩ ∧
    momentAddSub false 1 0 ⟨0x40000000, 0x3E800000⟩ ⟨0x40400000, 0x3F800000⟩ = ⟨0x40A00000, 0x40100000⟩ := by decide +kernel
-- Chapter 2, example: UPPER and LOWER of (1.0, 0.25) with k = 2.0: 2.0 and -0.
theorem test_collapses : collapseUpper ⟨0x3F800000, 0x3E800000⟩ 0x40000000 = 0x40000000 ∧
    collapseLower ⟨0x3F800000, 0x3E800000⟩ 0x40000000 = 0x80000000 := by decide +kernel
-- Chapter 2, example: one BF16 group of two products of 2^-12 and 2^-12 on 1.0 (R93).
theorem test_group_sum :
    let p := (fdecode bf16 0x3980).mul (fdecode bf16 0x3980)
    accumulate 0 0x3F800000 (groupSum [p, p]) = 0x3F800001 := by decide +kernel
-- Chapter 7, example, steps 1 and 2: a tagged put of 256 bytes at an empty cell of EXP 512, and the one that fills it.
theorem test_tagged_put :
    let m (a : Nat) : Msg := msgOf (.pod .put) fun m => { m with tag := true, stage := .atPort, addr := a, data := List.replicate 256 1 }
    let s (a n : Nat) : State := { arriving (m a) false [] with mems := s0.mems.setTag 40 ⟨false, BitVec.ofNat 11 n, 512⟩ }
    let after (a n : Nat) : Option Tag := match exec (.taggedWrite 5) (s a n) with | .next t => some (t.mems.tag 40) | _ => none
    after 0xA000 0 = some ⟨false, 256, 512⟩ ∧ after 0xA100 256 = some ⟨true, 512, 512⟩ := by decide +kernel
-- Chapter 4, example: the bundle that ends loops 1 and 2: the inner loop's back edge, then the outer one's, then none.
theorem test_loop_end :
    let l (a b : U64) : LoopRegs := { s0.me.loop with
      lact := lactOf [2, 1], lcnt := (s0.me.loop.lcnt.set 1 a).set 2 b, lbeg := (s0.me.loop.lbeg.set 1 3).set 2 4
      lend := (s0.me.loop.lend.set 1 4).set 2 4 }
    let after (a b : U64) := (fun x : LoopRegs × Option U64 => (x.1.lcnt[1], x.1.lcnt[2], loopOrder x.1.lact, x.2))
      (loopBack 4 [2, 1] (l a b))
    after 3 2 = (3, 1, [2, 1], some 4) ∧ after 3 1 = (2, 0, [1], some 3) ∧ after 1 1 = (0, 0, [], none) := by decide +kernel
-- Chapter 6, example: drainq.bias.zp of 300 and 1000 in column 3 of a 2 by 4 tile: 0x59, and 0x7F with VSAT (R202).
theorem test_drainq :
    let sh := shape [(4, 2), (5, 4), (17, 5), (2, 1), (7, 1)]
    let put (m : Mems) (a : Nat) (bs : List Byte) : Mems := (bs.zipIdx a).foldl (fun m x => m.setByte .spl x.2 x.1) m
    let acc (m : Mems) (i v : Nat) : Mems :=
      ((leBytes 4 v).zipIdx ((owning sh).accAt 8 i 3)).foldl (fun m x => m.setByte .acc x.2 x.1) m
    let m := put (put s0.mems (1024 + 48) [0x55, 0x55, 0x55, 0x55, 0x20, 0, 5, 0]) (1024 + 56) [0xD0, 0xFF, 0xFF, 0xFF]
    let s : State := { owning sh with mems := acc (acc m 0 300) 1 1000 }
    let o := s.runDrainq { entry .nop false with shape := sh } 8 true true
    ((o.writes.drop 3).head?.map (·.2.2), (o.writes.drop 7).head?.map (·.2.2)) = (some [0x59], some [0x7F]) ∧
      o.stat = flVSAT := by decide +kernel
-- Chapter 1, example, bundles 0 and 1: a step issues the bundle at 0; the result is due (nothing left to wait) at the next. The turn has
-- gone to the next core.
theorem test_step : (match step (State.reset.withFetchWord 32 0x0C400028) with
    | .next t => t.rest.getLast?.any fun (c : CoreRec) =>
        c.core.phys == 0 && c.t0.infl.map (fun e => (e.res, e.rem)) == [(.g (.reg 4) 5 true, 0)] && c.t0.pc == 1
    | _ => false) = true := by decide +kernel

end Sys2Proof.Tests
end

section
/-! Proofs of the statements about the core and its registers (01_core_and_registers.md). -/
namespace Sys2Proof.Machine

/-! ### Bit fields and constant registers -/

/-- Bit j of a register with the field of n bits at bit lo replaced: the field's bits come from the new value. -/
theorem getLsbD_setField {w : Nat} (x : BitVec w) (lo n v j : Nat) (hj : j < w) :
    (setField x lo n v).getLsbD j = if lo ≤ j ∧ j < lo + n then v.testBit (j - lo) else x.getLsbD j := by
  simp only [setField, BitVec.getLsbD_or, BitVec.getLsbD_and, BitVec.getLsbD_not, BitVec.getLsbD_ofNat, hj,
    Nat.testBit_mul_two_pow, Nat.testBit_two_pow_sub_one, Nat.testBit_mod_two_pow]
  by_cases hlo : lo ≤ j
  · have hn : j - lo < n ↔ j < lo + n := by omega
    by_cases h : j < lo + n <;> simp [hlo, hn, h]
  · simp [hlo]

theorem Regs.land_shp_ms (r : Regs) (q : Bool) (reg : U2) (f : U5) (v : U64) :
    (r.land q (.shp false reg f v true)).msS[reg.toNat] =
      setField r.msS[reg.toNat] (msField f).1 (msField f).2 v.toNat := by
  simp [Regs.land]

theorem Regs.land_shp_xs (r : Regs) (q : Bool) (reg : U2) (f : U5) (v : U64) :
    (r.land q (.shp true reg f v true)).xsS[reg.toNat] =
      setField r.xsS[reg.toNat] (xsField f).1 (xsField f).2 v.toNat := by
  simp [Regs.land]

/-- Settles O6: the issues are the definitions; the landing of a shadow write is a bit field replaced. -/
theorem shadowAndModeWrites : Obligations.ShadowAndModeWrites := by
  refine ⟨fun reg fld a m p s => ⟨rfl, rfl⟩, fun a m p s => ⟨rfl, rfl, rfl⟩, fun r q reg f v j hj => ⟨?_, ?_⟩,
    fun r q xs reg f v => rfl⟩
  · rw [Regs.land_shp_ms, getLsbD_setField _ _ _ _ _ hj]
    rfl
  · rw [Regs.land_shp_xs, getLsbD_setField _ _ _ _ _ hj]
    rfl

theorem Regs.readP_writeP (r : Regs) (i j : U3) (x : Bool) :
    (r.writeP i x).readP j = if j = i ∧ i ≠ 0 then x else r.readP j := by
  by_cases hi : i = 0
  · simp [Regs.writeP, hi]
  · simp only [Regs.writeP, if_neg hi, Regs.readP, Vector.getElem_set, BitVec.toNat_inj]
    by_cases hj : j = i
    · simp [hj, show ¬ i = 0#3 from hi]
    · simp [hj, Ne.symm hj]

theorem Regs.readK_writeK (r : Regs) (i j : U3) (x : U64) :
    (r.writeK i x).readK j = if j = i ∧ i ≠ 0 then x else r.readK j := by
  by_cases hi : i = 0
  · simp [Regs.writeK, hi]
  · simp only [Regs.writeK, if_neg hi, Regs.readK, Vector.getElem_set, BitVec.toNat_inj]
    by_cases hj : j = i
    · simp [hj, show ¬ i = 0#3 from hi]
    · simp [hj, Ne.symm hj]

@[simp] theorem Regs.writeG_zero (r : Regs) (x : U64) : r.writeG 0 x = r := rfl
@[simp] theorem Regs.writeP_zero (r : Regs) (x : Bool) : r.writeP 0 x = r := rfl
@[simp] theorem Regs.writeK_zero (r : Regs) (x : U64) : r.writeK 0 x = r := rfl

/-! ### The six-bit scalar source field (R32) -/

theorem srcOf_general : ∀ x : U6, x.toNat < 32 → srcOf x = .g (x.setWidth 5) := by decide

theorem srcOf_queue : ∀ x : U6, 32 ≤ x.toNat → x.toNat < 48 →
    srcOf x = .q (x.setWidth 4) ∧ (x.setWidth 4).toNat = x.toNat - 32 := by decide

theorem srcOf_constant : ∀ x : U6, 48 ≤ x.toNat →
    srcOf x = .c (x.setWidth 4) ∧ ((x.setWidth 4).zeroExtend 64 - 8 : U64).toInt = (x.toNat : Int) - 56 := by decide

theorem Regs.land_g_zero (r : Regs) (noq : Bool) (x : U64) (b : Bool) :
    r.land noq (.g (.reg 0) x b) = if noq then r else r.enterQ (if b then x else 0) := by
  cases noq <;> cases b <;> rfl

theorem Regs.land_p_zero (r : Regs) (noq b c : Bool) : r.land noq (.p 0 b c) = r := by
  cases c <;> rfl

theorem Regs.src_general (r : Regs) (x : U6) (h : x.toNat < 32) : r.src (srcOf x) = r.readG (x.setWidth 5) := by
  rw [srcOf_general x h]
  rfl

theorem Regs.src_queue (r : Regs) (x : U6) (h0 : 32 ≤ x.toNat) (h : x.toNat < 48) :
    r.src (srcOf x) = r.q[x.toNat - 32] := by
  obtain ⟨hs, ha⟩ := srcOf_queue x h0 h
  simp only [hs, Regs.src, ha]

theorem Regs.src_constant (r : Regs) (x : U6) (h : 48 ≤ x.toNat) :
    (r.src (srcOf x)).toInt = (x.toNat : Int) - 56 := by
  obtain ⟨hs, hv⟩ := srcOf_constant x h
  rw [hs]
  exact hv

/-- Settles O9: the constant registers by the reads after a write, and the source field by its three ranges. -/
theorem operandsRead : Obligations.OperandsRead :=
  ⟨fun r x b => ⟨r.readG_zero, r.readP_zero, r.readK_zero, r.writeG_zero x, r.writeP_zero b, r.writeK_zero x,
      fun i j => r.readG_writeG i j x, fun i j => r.readP_writeP i j b, fun i j => r.readK_writeK i j x⟩,
    fun r x _ b c noq => ⟨r.land_g_zero noq x b, r.land_p_zero noq b c, rfl⟩,
    fun r x => ⟨r.src_general x, r.src_queue x, r.src_constant x⟩⟩

/-! ### A trap taken while the sequencer runs (R144, R270) -/

/-- The reset state with the sequencer of R269 active in the slot whose turn it is. -/
def inMacroAtReset : State :=
  { State.reset with me := { State.reset.me with mac := { MacroRegs.reset with mpc := 0x8000000000000000 } } }

/-- A trap of cause 0x01 in slot 0 of the bundle at address 0. -/
def wordTrapAtZero : TrapEvent := ⟨0x01, 0, false, false, 0, 0, 0⟩

/-- Whether a step leaves the sequencer of the slot waiting for a return. -/
def leavesMacroAway : Out → Bool
  | .next t => t.me.mac.away
  | _ => false

theorem trapEntry_leavesMacroAway : leavesMacroAway (exec (.trapEntry wordTrapAtZero) inMacroAtReset) = true := rfl

/-- Refutes O16: a trap that is delivered while the sequencer is active also marks it as waiting for the return
(R270), a change of the slot that the statement's list leaves out. -/
theorem not_trapEntry : ¬ Obligations.TrapEntry := by
  rintro ⟨-, toSupervisor, -⟩
  have notUser : ¬ (routedToUser inMacroAtReset.me wordTrapAtZero.code ∧ inMacroAtReset.me.trap.uvec ≠ 0 ∧
      inMacroAtReset.me.f0 = none) := fun h => h.2.1 rfl
  obtain ⟨f, cause, iss, dev, -, -, -, -, h⟩ := toSupervisor wordTrapAtZero inMacroAtReset notUser (.inl rfl)
  have away := trapEntry_leavesMacroAway
  rw [h] at away
  exact absurd away (by simp [leavesMacroAway, inMacroAtReset, MacroRegs.reset])

/-! ### The instructions that only deliver results (R24, R27) -/

/-- Where the instruction has issued, t is s with more results in flight, and perhaps a random word drawn. -/
def DeliversOnly (s t : State) : Prop := t.me.iss.res = .issued → s.onlyIss t ∧ s.me.iss.onlyResults t.me.iss

theorem issue_deliversOnly {s : State} {lat : Nat} {r : Res} {stat : U16} : DeliversOnly s (s.issue lat r stat) :=
  fun _ => ⟨rfl, rfl, List.prefix_append _ _⟩

@[simp] theorem Thread.takeTrap_res (t : Thread) (ev : TrapEvent) :
    (t.takeTrap ev).iss.res = .trapped ev.code ev.info := by
  unfold Thread.takeTrap
  dsimp only
  split <;> rfl

theorem trap_deliversOnly {s : State} {code : Byte} {info : U64} : DeliversOnly s (s.trap code info) := fun h => by
  simp [Thread.trapAtIssue] at h

theorem hold_deliversOnly {s : State} : DeliversOnly s s.hold := fun h => by
  simp at h

theorem DeliversOnly.of_drew {s t : State} (h : DeliversOnly s.drew t) : DeliversOnly s t := fun hres => h hres

/-- A form that draws delivers only results if it does so with every word, drawn or not (R72). -/
theorem withW_deliversOnly {s : State} {need : Bool} {f : U64 → State → State} (h : ∀ w u, DeliversOnly u (f w u)) :
    DeliversOnly s (s.withW need f) := by
  unfold State.withW
  split
  · split
    · exact hold_deliversOnly
    · exact DeliversOnly.of_drew (h _ s.drew)
  · exact h 0 s

theorem fvec_deliversOnly {s : State} {lat : Nat} {d : Dst} {t k rm : U3} {f : Fmt → Nat → Nat → Nat → FR} :
    DeliversOnly s (s.fvec lat d t k rm f) :=
  withW_deliversOnly fun _ _ => issue_deliversOnly

/-- A conversion reads its source in the state in which it issues, and draws as a floating form does. -/
theorem convert_deliversOnly {s : State} {d : Dst} {a : VSrc} {src dst : Nat} {k : U3} {part : U2} {rm : U3} {sat : Bool} :
    DeliversOnly s (s.convert d a src dst k part rm sat) := by
  refine withW_deliversOnly fun _ _ => ?_
  split <;> exact issue_deliversOnly

theorem moment_deliversOnly {s : State} {lat : Nat} {k : U3} {ps : Nat → List Pair} {xs negs : Nat → List Nat}
    {f : Nat → List Pair → Pair} {res : (Nat → Pair) → Res} : DeliversOnly s (s.moment lat k ps xs negs f res) := by
  unfold State.moment
  dsimp only
  split
  · exact trap_deliversOnly
  · exact issue_deliversOnly

theorem momAdd_deliversOnly {s : State} {sub : Bool} {d a b : U4} {c : VSrc} {k : U3} :
    DeliversOnly s (s.momAdd sub d a b c k) := by
  unfold State.momAdd
  dsimp only
  split
  · exact trap_deliversOnly
  · exact moment_deliversOnly

theorem rngpop_deliversOnly (d : Dst) (p : U3) (s : State) :
    ∃ t, exec (.rngpop d p) s = .next t ∧ DeliversOnly s t := by
  refine ⟨_, rfl, ?_⟩
  split
  · exact withW_deliversOnly fun _ _ => issue_deliversOnly
  · exact issue_deliversOnly

/-- Each instruction that delivers results only is an issue, a floating form that may draw, or a checked moment form. -/
theorem resultOnly_deliversOnly (i : Instr) (s : State) (h : resultOnly i = true) :
    ∃ t, exec i s = .next t ∧ DeliversOnly s t := by
  cases i with
  | add | sub | and | or | xor | andn | sll | srl | sra | ror | min | max | minu | maxu | slt | sltu | addw | subw | sllw
  | srlw | sraw | mul | mulh | mulhu | mulhsu | mulw | addsat | subsat | addsatw | subsatw | addsatu | subsatu | mulsatw
  | div | divu | rem | remu | addi | andi | ori | xori | slli | srli | srai | rori | slliw | srliw | sraiw | roriw | ldi
  | ldis | cmp | cmpi | pand | por | pxor | pandn | kfromg | gfromk | pfromg | gfromp | sel | seln | bext | bextu | bins
  | clz | ctz | popc | bswap | brev | adds | setdev | setcore | shwMs | shwXs | mmset | mmcov | mmclamp =>
    exact ⟨_, rfl, issue_deliversOnly⟩
  | viadd | visub | viadds | visubs | vimul | vimulh | vimin | vimax | vand | vor | vxor | vandn | vsll | vsrl | vsra
  | vrol | vfcmpEq | vfcmpLt | vfcmpLe | vfcmpUn | vicmpEq | vicmpLt | vicmpLe | vicmpLtu | vperm | vziplo | vziphi
  | vunzip | vrot | vshdn | vshup | vrev | vfredsum | vfredmax | viredsum | viredmax | vbcast | vins | vext | vbcastl
  | kand | kor | kxor | kandn | vsel | vimad | mmake =>
    exact ⟨_, rfl, issue_deliversOnly⟩
  | vadd | vsub | vmin | vmax | vmul | vdiv | vabs | vneg | vsqrt | vrcp | vfrac | vclass | vfma | vfms | vfnma | vfnms
  | vexp2 | vlog2 | vrsqrt | vtanh | vsinpi | vcospi | verf | vsigm =>
    exact ⟨_, rfl, fvec_deliversOnly⟩
  | vcvtFf | vcvtFi => exact ⟨_, rfl, convert_deliversOnly⟩
  | mgetm | mgetv | mmov | mmul | mscale | mrelu | mexp | msigm | mgelu | mcmean | mchi | mclo =>
    exact ⟨_, rfl, moment_deliversOnly⟩
  | madd | msub => exact ⟨_, rfl, momAdd_deliversOnly⟩
  | mcdraw => exact ⟨_, rfl, withW_deliversOnly fun _ _ => moment_deliversOnly⟩
  | rngpop d p => exact rngpop_deliversOnly d p s
  | _ => exact absurd h Bool.false_ne_true

/-- Settles O8: by the shapes of the instructions' meanings. -/
theorem resultInstructionsFrame : Obligations.ResultInstructionsFrame :=
  fun i s h _ => resultOnly_deliversOnly i s h

/-! ### Copy channels (R245, R246, R251, R253) -/

/-- The channel looked up is the one asked for. -/
theorem Dev.chan_key (d : Dev) (cl ch : Nat) : (d.chan cl ch).cl = cl ∧ (d.chan cl ch).ch = ch := by
  unfold Dev.chan
  cases h : d.chans.find? fun c => c.cl == cl && c.ch == ch with
  | none => exact ⟨rfl, rfl⟩
  | some c => simpa using List.find?_some h

theorem Dev.chan_setChan_same (d : Dev) (c : Channel) : (d.setChan c).chan c.cl c.ch = c := by
  simp [Dev.chan, Dev.setChan]

theorem Dev.chan_setChan_ne (d : Dev) (c : Channel) (k m : Nat) (h : (k, m) ≠ (c.cl, c.ch)) :
    (d.setChan c).chan k m = d.chan k m := by
  have apart (x : Channel) (hx : (x.cl == k && x.ch == m) = true) : (x.cl == c.cl && x.ch == c.ch) = false := by
    simp only [Bool.and_eq_true, beq_iff_eq] at hx
    obtain ⟨rfl, rfl⟩ := hx
    simpa using h
  have hc : (c.cl == k && c.ch == m) = false := Bool.eq_false_iff.2 fun hx => by
    simpa using apart c hx
  simp only [Dev.chan, Dev.setChan, List.find?_cons, hc, List.find?_filter]
  congr 2
  funext x
  cases hx : x.cl == k && x.ch == m with
  | false => simp
  | true => simp [apart x hx]

/-- The channels of the device with transfer t of the slot at the end of channel n of its cluster. -/
def State.chansWith (s : State) (n : Nat) (t : Transfer) : List Channel :=
  let c := s.dev.chan (clusterOf s.core.phys) n
  (s.dev.setChan { c with q := c.q ++ [t] }).chans

theorem State.chansWith_same (s : State) (n : Nat) (t : Transfer) :
    (({ s.dev with chans := s.chansWith n t } : Dev).chan (clusterOf s.core.phys) n).q =
      (s.dev.chan (clusterOf s.core.phys) n).q ++ [t] := by
  obtain ⟨hcl, hch⟩ := s.dev.chan_key (clusterOf s.core.phys) n
  have h := Dev.chan_setChan_same s.dev { s.dev.chan (clusterOf s.core.phys) n with
    q := (s.dev.chan (clusterOf s.core.phys) n).q ++ [t] }
  rw [hcl, hch] at h
  exact congrArg Channel.q h

theorem State.chansWith_ne (s : State) (n : Nat) (t : Transfer) (k m : Nat) (h : (k, m) ≠ (clusterOf s.core.phys, n)) :
    ({ s.dev with chans := s.chansWith n t } : Dev).chan k m = s.dev.chan k m := by
  obtain ⟨hcl, hch⟩ := s.dev.chan_key (clusterOf s.core.phys) n
  refine Dev.chan_setChan_ne s.dev _ k m ?_
  rwa [hcl, hch]

/-- A transfer as the slot appends it: under its channel's next identifier and the device's next serial number. -/
def State.ownTransfer (s : State) (n : U4) (t : Transfer) : Transfer :=
  { t with id := s.me.nextId[n.toNat].toNat, serial := s.dev.serial + 1, who := s.me.who, phys := s.core.phys,
           slot1 := s.me.slot1, mark := s.dev.nextMsg }

theorem vector_getD_toList {α : Type} {k : Nat} (v : Vector α k) (i : Nat) (h : i < k) (x : α) : v.toList.getD i x = v[i] := by
  simp [List.getD, h]

/-- What appending a transfer changes: the channel, the identifiers, the serial number, and the transfers to follow. -/
theorem State.appendTransfer_eq (s : State) (n : U4) (t : Transfer) :
    s.appendTransfer n.toNat t = { s with
      me := { s.me with
        nextId := s.me.nextId.set n.toNat (s.me.nextId[n.toNat] + 1) n.isLt
        follows := if t.follow then s.me.follows ++ [(clusterOf s.core.phys * 16 + n.toNat, s.dev.serial + 1)]
          else s.me.follows }
      dev := { s.dev with serial := s.dev.serial + 1, chans := s.chansWith n.toNat (s.ownTransfer n t) } } := by
  have hn : n.toNat < 16 := n.isLt
  simp only [State.appendTransfer, vector_getD_toList _ _ hn, dif_pos hn]
  rfl

/-- An instruction whose checks pass and that appends a transfer delivers its identifier (R246, R251, R253). -/
theorem State.appendTransfer_appends (s : State) (n : U4) (t : Transfer) :
    ∃ chans : List Channel,
      s.appendTransfer n.toNat t = { s with
        me := { s.me with
          nextId := s.me.nextId.set n.toNat (s.me.nextId[n.toNat] + 1) n.isLt
          follows := if t.follow then s.me.follows ++ [(clusterOf s.core.phys * 16 + n.toNat, s.dev.serial + 1)]
            else s.me.follows }
        dev := { s.dev with serial := s.dev.serial + 1, chans := chans } } ∧
      (({ s.dev with chans := chans } : Dev).chan (clusterOf s.core.phys) n.toNat).q =
        (s.dev.chan (clusterOf s.core.phys) n.toNat).q ++ [s.ownTransfer n t] ∧
      ∀ k m : Nat, (k, m) ≠ (clusterOf s.core.phys, n.toNat) →
        ({ s.dev with chans := chans } : Dev).chan k m = s.dev.chan k m :=
  ⟨_, s.appendTransfer_eq n t, s.chansWith_same n.toNat _, s.chansWith_ne n.toNat _⟩

theorem Regs.swapXs_live (r : Regs) (x : U2) (sw : Bool) :
    (r.swapXs x sw).xsL[x.toNat] = if sw then r.xsS[x.toNat] else r.xsL[x.toNat] := by
  cases sw <;> simp [Regs.swapXs]

theorem exec_copy_ok (x : U2) (sw : Bool) (a : U5) (d : Dst) (n : U4) (tier : U2) (tag follow : Bool) (p : U3) (s : State)
    (hp : s.pred p = true)
    (ok : s.copyCheck (if sw then s.me.regs.xsS[x.toNat] else s.me.regs.xsL[x.toNat]) (s.me.regs.readG a)
      (s.me.regs.readG (a + 1)) tag tier.toNat follow n.toNat = .ok ()) :
    let t := s.appendTransfer n.toNat
      ⟨0, 0, s.me.who, 0, false, if sw then s.me.regs.xsS[x.toNat] else s.me.regs.xsL[x.toNat], s.me.regs.readG a,
        s.me.regs.readG (a + 1), tag, tier.toNat, follow, false, 0, 0, 0, true, 0, 0⟩
    exec (.copy x sw a d n tier tag follow p) s = .next ({ t with
      me := { t.me with regs := s.me.regs.swapXs x sw } }.issueG 1 d p s.me.nextId[n.toNat] 0) := by
  change execCopy x sw a d n tier tag follow p s = _
  simp only [execCopy, hp, if_true, Regs.swapXs_live, ok, State.settle_ok]
  rfl

/-- A channel that the context may not use (R253). -/
theorem exec_cchain_masked (d : Dst) (b : Src) (n : U4) (p : U3) (s : State) (hp : s.pred p = true)
    (hc : s.me.sp.cmask.getLsbD n.toNat = false) :
    exec (.cchain d b n p) s = .next (s.trap 0x12 (BitVec.ofNat 64 n.toNat)) := by
  change execCchain d b n p s = _
  simp [execCchain, hp, hc, bind, Except.bind]

theorem exec_cwait_masked (n : U4) (c : Src) (p : U3) (s : State) (hp : s.pred p = true)
    (hc : s.me.sp.cmask.getLsbD n.toNat = false) :
    exec (.cwait n c p) s = .next (s.trap 0x12 (BitVec.ofNat 64 n.toNat)) := by
  change execCwait n c p s = _
  simp [execCwait, State.when, hp, hc, bind, Except.bind]

theorem exec_cchain_misaligned (d : Dst) (b : Src) (n : U4) (p : U3) (s : State) (hp : s.pred p = true)
    (hc : s.me.sp.cmask.getLsbD n.toNat = true) (ha : (s.src b).toNat % 64 ≠ 0) :
    exec (.cchain d b n p) s = .next (s.trap 0x10 (s.src b)) := by
  change execCchain d b n p s = _
  simp [execCchain, hp, hc, ha]

theorem exec_cchain_ok (d : Dst) (b : Src) (n : U4) (p : U3) (s : State) (hp : s.pred p = true)
    (hc : s.me.sp.cmask.getLsbD n.toNat = true) (ha : (s.src b).toNat % 64 = 0) :
    exec (.cchain d b n p) s = .next ((s.appendTransfer n.toNat
      ⟨0, 0, s.me.who, 0, false, 0, 0, 0, false, 0, false, true, s.src b, 0, 0, false, 0, 0⟩).issueG 1 d p
        s.me.nextId[n.toNat] 0) := by
  change execCchain d b n p s = _
  simp only [execCchain, hp, hc, ha]
  rfl

theorem State.settle_reported (s : State) (f : Unit → State) :
    s.settle s.reported f =
      if s.me.sp.rfault.getLsbD 63 then s.trap (s.me.sp.rfault.extractLsb' 8 8) s.me.sp.rfaddr else f () := by
  unfold State.reported
  split <;> rfl

theorem exec_cwait_open (n : U4) (c : Src) (p : U3) (s : State) (hp : s.pred p = true)
    (hc : s.me.sp.cmask.getLsbD n.toNat = true) :
    exec (.cwait n c p) s = .next (
      if (s.cdone n.toNat).toNat ≤ (s.src c).toNat then s.hold
      else if s.me.sp.rfault.getLsbD 63 then s.trap (s.me.sp.rfault.extractLsb' 8 8) s.me.sp.rfaddr
      else s) := by
  change execCwait n c p s = _
  by_cases hd : (s.cdone n.toNat).toNat ≤ (s.src c).toNat
  · simp [execCwait, State.when, hp, hc, BitVec.ult, hd, bind, Except.bind]
  · simp [execCwait, State.when, hp, hc, BitVec.ult, hd, State.settle_reported]

/-- Settles O45: an instruction that issues appends its transfer by `State.appendTransfer_appends`; the others stop at the
check that the statement names. -/
theorem copiesAndChains : Obligations.CopiesAndChains := by
  intro x sw tag follow a b c d n tier p s hp cl id serial sh regs appends
  refine ⟨fun ok => ?_, ?_⟩
  · obtain ⟨chans, ht, same, others⟩ := s.appendTransfer_appends n
      ⟨0, 0, s.me.who, 0, false, sh, s.me.regs.readG a, s.me.regs.readG (a + 1), tag, tier.toNat, follow, false, 0, 0, 0,
        true, 0, 0⟩
    refine ⟨chans, ?_, same, others⟩
    rw [exec_copy_ok x sw a d n tier tag follow p s hp ok, ht]
    rfl
  · split
    · next hc => exact ⟨exec_cchain_masked d b n p s hp hc, exec_cwait_masked n c p s hp hc⟩
    · next hc =>
      rw [Bool.not_eq_false] at hc
      refine ⟨?_, exec_cwait_open n c p s hp hc⟩
      split
      · next ha => exact exec_cchain_misaligned d b n p s hp hc ha
      · next ha =>
        rw [Classical.not_not] at ha
        obtain ⟨chans, ht, same, others⟩ := s.appendTransfer_appends n
          ⟨0, 0, s.me.who, 0, false, 0, 0, 0, false, 0, false, true, s.src b, 0, 0, false, 0, 0⟩
        refine ⟨chans, ?_, same, others⟩
        rw [exec_cchain_ok d b n p s hp hc ha, ht]

/-! ### Headers, macros, seeds and tiles (R72, R103, R269, R272, R274, R331) -/

theorem Dev.onlyBad_refl (d : Dev) : d.onlyBad d := ⟨rfl, fun _ => rfl⟩

theorem Dev.latchesReplaced_onlyBad (d : Dev) (slot : Nat) : d.onlyBad (d.latchesReplaced slot) := by
  unfold Dev.latchesReplaced
  split
  · exact d.onlyBad_refl
  · next h => exact ⟨rfl, fun hb => absurd (by simp [hb]) h⟩

theorem toNat_append_eq_add {m n : Nat} (x : BitVec m) (y : BitVec n) : (x ++ y).toNat = x.toNat * 2 ^ n + y.toNat := by
  rw [BitVec.toNat_append, ← Nat.shiftLeft_add_eq_or_of_lt y.isLt, Nat.shiftLeft_eq]

theorem sixteenBitDigits_sum (a b c d : Nat) :
    ((a * 2 ^ 16 + b) * 2 ^ 16 + c) * 2 ^ 16 + d = a * 2 ^ 48 + b * 2 ^ 32 + c * 2 ^ 16 + d := by
  omega

/-- The count k that starts the sequencer is the field of its source, a count of 0 taken as 1 (R269). -/
theorem macroCounts_field (a : U64) (k : Nat) (h : k < 4) :
    (macroCounts a).toNat / 2 ^ (16 * k) % 65536 = Nat.max 1 (a.toNat / 2 ^ (16 * k) % 65536) := by
  have count (n : Nat) : (if a.extractLsb' (16 * n) 16 = 0 then 1 else a.extractLsb' (16 * n) 16 : U16).toNat =
      Nat.max 1 (a.toNat / 2 ^ (16 * n) % 65536) := by
    have hx : (a.extractLsb' (16 * n) 16).toNat = a.toNat / 2 ^ (16 * n) % 65536 := by
      rw [BitVec.extractLsb'_toNat, Nat.shiftRight_eq_div_pow]
    split
    · next h0 =>
      rw [h0] at hx
      rw [← hx]
      rfl
    · next h0 =>
      have : (a.extractLsb' (16 * n) 16).toNat ≠ 0 := fun h => h0 (BitVec.eq_of_toNat_eq h)
      rw [hx] at this ⊢
      simp only [Nat.max_def]
      split <;> omega
  have lt (n : Nat) : Nat.max 1 (a.toNat / 2 ^ (16 * n) % 65536) < 65536 :=
    Nat.max_lt.2 ⟨by decide, Nat.mod_lt _ (by decide)⟩
  have all : (macroCounts a).toNat = Nat.max 1 (a.toNat / 2 ^ (16 * 3) % 65536) * 2 ^ 48 +
      Nat.max 1 (a.toNat / 2 ^ (16 * 2) % 65536) * 2 ^ 32 + Nat.max 1 (a.toNat / 2 ^ (16 * 1) % 65536) * 2 ^ 16 +
      Nat.max 1 (a.toNat / 2 ^ (16 * 0) % 65536) := by
    simp only [macroCounts, toNat_append_eq_add, count]
    exact sixteenBitDigits_sum _ _ _ _
  have l0 := lt 0
  have l1 := lt 1
  have l2 := lt 2
  have l3 := lt 3
  rw [all]
  obtain rfl | rfl | rfl | rfl : k = 0 ∨ k = 1 ∨ k = 2 ∨ k = 3 := by omega
  all_goals omega

/-- The oldest word of the random-bit queue is drawn (R72). -/
theorem State.withW_cons (s : State) (f : U64 → State → State) {x : U64} {xs : List U64} (h : s.me.rnq = x :: xs) :
    s.withW true f = f x s.drew := by
  unfold State.withW
  simp only [if_true]
  split
  · next h0 => simp [h0] at h
  · next w ws hw =>
    rw [h] at hw
    obtain ⟨rfl, -⟩ := List.cons.inj hw
    rfl

theorem State.withW_nil (s : State) (f : U64 → State → State) (h : s.me.rnq = []) : s.withW true f = s.hold := by
  unfold State.withW
  simp only [if_true]
  split
  · rfl
  · next hw => simp [h] at hw

theorem exec_rngpop_draws (d : Dst) (p : U3) (s : State) :
    Draws (.rngpop d p) s (s.pred p = true) (fun x u t => t = u.issueG 1 d p x 0) := by
  refine ⟨fun h => ⟨_, ?_, rfl⟩, fun h x xs hq => ⟨_, ?_, rfl⟩, fun h hq => ?_⟩ <;>
    change execRngpop d p s = _
  · simp only [execRngpop, if_neg h]
  · simp only [execRngpop, if_pos h, s.withW_cons _ hq]
  · simp only [execRngpop, if_pos h, s.withW_nil _ hq]

theorem exec_hdr_group (e3 e2 e1 : Byte) (s : State) :
    ∃ dev : Dev, s.dev.onlyBad dev ∧ exec (.hdr true e3 e2 e1) s = .next { s with dev := dev, me := { s.me with
      regs := { s.me.regs with q := Vector.replicate 16 0, b := Vector.replicate 3 0 }
      infl := s.me.infl.map fun e => { e with noq := true }
      iss := { s.me.iss with cleared := some ⟨s.me.infl, s.me.regs.q, s.me.regs.b⟩ } } } :=
  ⟨_, s.dev.latchesReplaced_onlyBad _, rfl⟩

theorem exec_macroRun_active (a : Src) (idx : BitVec 10) (p : U3) (s : State) (hp : s.pred p = true)
    (hm : s.me.mac.mpc.getLsbD 63 = true) : exec (.macroRun a idx p) s = .next (s.trapWord 0x01) := by
  change execMacroRun a idx p s = _
  simp only [execMacroRun, State.when, hp, hm, if_true]

theorem exec_macroRun_idle (a : Src) (idx : BitVec 10) (p : U3) (s : State) (hp : s.pred p = true)
    (hm : s.me.mac.mpc.getLsbD 63 = false) :
    exec (.macroRun a idx p) s = .next { s with me := { s.me with mac :=
      { mpc := 1#1 ++ 0#53 ++ idx, spc := 0, mlc := macroCounts (s.src a), mlinit := s.src a,
        addr := pcAddr s.me.iss.bpc, next := s.me.iss.bpc + 1, marked := false
        lset := (loopOrder s.me.loop.lact).headD 8, away := false } } } := by
  change execMacroRun a idx p s = _
  simp only [execMacroRun, State.when, hp, hm, if_true]
  rfl

theorem macroStart_toNat (idx : BitVec 10) : (1#1 ++ 0#53 ++ idx).toNat = 2 ^ 63 + idx.toNat := by
  simp only [toNat_append_eq_add]
  rfl

theorem exec_rngseed (a b : Src) (flush : Bool) (p : U3) (s : State) (hp : s.pred p = true) :
    exec (.rngseed a b flush p) s = .next { s with me := { s.me with
      sp := { s.me.sp with
        rngs0 := if s.src a = 0 ∧ s.src b = 0 then 0x9E3779B97F4A7C15 else s.src a, rngs1 := s.src b }
      rnq := if flush then [] else s.me.rnq } } := by
  change execRngseed a b flush p s = _
  simp only [execRngseed, State.when, hp, if_true]
  rfl

theorem tcptr_next (x : U64) : ((x.extractLsb' 0 2 : U2) + 1).zeroExtend 64 = BitVec.ofNat 64 ((x.toNat + 1) % 4) := by
  apply BitVec.eq_of_toNat_eq
  simp only [BitVec.zeroExtend, BitVec.toNat_setWidth, BitVec.toNat_add, BitVec.extractLsb'_toNat, BitVec.ofNat_eq_ofNat,
    BitVec.toNat_ofNat, Nat.shiftRight_zero]
  omega

theorem exec_ntile (p : U3) (s : State) (hp : s.pred p = true) :
    exec (.ntile p) s = .next ({ s with
      dev := s.claim.2
      me := { s.me with sp := { s.me.sp with tcptr := BitVec.ofNat 64 ((s.me.sp.tcptr.toNat + 1) % 4) } } }.issue 24
        (.tc (s.me.sp.tcptr.extractLsb' 0 2) s.claim.1) 0) := by
  change execNtile p s = _
  simp only [execNtile, State.when, hp, if_true, tcptr_next]

theorem exec_unpredicated (a b : Src) (idx : BitVec 10) (flush : Bool) (p : U3) (s : State) (hp : s.pred p = false) :
    ∀ i ∈ [Instr.macroRun a idx p, .rngseed a b flush p, .ntile p], exec i s = .next s := by
  have off (f : State) : Host.Outcome.next (s.when (s.pred p) f) = (.next s : Out) := by
    simp [State.when, hp]
  simp only [List.forall_mem_cons, List.not_mem_nil, false_imp_iff, implies_true, and_true]
  exact ⟨off _, off _, off _⟩

/-! ### Tile claims (R272, R331) -/

/-- A partition changed under its own number is found changed. -/
theorem Dev.part_updPart (d : Dev) (n : Nat) (f : Part → Part) (p : Part) (hp : d.part n = some p)
    (hf : ∀ q : Part, (f q).num = q.num) : (d.updPart n f).part n = some (f p) := by
  unfold Dev.part at hp
  have hnum : p.num = n := by simpa using List.find?_some hp
  have keeps : (fun q : Part => q.num == n) ∘ (fun q => if q.num = n then f q else q) = fun q => q.num == n := by
    funext q
    by_cases h : q.num = n <;> simp [h, hf]
  simp only [Dev.part, Dev.updPart, List.find?_map, keeps, hp, Option.map_some, hnum, if_true]

/-- A graph changed under its own serial number is found changed, with its partition. -/
theorem Dev.graph_updGraph (d : Dev) (n serial : Nat) (f : Graph → Graph) (p : Part) (g : Graph)
    (hp : d.part n = some p) (hg : p.graph serial = some g) (hf : ∀ x : Graph, (f x).serial = x.serial) :
    ∃ q : Part, (d.updGraph n serial f).part n = some q ∧ q.graph serial = some (f g) := by
  refine ⟨_, d.part_updPart n _ p hp fun _ => rfl, ?_⟩
  unfold Part.graph at hg ⊢
  have hser : g.serial = serial := by simpa using List.find?_some hg
  have keeps : (fun x : Graph => x.serial == serial) ∘ (fun x => if x.serial = serial then f x else x) =
      fun x => x.serial == serial := by
    funext x
    by_cases h : x.serial = serial <;> simp [h, hf]
  simp only [List.find?_map, keeps, hg, Option.map_some, hser, if_true]

/-- The claim counters with that of one tile space counted up. -/
theorem find_claims_succ (cs : List (Nat × Nat)) (t i : Nat) (h : cs.find? (fun c => c.1 == t) = some (t, i)) (k : Nat) :
    ((cs.map fun c => if c.1 = t then (c.1, c.2 + 1) else c).find? fun c => c.1 == k) =
      if k = t then some (k, i + 1) else cs.find? fun c => c.1 == k := by
  have keeps : (fun c : Nat × Nat => c.1 == k) ∘ (fun c => if c.1 = t then (c.1, c.2 + 1) else c) = fun c => c.1 == k := by
    funext c
    by_cases hc : c.1 = t <;> simp [hc]
  rw [List.find?_map, keeps]
  by_cases hk : k = t
  · simp [hk, h]
  · rw [if_neg hk]
    cases hf : cs.find? fun c => c.1 == k with
    | none => rfl
    | some c =>
      have hc : c.1 = k := by simpa using List.find?_some hf
      simp [hc, hk]

/-- A slot with no task bound claims no tile. -/
theorem State.claim_unbound (s : State) (h : s.me.bound = none) : s.claim = (tileNull, s.dev) := by
  simp [State.claim, h]

/-- What a claim is for the node of the slot's task (R272, R331). -/
theorem State.claim_node (s : State) (b : Bound) (p : Part) (g : Graph) (n : GNode) (hb : s.me.bound = some b)
    (hp : s.dev.part b.part = some p) (hg : p.graph b.graph = some g) (hn : g.nodes[b.node]? = some n) :
    s.claim = if n.tiles = false ∨ n.inst = 0 then (tileNull, s.dev)
      else (n.tile ((g.claims.find? fun c => c.1 == n.tsid).elim 0 (·.2)), s.dev.updGraph b.part b.graph fun g =>
        { g with claims := g.claims.map fun c => if c.1 = n.tsid then (c.1, c.2 + 1) else c }) := by
  simp [State.claim, hb, hp, hg, hn]

theorem leNat_lt (bs : List Byte) : leNat bs < 256 ^ bs.length := by
  induction bs with
  | nil => exact Nat.one_pos
  | cons b bs ih =>
    have := b.isLt
    rw [leNat, List.length_cons, Nat.pow_succ]
    omega

/-- A two-byte field of a node's record. -/
theorem GNode.fld_lt (n : GNode) (off : Nat) : n.fld off 2 < 65536 := by
  have len : ((n.bytes.drop off).take 2).length ≤ 2 := List.length_take_le 2 _
  calc n.fld off 2 < 256 ^ ((n.bytes.drop off).take 2).length := leNat_lt _
    _ ≤ 256 ^ 2 := Nat.pow_le_pow_right (by decide) len

theorem GNode.tile_none (n : GNode) (i : Nat) (h : n.tileCount ≤ i) : n.tile i = tileNull := by
  simp [GNode.tile, h]

/-- The coordinates of a tile that exists fit their fields. -/
theorem GNode.tile_toNat (n : GNode) (i : Nat) (h : i < n.tileCount) :
    (n.tile i).toNat = i / (n.fld 16 2 * n.fld 18 2) * 2 ^ 32 +
      (if n.fld 22 1 = 0 then i / n.fld 16 2 % n.fld 18 2 * 2 ^ 16 + i % n.fld 16 2
        else i % n.fld 18 2 * 2 ^ 16 + i / n.fld 18 2 % n.fld 16 2) := by
  have hx := n.fld_lt 16
  have hy := n.fld_lt 18
  have hz := n.fld_lt 20
  have within : i < n.fld 16 2 * n.fld 18 2 * n.fld 20 2 := h
  have hxy : 0 < n.fld 16 2 * n.fld 18 2 := Nat.pos_of_ne_zero fun h0 => by simp [h0] at within
  have px : 0 < n.fld 16 2 := Nat.pos_of_mul_pos_right hxy
  have py : 0 < n.fld 18 2 := Nat.pos_of_mul_pos_left hxy
  have z : i / (n.fld 16 2 * n.fld 18 2) < n.fld 20 2 := Nat.div_lt_of_lt_mul within
  have mx (j : Nat) : j % n.fld 16 2 < 65536 := Nat.lt_trans (Nat.mod_lt j px) hx
  have my (j : Nat) : j % n.fld 18 2 < 65536 := Nat.lt_trans (Nat.mod_lt j py) hy
  have x0 := mx i
  have x1 := mx (i / n.fld 18 2)
  have y0 := my i
  have y1 := my (i / n.fld 16 2)
  simp only [GNode.tile, if_neg (Nat.not_le.2 h), BitVec.toNat_ofNat]
  split <;> omega

/-- A claim under a node that has a persistent tile space with i tiles claimed. -/
theorem State.claim_persistent (s : State) (b : Bound) (p : Part) (g : Graph) (n : GNode) (i : Nat)
    (hb : s.me.bound = some b) (hp : s.dev.part b.part = some p) (hg : p.graph b.graph = some g)
    (hn : g.nodes[b.node]? = some n) (ht : n.tiles = true) (h0 : n.inst ≠ 0)
    (hi : (g.claims.find? fun c => c.1 == n.tsid) = some (n.tsid, i)) :
    s.claim.1 = n.tile i ∧
      ∃ (p' : Part) (g' : Graph), s.claim.2.part b.part = some p' ∧ p'.graph b.graph = some g' ∧
        ∀ k : Nat, (g'.claims.find? fun c => c.1 == k) =
          if k = n.tsid then some (k, i + 1) else g.claims.find? fun c => c.1 == k := by
  have hc := s.claim_node b p g n hb hp hg hn
  rw [if_neg (by simp [ht, h0]), hi] at hc
  obtain ⟨q, hq, hq'⟩ := s.dev.graph_updGraph b.part b.graph (fun g =>
    { g with claims := g.claims.map fun c => if c.1 = n.tsid then (c.1, c.2 + 1) else c }) p g hp hg fun _ => rfl
  rw [hc]
  exact ⟨rfl, q, _, hq, hq', find_claims_succ g.claims n.tsid i hi⟩

theorem GNode.tiles_eq_true_iff (n : GNode) : n.tiles = true ↔ n.fld 2 1 / 4 % 2 = 1 := by
  simp [GNode.tiles]

/-- Settles O46: one lemma for each instruction, and the two kinds of a claim. -/
theorem headersMacrosSeedsAndTiles : Obligations.HeadersMacrosSeedsAndTiles := by
  intro e3 e2 e1 d a b idx flush p s
  refine ⟨exec_rngpop_draws d p s, fun t x xs hu hq => by simp [Thread.issued, hu, hq], rfl, rfl,
    exec_hdr_group e3 e2 e1 s, exec_macroRun_active a idx p s, fun hp hm => ?_, exec_rngseed a b flush p s,
    fun hp => ⟨_, exec_ntile p s hp, rfl⟩, s.claim_unbound, fun bd pt g nd hb hpt hg hn => ⟨fun none => ?_, ?_⟩,
    exec_unpredicated a b idx flush p s⟩
  · exact ⟨_, exec_macroRun_idle a idx p s hp hm, macroStart_toNat idx, rfl, rfl, macroCounts_field (s.src a), rfl, rfl⟩
  · rw [s.claim_node bd pt g nd hb hpt hg hn]
    refine if_pos (none.imp_left fun h => ?_)
    have tiles := nd.tiles_eq_true_iff
    exact Bool.eq_false_iff.2 fun ht => by
      have one := tiles.1 ht
      exact absurd (h.symm.trans one) (by decide)
  · intro i ht h0 hi
    obtain ⟨value, counted⟩ := s.claim_persistent bd pt g nd i hb hpt hg hn (nd.tiles_eq_true_iff.2 ht) h0 hi
    rw [value]
    exact ⟨nd.tile_none i, nd.tile_toNat i, counted⟩

/-! ### Reset (R28, R29, R273, R451) -/

theorem Thread.reset_nested (slot1 : Bool) (n : Nat) (w : U64) : (Thread.reset slot1 n w).Nested :=
  Thread.nested_of_none rfl

theorem Regs.reset_scalars :
    (∀ i : Fin 32, Regs.reset.g[i] = 0 ∧ Regs.reset.v[i] = 0) ∧ (∀ i : Fin 16, Regs.reset.q[i] = 0 ∧ Regs.reset.m[i] = 0) ∧
      ∀ i : Fin 3, Regs.reset.b[i] = 0 := by
  simp [Regs.reset]

theorem Regs.reset_predicates :
    ∀ i : Fin 8, Regs.reset.p[i] = (i == 0) ∧ Regs.reset.k[i] = if i = 0 then BitVec.allOnes 64 else 0 := by
  decide

theorem Regs.reset_shapes :
    ∀ i : Fin 4, Regs.reset.msL[i] = 0 ∧ Regs.reset.msS[i] = 0 ∧ Regs.reset.xsL[i] = 0 ∧ Regs.reset.xsS[i] = 0 ∧
      Regs.reset.tc[i] = 0x8000000000000000 := by
  simp [Regs.reset]

/-- Every slot of the device at reset is a slot at core reset. -/
theorem State.reset_threads (t : Thread)
    (h : t = State.reset.me ∨ t = State.reset.sib ∨ ∃ c ∈ State.reset.rest, t = c.t0 ∨ t = c.t1) :
    ∃ (slot1 : Bool) (w : U64), t = Thread.reset slot1 64 w := by
  rcases h with rfl | rfl | ⟨c, hc, h⟩
  · exact ⟨_, _, rfl⟩
  · exact ⟨_, _, rfl⟩
  · obtain ⟨n, -, rfl⟩ := List.mem_map.1 hc
    rcases h with rfl | rfl <;> exact ⟨_, _, rfl⟩

theorem State.reset_nested : State.reset.Nested := by
  have nested (t : Thread)
      (h : t = State.reset.me ∨ t = State.reset.sib ∨ ∃ c ∈ State.reset.rest, t = c.t0 ∨ t = c.t1) : t.Nested := by
    obtain ⟨slot1, w, rfl⟩ := State.reset_threads t h
    exact Thread.reset_nested slot1 64 w
  exact ⟨nested _ (.inl rfl), nested _ (.inr (.inl rfl)),
    fun c hc => ⟨nested _ (.inr (.inr ⟨c, hc, .inl rfl⟩)), nested _ (.inr (.inr ⟨c, hc, .inr rfl⟩))⟩,
    fun c hc => nomatch hc⟩

theorem State.reset_phys : State.reset.rest.map (fun c => c.core.phys) = List.range' 1 159 := by
  rw [List.range'_eq_map_range]
  change ((List.range 159).map fun n => CoreRec.reset (n + 1)).map (fun c => c.core.phys) = _
  rw [List.map_map]
  exact List.map_congr_left fun n _ => Nat.add_comm n 1

/-- Settles O60: every slot is one at core reset, whose registers are those of `Regs.reset`. -/
theorem resetState : Obligations.ResetState := by
  refine ⟨rfl, State.reset_nested, rfl, State.reset_phys, fun t ht => ?_, rfl, rfl, rfl, rfl, rfl⟩
  obtain ⟨slot1, w, rfl⟩ := State.reset_threads t ht
  obtain ⟨scalars, queue, latches⟩ := Regs.reset_scalars
  exact ⟨scalars, queue, latches, Regs.reset_predicates, Regs.reset_shapes, rfl, rfl, rfl, rfl, rfl, rfl⟩

/-! ### Lanes (R30) -/

theorem laneBits_lt (k : U64) (n : Nat) : laneBits k n < 2 ^ (32 * n) := by
  induction n with
  | zero => exact Nat.one_pos
  | succ n ih =>
    rw [laneBits, Nat.mul_succ, Nat.pow_add]
    split <;> omega

/-- The bits that the masks' lanes govern: bit j is that of lane j / 32. -/
theorem testBit_laneBits (k : U64) (n j : Nat) : (laneBits k n).testBit j = (decide (j < 32 * n) && k.getLsbD (j / 32)) := by
  induction n with
  | zero => simp [laneBits]
  | succ n ih =>
    have shape : laneBits k (n + 1) = 2 ^ (32 * n) * (if k.getLsbD n then 2 ^ 32 - 1 else 0) + laneBits k n := by
      rw [laneBits]
      split <;> omega
    rw [shape, Nat.testBit_two_pow_mul_add _ (laneBits_lt k n), ih]
    by_cases low : j < 32 * n
    · simp [low, show j < 32 * (n + 1) by omega]
    · by_cases high : j < 32 * (n + 1)
      · have lane : j / 32 = n := by omega
        have inside : j - 32 * n < 32 := by omega
        rw [if_neg low, lane]
        split
        · next hk => simp only [Nat.testBit_two_pow_sub_one, inside, high, hk, decide_true, Bool.and_self]
        · next hk => simp [hk]
      · have outside : ¬ j - 32 * n < 32 := by omega
        rw [if_neg low]
        split
        · simp only [Nat.testBit_two_pow_sub_one, outside, high, decide_false, Bool.false_and]
        · simp [high]

theorem getLsbD_laneMask (k : U64) (j : Nat) (h : j < 2048) : (laneMask k).getLsbD j = k.getLsbD (j / 32) := by
  simp only [laneMask, BitVec.getLsbD_ofNat, testBit_laneBits, h, decide_true, Bool.true_and]

theorem mergeLanes_lanesFrom (k : U64) (new old : Vec) : lanesFrom k new old (mergeLanes k new old) := fun j h => by
  simp only [mergeLanes, BitVec.getLsbD_or, BitVec.getLsbD_and, BitVec.getLsbD_not, getLsbD_laneMask k j h, h]
  split <;> simp_all

/-! ### A due result lands (R24, R26, R34) -/

theorem Dev.resLanded_onlyBad (d : Dev) (slot : Nat) (noq : Bool) (r : Res) : d.onlyBad (d.resLanded slot noq r) := by
  refine ⟨?_, fun h => Dev.resLanded_sound d slot noq r h⟩
  cases r with
  | g x val wr => cases x <;> unfold Dev.resLanded <;> split <;> rfl
  | v x val wr => cases x <;> cases noq <;> unfold Dev.resLanded <;> split <;> rfl
  | m | p | k | spr | shp | tc => unfold Dev.resLanded; split <;> rfl

/-- The device is as before where the result is no scalar, vector or moment one. -/
theorem Dev.resLanded_other (d : Dev) (slot : Nat) (noq : Bool) :
    (∀ x val wr, d.resLanded slot noq (.p x val wr) = d) ∧ (∀ x val wr, d.resLanded slot noq (.k x val wr) = d) ∧
      ∀ x val, d.resLanded slot noq (.tc x val) = d := by
  refine ⟨fun _ _ _ => ?_, fun _ _ _ => ?_, fun _ _ => ?_⟩ <;> unfold Dev.resLanded <;> split <;> rfl

/-- A result that is no write of a special register lands: its registers, its flags, and what no longer fails. -/
theorem State.landEntry_eq (s : State) (e : Infl) (h : ∀ n x v w, e.res ≠ .spr n x v w) :
    s.landEntry e = { s with
      dev := s.dev.resLanded (slotNo s.core.phys s.me.slot1) e.noq e.res
      me := { s.me with
        regs := s.me.regs.land e.noq e.res
        sp := { s.me.sp with stat := s.me.sp.stat ||| e.stat.zeroExtend 64 }
        iss := { s.me.iss with landed := s.me.iss.landed ||| e.stat.zeroExtend 64 } } } := by
  unfold State.landEntry
  split
  · next hr => exact absurd hr (h _ _ _ _)
  · dsimp only
    split
    · next h0 => simp [h0]
    · rfl

theorem exec_resultLanding (s : State) (e : Infl) (hd : s.me.due = some e) (hl : e.load = none) :
    exec .resultLanding s = .next ({ s with me := { s.me with infl := s.me.infl.erase e } }.landEntry e) := by
  change execResultLanding s = _
  simp [execResultLanding, hd, hl]

theorem State.landEntry_noFlags (s : State) (e : Infl) (h : ∀ n x v w, e.res ≠ .spr n x v w) (h0 : e.stat = 0) :
    s.landEntry e = { s with
      dev := s.dev.resLanded (slotNo s.core.phys s.me.slot1) e.noq e.res
      me := { s.me with regs := s.me.regs.land e.noq e.res } } := by
  rw [s.landEntry_eq e h, h0]
  simp

/-! The registers after each class of result. -/

theorem Regs.land_g_frame (r : Regs) (noq : Bool) (d : Dst) (val : U64) (wr : Bool) :
    r.land noq (.g d val wr) = { r with g := (r.land noq (.g d val wr)).g, q := (r.land noq (.g d val wr)).q } := by
  have write (i : U5) (x : U64) : r.writeG i x = { r with g := (r.writeG i x).g } := by
    unfold Regs.writeG
    split <;> rfl
  cases d with
  | tr => cases noq <;> rfl
  | reg i =>
    simp only [Regs.land]
    rw [write]
    cases noq <;> rfl

theorem Regs.writeG_get (r : Regs) (k i : U5) (x : U64) :
    (r.writeG k x).g[i.toNat] = if k = i ∧ i ≠ 0 then x else r.g[i.toNat] := by
  by_cases hk : k = 0
  · subst hk
    rw [r.writeG_zero, if_neg fun h => h.2 h.1.symm]
  · have write : (r.writeG k x).g = r.g.set k.toNat x k.isLt := by rw [Regs.writeG, if_neg hk]
    simp only [write, Vector.getElem_set, BitVec.toNat_inj]
    by_cases hi : k = i
    · subst hi
      rw [if_pos rfl, if_pos ⟨rfl, hk⟩]
    · rw [if_neg hi, if_neg fun h => hi h.1]

theorem Regs.land_g_reg (r : Regs) (noq : Bool) (d : Dst) (val : U64) (wr : Bool) (i : U5) :
    (r.land noq (.g d val wr)).g[i.toNat] = if d = .reg i ∧ i ≠ 0 ∧ wr = true then val else r.g[i.toNat] := by
  cases d with
  | tr =>
    have same : (r.land noq (.g .tr val wr)).g = r.g := by cases noq <;> rfl
    simp [same]
  | reg k =>
    have write : (r.land noq (.g (.reg k) val wr)).g = (r.writeG k (r.landValG (.reg k) val wr)).g := by cases noq <;> rfl
    simp only [write, Regs.writeG_get, Dst.reg.injEq]
    cases wr with
    | true => simp [Regs.landValG]
    | false =>
      have kept : k = i ∧ i ≠ 0 → r.readG k = r.g[i.toNat] := fun ⟨hk, h0⟩ => by
        subst hk
        exact if_neg h0
      simp only [Regs.landValG, Bool.false_eq_true, and_false, if_false]
      split
      · next h => exact kept h
      · rfl

theorem Regs.enterQ_get (r : Regs) (x : U64) :
    (r.enterQ x).q[0] = x ∧ ∀ (i : Nat) (h : i < 15), (r.enterQ x).q[i + 1] = r.q[i] := by
  simp [Regs.enterQ]

theorem Regs.writeG_q (r : Regs) (i : U5) (x : U64) : (r.writeG i x).q = r.q := by
  unfold Regs.writeG
  split <;> rfl

theorem Regs.land_g_noq (r : Regs) (d : Dst) (val : U64) (wr : Bool) : (r.land true (.g d val wr)).q = r.q := by
  cases d with
  | tr => rfl
  | reg i => exact r.writeG_q i _

theorem Regs.land_g_queue (r : Regs) (d : Dst) (val : U64) (wr : Bool) :
    (r.land false (.g d val wr)).q[0] = (if wr then val else match d with | .reg i => r.readG i | .tr => 0) ∧
      ∀ (i : Nat) (h : i < 15), (r.land false (.g d val wr)).q[i + 1] = r.q[i] := by
  cases d with
  | tr => exact r.enterQ_get _
  | reg k =>
    obtain ⟨first, later⟩ := (r.writeG k (r.landValG (.reg k) val wr)).enterQ_get (r.landValG (.reg k) val wr)
    refine ⟨first, fun i h => (later i h).trans ?_⟩
    simp only [Regs.writeG_q]

theorem Regs.land_v_frame (r : Regs) (noq : Bool) (d : Dst) (val : Vec) (wr : U64) :
    r.land noq (.v d val wr) = { r with v := (r.land noq (.v d val wr)).v, b := (r.land noq (.v d val wr)).b } := by
  cases d <;> cases noq <;> rfl

theorem Regs.land_v_reg (r : Regs) (noq : Bool) (d : Dst) (val : Vec) (wr : U64) (i : U5) :
    (r.land noq (.v d val wr)).v[i.toNat] = if d = .reg i then r.landValV d val wr else r.v[i.toNat] := by
  have latch (t : Regs) (x : Vec) : (if noq then t else t.enterB x).v = t.v := by
    cases noq <;> rfl
  cases d with
  | tr => simp [Regs.land, latch]
  | reg k => simp only [Regs.land, latch, Regs.writeV, Vector.getElem_set, BitVec.toNat_inj, Dst.reg.injEq]

theorem Regs.land_v_noq (r : Regs) (d : Dst) (val : Vec) (wr : U64) : (r.land true (.v d val wr)).b = r.b := by
  cases d <;> rfl

theorem Regs.land_v_latches (r : Regs) (d : Dst) (val : Vec) (wr : U64) :
    (r.land false (.v d val wr)).b[0] = r.landValV d val wr ∧ (r.land false (.v d val wr)).b[1] = r.b[0] ∧
      (r.land false (.v d val wr)).b[2] = r.b[1] := by
  cases d <;> simp [Regs.land, Regs.enterB, Regs.writeV]

theorem extract_append_low (x y : Vec) : ((x ++ y : Mom).extractLsb' 0 2048) = y := by
  exact BitVec.extractLsb'_append_eq_right

theorem extract_append_high (x y : Vec) : ((x ++ y : Mom).extractLsb' 2048 2048) = x := by
  exact BitVec.extractLsb'_append_eq_left

theorem Regs.land_m_frame (r : Regs) (noq : Bool) (d : U4) (val : Mom) (wr : U64) :
    r.land noq (.m d val wr) = { r with m := (r.land noq (.m d val wr)).m } := rfl

theorem Regs.land_m_get (r : Regs) (noq : Bool) (d : U4) (val : Mom) (wr : U64) (i : U4) :
    (r.land noq (.m d val wr)).m[i.toNat] = if d = i then
      (mergeLanes wr (val.extractLsb' 2048 2048) (r.m[d.toNat].extractLsb' 2048 2048) ++
        mergeLanes wr (val.extractLsb' 0 2048) (r.m[d.toNat].extractLsb' 0 2048) : Mom) else r.m[i.toNat] := by
  simp only [Regs.land, Regs.writeM, Vector.getElem_set, BitVec.toNat_inj]

theorem Regs.land_p_frame (r : Regs) (noq : Bool) (d : U3) (val wr : Bool) :
    r.land noq (.p d val wr) = { r with p := (r.land noq (.p d val wr)).p } := by
  cases wr with
  | false => rfl
  | true =>
    simp only [Regs.land, Regs.writeP, if_true]
    split <;> rfl

theorem Regs.land_p_get (r : Regs) (noq : Bool) (d i : U3) (val wr : Bool) :
    (r.land noq (.p d val wr)).p[i.toNat] = if i = d ∧ d ≠ 0 ∧ wr = true then val else r.p[i.toNat] := by
  cases wr with
  | false => simp [Regs.land]
  | true =>
    by_cases hd : d = 0
    · subst hd
      rw [r.land_p_zero, if_neg fun h => h.2.1 rfl]
    · have write : (r.land noq (.p d val true)).p = r.p.set d.toNat val d.isLt := by
        simp only [Regs.land, Regs.writeP, if_true, if_neg hd]
      simp only [write, Vector.getElem_set, BitVec.toNat_inj, ne_eq, hd, not_false_eq_true, and_self, and_true,
        eq_comm (a := d)]

/-- The value that a lane-mask result leaves in its register. -/
theorem getLsbD_maskMerge (val wr old : U64) (j : Nat) :
    ((val &&& wr) ||| (old &&& ~~~ wr)).getLsbD j = if wr.getLsbD j then val.getLsbD j else old.getLsbD j := by
  simp only [BitVec.getLsbD_or, BitVec.getLsbD_and, BitVec.getLsbD_not]
  by_cases h : j < 64
  · cases wr.getLsbD j <;> simp [h]
  · simp [BitVec.getLsbD_of_ge _ _ (Nat.le_of_not_lt h)]

theorem Regs.land_k_frame (r : Regs) (noq : Bool) (d : U3) (val wr : U64) :
    r.land noq (.k d val wr) = { r with k := (r.land noq (.k d val wr)).k } := by
  simp only [Regs.land, Regs.writeK]
  split <;> rfl

theorem Regs.land_k_get (r : Regs) (noq : Bool) (d : U3) (val wr : U64) (hd : d ≠ 0) (i : U3) :
    (r.land noq (.k d val wr)).k[i.toNat] =
      if d = i then (val &&& wr) ||| (r.k[d.toNat] &&& ~~~ wr) else r.k[i.toNat] := by
  have write : (r.land noq (.k d val wr)).k = r.k.set d.toNat ((val &&& wr) ||| (r.k[d.toNat] &&& ~~~ wr)) d.isLt := by
    simp only [Regs.land, Regs.writeK, Regs.readK, if_neg hd]
  simp only [write, Vector.getElem_set, BitVec.toNat_inj]

theorem Regs.land_k_zero (r : Regs) (noq : Bool) (val wr : U64) : r.land noq (.k 0 val wr) = r := rfl

theorem Regs.land_tc_get (r : Regs) (noq : Bool) (i x : U2) (val : U64) :
    (r.land noq (.tc i val)).tc[x.toNat] = if x = i then val &&& 0x8000FFFFFFFFFFFF else r.tc[x.toNat] := by
  simp only [Regs.land, Vector.getElem_set, BitVec.toNat_inj, eq_comm (a := i)]

/-! The landing of each class of result, as a step. -/

theorem resultLanding_scalar (s : State) (e : Infl) (d : Dst) (val : U64) (wr : Bool) (hd : s.me.due = some e)
    (hl : e.load = none) (hr : e.res = .g d val wr) :
    exec .resultLanding s = .next { s with
      dev := s.dev.resLanded (slotNo s.core.phys s.me.slot1) e.noq e.res
      me := { s.me with
        infl := s.me.infl.erase e
        regs := { s.me.regs with
          g := (s.me.regs.land e.noq (.g d val wr)).g, q := (s.me.regs.land e.noq (.g d val wr)).q }
        sp := { s.me.sp with stat := s.me.sp.stat ||| e.stat.zeroExtend 64 }
        iss := { s.me.iss with landed := s.me.iss.landed ||| e.stat.zeroExtend 64 } } } := by
  rw [exec_resultLanding s e hd hl, State.landEntry_eq _ e (by simp [hr]), ← Regs.land_g_frame, hr]

theorem resultLanding_vector (s : State) (e : Infl) (d : Dst) (val : Vec) (wr : U64) (hd : s.me.due = some e)
    (hl : e.load = none) (hr : e.res = .v d val wr) :
    exec .resultLanding s = .next { s with
      dev := s.dev.resLanded (slotNo s.core.phys s.me.slot1) e.noq e.res
      me := { s.me with
        infl := s.me.infl.erase e
        regs := { s.me.regs with
          v := (s.me.regs.land e.noq (.v d val wr)).v, b := (s.me.regs.land e.noq (.v d val wr)).b }
        sp := { s.me.sp with stat := s.me.sp.stat ||| e.stat.zeroExtend 64 }
        iss := { s.me.iss with landed := s.me.iss.landed ||| e.stat.zeroExtend 64 } } } := by
  rw [exec_resultLanding s e hd hl, State.landEntry_eq _ e (by simp [hr]), ← Regs.land_v_frame, hr]

theorem resultLanding_noFlags (s : State) (e : Infl) (hd : s.me.due = some e) (hl : e.load = none) (h0 : e.stat = 0)
    (hr : ∀ n x v w, e.res ≠ .spr n x v w) :
    exec .resultLanding s = .next { s with
      dev := s.dev.resLanded (slotNo s.core.phys s.me.slot1) e.noq e.res
      me := { s.me with infl := s.me.infl.erase e, regs := s.me.regs.land e.noq e.res } } := by
  rw [exec_resultLanding s e hd hl, State.landEntry_noFlags _ e hr h0]

/-- Settles O7: for each class of result its landing as a step, and what the registers then hold. -/
theorem resultsLand : Obligations.ResultsLand := by
  refine ⟨fun s e d val wr hd hl hr => ?_, fun s e d val wr hd hl hr => ?_, fun s e hd hl h0 => ⟨?_, ?_, ?_, ?_⟩⟩
  · refine ⟨_, _, _, resultLanding_scalar s e d val wr hd hl hr, s.dev.resLanded_onlyBad .., fun r => ?_, fun hq => ?_,
      fun hq => ?_⟩
    · exact s.me.regs.land_g_reg e.noq d val wr r
    · rw [hq]
      exact s.me.regs.land_g_noq d val wr
    · rw [hq]
      exact s.me.regs.land_g_queue d val wr
  · refine ⟨_, _, s.me.regs.landValV d val wr, _, resultLanding_vector s e d val wr hd hl hr,
      s.dev.resLanded_onlyBad .., mergeLanes_lanesFrom _ _ _, fun r => ?_, fun hq => ?_, fun hq => ?_⟩
    · exact s.me.regs.land_v_reg e.noq d val wr r
    · rw [hq]
      exact s.me.regs.land_v_noq d val wr
    · rw [hq]
      exact s.me.regs.land_v_latches d val wr
  · intro d val wr hr
    have get := s.me.regs.land_m_get e.noq d val wr
    have step := resultLanding_noFlags s e hd hl h0 (by simp [hr])
    rw [hr] at step
    refine ⟨(s.me.regs.land e.noq (.m d val wr)).m, _, step, s.dev.resLanded_onlyBad .., fun r hne => ?_, ?_, ?_⟩
    · rw [get r, if_neg fun h => hne h.symm]
    · rw [get d, if_pos rfl, extract_append_low]
      exact mergeLanes_lanesFrom _ _ _
    · rw [get d, if_pos rfl, extract_append_high]
      exact mergeLanes_lanesFrom _ _ _
  · intro d val wr hr
    have step := resultLanding_noFlags s e hd hl h0 (by simp [hr])
    rw [hr, (s.dev.resLanded_other _ _).1, Regs.land_p_frame] at step
    exact ⟨_, step, fun r => s.me.regs.land_p_get e.noq d r val wr⟩
  · intro d val wr hr
    have step := resultLanding_noFlags s e hd hl h0 (by simp [hr])
    rw [hr, (s.dev.resLanded_other _ _).2.1, Regs.land_k_frame] at step
    refine ⟨_, step, fun r h => ?_, fun hd j => ?_⟩
    · by_cases hz : d = 0
      · subst hz
        rw [Regs.land_k_zero]
      · rw [s.me.regs.land_k_get e.noq d val wr hz r, if_neg fun he => h.elim (fun hne => hne he.symm) hz]
    · rw [s.me.regs.land_k_get e.noq d val wr hd d, if_pos rfl]
      exact getLsbD_maskMerge ..
  · intro r val hr
    have step := resultLanding_noFlags s e hd hl h0 (by simp [hr])
    rw [hr, (s.dev.resLanded_other _ _).2.2] at step
    exact ⟨_, step, fun x => s.me.regs.land_tc_get e.noq r x val⟩

/-! ### A failing source behind a suppressed word (R106, R427)

`IssuesSlots` looks for a failing source of a word in the state before the core stands at that word's slot, so that it takes the
predicate of the word before it: behind a suppressed word no source counts as failing. -/

/-- `addi g4, g0, 5` under p1 in slot 0 and `addi g4, g5, 5` under p0 in slot 1. -/
def suppressedThenRead : U128 := 0x0C4140280C400029

/-- The slot of core 0 about to issue that bundle, with p1 = 0, while the word of its g5 fails. -/
def failingG5 : State :=
  let s := State.reset.withFetchWord 32 0
  { s with core := { s.core with icache := [(0, suppressedThenRead)] }, dev := { s.dev with bad := [(0, 320)] } }

/-- That state after the clock, and after the fetch, of its turn, and as its bundle begins. -/
def failingG5Clocked : State := match failingG5.clock with | .next c => c | _ => failingG5
def failingG5Fetched : State := failingG5Clocked.fetch.2
def failingG5Begun : State :=
  { failingG5Fetched.land with me := failingG5Fetched.land.me.begin 0 0 false }

theorem failingG5_issuesNext : IssuesNext failingG5 suppressedThenRead failingG5Begun := by
  refine ⟨⟨List.isEmpty_iff.mp (by decide +kernel), by decide +kernel⟩, failingG5Clocked, failingG5Fetched, ?_, ?_,
    by decide +kernel, Prod.ext (by decide +kernel) rfl, ?_, by decide +kernel, rfl⟩
  · have clocks : (match failingG5.clock with | .next _ => true | _ => false) = true := by decide +kernel
    unfold failingG5Clocked
    cases h : failingG5.clock with
    | next c => rfl
    | fault r => rw [h] at clocks; exact absurd clocks Bool.false_ne_true
    | refused r => rw [h] at clocks; exact absurd clocks Bool.false_ne_true
  · unfold Thread.free; decide +kernel
  · unfold Thread.free; decide +kernel

/-- The state with slot k of the bundle about to execute. -/
def State.atWord (s : State) (b : U128) (k : Nat) : State := { s with me := s.me.atSlot (slotEnc b k) }

/-- The state after the four words, as exec gives them: the suppressed `addi`, the other one, and two no-operations. -/
def failingG5First : State := (failingG5Begun.atWord suppressedThenRead 0).aluImm (.reg 4) (.g 0) 1 fun x => x + 5
def failingG5Second : State := (failingG5First.atWord suppressedThenRead 1).aluImm (.reg 4) (.g 5) 0 fun x => x + 5
def failingG5Last : State := (failingG5Second.atWord suppressedThenRead 2).atWord suppressedThenRead 3

/-- Whether a word decodes to the given one. -/
def decodesTo {ε : Type} (r : Except ε Decoded) (d : Decoded) : Bool :=
  match r with
  | .ok e => decide (e = d)
  | .error _ => false

theorem eq_ok_of_decodesTo {ε : Type} {r : Except ε Decoded} {d : Decoded} (h : decodesTo r d = true) : r = .ok d := by
  cases r with
  | ok e => exact congrArg _ (of_decide_eq_true h)
  | error e => exact absurd h Bool.false_ne_true

theorem failingG5_issuesSlots :
    IssuesSlots suppressedThenRead (wordOrder suppressedThenRead) failingG5Begun failingG5Last := by
  have order : wordOrder suppressedThenRead = [0, 1, 2, 3] := by decide
  rw [order]
  refine .cons (t := failingG5First) (.op (.addi (.reg 4) (.g 0) (.narrow 5) 1)) (eq_ok_of_decodesTo (by decide +kernel))
    (by decide +kernel) rfl (by decide +kernel) ?_
  refine .cons (t := failingG5Second) (.op (.addi (.reg 4) (.g 5) (.narrow 5) 0)) (eq_ok_of_decodesTo (by decide +kernel))
    (by decide +kernel) rfl (by decide +kernel) ?_
  exact .cons (.op .nop) (eq_ok_of_decodesTo (by decide +kernel)) (by decide +kernel) rfl (by decide +kernel)
    (.cons (.op .nop) (eq_ok_of_decodesTo (by decide +kernel)) (by decide +kernel) rfl (by decide +kernel) (.nil _))

/-- Whether the core that had its turn has taken a trap in its first slot. -/
def lastTrapped : Out → Bool
  | .next t => t.rest.getLast?.any fun c => c.t0.iss.res.isTrap
  | _ => false

theorem failingG5_step_traps : lastTrapped (step failingG5) = true := by decide +kernel

theorem failingG5_words_issue : lastTrapped (.next ((failingG5Last.endBundle failingG5Begun.me.lset
    (failingG5Begun.me.mac.mpc.getLsbD 63) suppressedThenRead).tick false)) = false := by decide +kernel

/-- Refutes O58: behind a word that its predicate suppresses, a word that reads a failing register meets `IssuesSlots`, while
the step takes the trap of R427. -/
theorem not_stepRunsTheDecodedInstructions : ¬ Obligations.StepRunsTheDecodedInstructions := by
  intro h
  have step_eq := (h failingG5 failingG5Begun suppressedThenRead failingG5_issuesNext).1 failingG5Last failingG5_issuesSlots
  have trapped := failingG5_step_traps
  rw [step_eq, failingG5_words_issue] at trapped
  exact Bool.false_ne_true trapped

/-! ### Special register accesses (R44, R106, R134) -/

theorem bitsOf_eq {w : Nat} (x : BitVec w) (hi lo : Nat) : bitsOf x hi lo = x.toNat / 2 ^ lo % 2 ^ (hi - lo + 1) := by
  rw [bitsOf, BitVec.extractLsb'_toNat, Nat.shiftRight_eq_div_pow]

theorem State.sprIndex_zero (s : State) : s.sprIndex 0 = 0 := rfl

/-- The checks of a read of a listed register (R106). -/
theorem State.sprCheck_read (s : State) (n : U11) (x : U6) (d : Dst) (i : SprInfo) (h : sprInfo s.core n.toNat = some i) :
    s.sprCheck n x 0 (some (dstBits d)) =
      if i.words ≠ 0 ∧ i.words ≤ s.sprIndex x then .error 0x01
      else if i.words = 0 ∧ x ≠ 0 then .error 0x02
      else if s.me.priv = false ∧ i.userRead = false then .error 0x03
      else .ok () := by
  simp [State.sprCheck, h]

/-- The checks of a write of a listed register (R106). -/
theorem State.sprCheck_write (s : State) (n : U11) (x : U6) (i : SprInfo) (h : sprInfo s.core n.toNat = some i) :
    s.sprCheck n x 0 none =
      if i.words ≠ 0 ∧ i.words ≤ s.sprIndex x then .error 0x01
      else if i.write = 0 then .error 0x01
      else if i.words = 0 ∧ x ≠ 0 then .error 0x02
      else if s.me.priv = false ∧ i.write < 2 then .error 0x03
      else .ok () := by
  simp [State.sprCheck, h]

theorem State.sprCheck_unlisted (s : State) (n : U11) (x : U6) (e : Byte) (dst : Option U6)
    (h : sprInfo s.core n.toNat = none) : s.sprCheck n x e dst = .error 0x01 := by
  simp [State.sprCheck, h]

theorem exec_mfsr_error (d : Dst) (n : U11) (x : U6) (p : U3) (s : State) (code : Byte)
    (h : s.sprCheck n x 0 (some (dstBits d)) = .error code) :
    exec (.mfsr (dstBits d) n x 0 p) s = .next (s.trapWord code) := by
  change execMfsr (dstBits d) n x 0 p s = _
  simp only [execMfsr, h]

theorem exec_mfsr_ok (d : Dst) (n : U11) (x : U6) (p : U3) (s : State)
    (h : s.sprCheck n x 0 (some (dstBits d)) = .ok ()) :
    exec (.mfsr (dstBits d) n x 0 p) s = .next ((if s.pred p ∧ n = 0x0EA then s.latchCounter (s.sprIndex x) else s).issueG
      1 d p (s.readSpr n.toNat (s.sprIndex x)) 0) := by
  change execMfsr (dstBits d) n x 0 p s = _
  simp only [execMfsr, h, dstOf_dstBits]

theorem exec_mtsr_error (v : Src) (n : U11) (x : U6) (p : U3) (s : State) (code : Byte)
    (h : s.sprCheck n x 0 none = .error code) : exec (.mtsr v n x 0 p) s = .next (s.trapWord code) := by
  change execMtsr v n x 0 p s = _
  simp only [execMtsr, h]

theorem exec_mtsr_ok (v : Src) (n : U11) (x : U6) (p : U3) (s : State) (h : s.sprCheck n x 0 none = .ok ()) :
    exec (.mtsr v n x 0 p) s = .next (if s.pred p then
      s.settle (s.sprWriteCheck n.toNat (s.src v)) fun _ =>
        s.issue 1 (.spr n (s.sprIndex x) (s.src v) (BitVec.allOnes 64)) 0
      else s) := by
  change execMtsr v n x 0 p s = _
  simp only [execMtsr, h, State.when]

/-- The registers whose writes check their value (R57, R141, R233, R382). -/
def checksValue (n : U11) : Prop := n = 0x001 ∨ n = 0x058 ∨ n = 0x036 ∨ (0x0A0 ≤ n.toNat ∧ n.toNat < 0x0B0)

theorem State.sprWriteCheck_unchecked (s : State) (n : U11) (v : U64) (h : ¬ checksValue n) :
    s.sprWriteCheck n.toNat v = .ok () := by
  simp only [checksValue, not_or] at h
  obtain ⟨h1, h58, h36, hq⟩ := h
  have ne (k : Nat) (hk : n ≠ BitVec.ofNat 11 k) : n.toNat ≠ k := fun e => hk (by simp [← e])
  unfold State.sprWriteCheck
  dsimp only
  rw [if_neg (ne 0x001 h1), if_neg (ne 0x058 h58), if_neg hq, if_neg (ne 0x036 h36)]

/-! The accesses that no value check stops. -/

theorem exec_mfsr_listed (d : Dst) (n : U11) (x : U6) (p : U3) (s : State) (i : SprInfo)
    (hi : sprInfo s.core n.toNat = some i) (hx : if i.words = 0 then x = 0 else s.sprIndex x < i.words)
    (hr : s.me.priv = true ∨ i.userRead = true) :
    exec (.mfsr (dstBits d) n x 0 p) s = .next ((if s.pred p ∧ n = 0x0EA then s.latchCounter (s.sprIndex x) else s).issueG
      1 d p (s.readSpr n.toNat (s.sprIndex x)) 0) := by
  refine exec_mfsr_ok d n x p s ?_
  rw [s.sprCheck_read n x d i hi]
  have level : ¬ (s.me.priv = false ∧ i.userRead = false) := fun ⟨hp, hu⟩ => by simp [hp, hu] at hr
  by_cases hw : i.words = 0
  · rw [if_pos hw] at hx
    rw [if_neg fun h => h.1 hw, if_neg fun h => h.2 hx, if_neg level]
  · rw [if_neg hw] at hx
    rw [if_neg fun h => absurd h.2 (Nat.not_le.2 hx), if_neg fun h => hw h.1, if_neg level]

theorem exec_mtsr_listed (v : Src) (n : U11) (x : U6) (p : U3) (s : State) (i : SprInfo)
    (hi : sprInfo s.core n.toNat = some i) (hx : if i.words = 0 then x = 0 else s.sprIndex x < i.words)
    (hw : i.write ≠ 0) (hl : s.me.priv = true ∨ i.write = 2) :
    exec (.mtsr v n x 0 p) s = .next (if s.pred p then
      s.settle (s.sprWriteCheck n.toNat (s.src v)) fun _ =>
        s.issue 1 (.spr n (s.sprIndex x) (s.src v) (BitVec.allOnes 64)) 0
      else s) := by
  refine exec_mtsr_ok v n x p s ?_
  rw [s.sprCheck_write n x i hi]
  have level : ¬ (s.me.priv = false ∧ i.write < 2) := fun ⟨hp, hu⟩ => by
    rcases hl with h | h
    · simp [hp] at h
    · omega
  by_cases h0 : i.words = 0
  · rw [if_pos h0] at hx
    rw [if_neg fun h => h.1 h0, if_neg hw, if_neg fun h => h.2 hx, if_neg level]
  · rw [if_neg h0] at hx
    rw [if_neg fun h => absurd h.2 (Nat.not_le.2 hx), if_neg hw, if_neg fun h => h0 h.1, if_neg level]

/-- `mfsr` as R134 and R106 have it. -/
theorem mfsr_accesses (d : Dst) (n : U11) (p : U3) (s : State) :
    (∀ i : SprInfo, sprInfo s.core n.toNat = some i → i.words = 0 → (s.me.priv = true ∨ i.userRead = true) →
       exec (.mfsr (dstBits d) n 0 0 p) s = .next (s.issueG 1 d p (s.readSpr n.toNat 0) 0)) ∧
    (∀ (i : SprInfo) (x : U6), sprInfo s.core n.toNat = some i → (s.src (srcOf x)).toNat < i.words → n ≠ 0x0EA →
       (s.me.priv = true ∨ i.userRead = true) →
       exec (.mfsr (dstBits d) n x 0 p) s = .next (s.issueG 1 d p (s.readSpr n.toNat (s.src (srcOf x)).toNat) 0)) ∧
    (∀ x : U6, (s.src (srcOf x)).toNat < 296 → s.pred p = true →
       exec (.mfsr (dstBits d) 0x0EA x 0 p) s =
         .next ((s.latchCounter (s.src (srcOf x)).toNat).issueG 1 d p (s.readSpr 0x0EA (s.src (srcOf x)).toNat) 0)) ∧
    (∀ x : U6, sprInfo s.core n.toNat = none → exec (.mfsr (dstBits d) n x 0 p) s = .next (s.trapWord 0x01)) ∧
    (∀ (i : SprInfo) (x : U6), sprInfo s.core n.toNat = some i → i.words ≠ 0 → i.words ≤ (s.src (srcOf x)).toNat →
       exec (.mfsr (dstBits d) n x 0 p) s = .next (s.trapWord 0x01)) ∧
    (∀ i : SprInfo, sprInfo s.core n.toNat = some i → i.words = 0 → s.me.priv = false → i.userRead = false →
       exec (.mfsr (dstBits d) n 0 0 p) s = .next (s.trapWord 0x03)) := by
  refine ⟨fun i hi hw hr => ?_, fun i x hi hx hn hr => ?_, fun x hx hp => ?_, fun x hn => ?_, fun i x hi hw hx => ?_,
    fun i hi hw hp hu => ?_⟩
  · have hn : n ≠ 0x0EA := fun h => by
      subst h
      rw [show sprInfo s.core (0x0EA : U11).toNat = some ⟨296, true, 0⟩ from rfl] at hi
      cases hi
      exact absurd hw (by decide)
    rw [exec_mfsr_listed d n 0 p s i hi (by rw [if_pos hw]) hr, if_neg fun h => hn h.2, s.sprIndex_zero]
  · have indexed : i.words ≠ 0 := fun h => by omega
    rw [exec_mfsr_listed d n x p s i hi (by rw [if_neg indexed]; exact hx) hr, if_neg fun h => hn h.2]
    rfl
  · rw [exec_mfsr_listed d 0x0EA x p s ⟨296, true, 0⟩ rfl hx (.inr rfl), if_pos ⟨hp, rfl⟩]
    rfl
  · exact exec_mfsr_error d n x p s 0x01 (s.sprCheck_unlisted n x 0 _ hn)
  · refine exec_mfsr_error d n x p s 0x01 ?_
    rw [s.sprCheck_read n x d i hi, if_pos ⟨hw, hx⟩]
  · refine exec_mfsr_error d n 0 p s 0x03 ?_
    rw [s.sprCheck_read n 0 d i hi, if_neg fun h => h.1 hw, if_neg fun h => h.2 rfl, if_pos ⟨hp, hu⟩]

/-- `mtsr` of a register without an index. -/
theorem mtsr_accesses (v : Src) (n : U11) (p : U3) (s : State) (i : SprInfo) (hi : sprInfo s.core n.toNat = some i)
    (h0 : i.words = 0) :
    (i.write = 0 → exec (.mtsr v n 0 0 p) s = .next (s.trapWord 0x01)) ∧
    (i.write = 1 → s.me.priv = false → exec (.mtsr v n 0 0 p) s = .next (s.trapWord 0x03)) ∧
    (i.write ≠ 0 → (s.me.priv = true ∨ i.write = 2) →
      (s.pred p = false → exec (.mtsr v n 0 0 p) s = .next s) ∧
      (s.pred p = true → n ≠ 0x001 → n ≠ 0x058 → n ≠ 0x036 → ¬ (0x0A0 ≤ n.toNat ∧ n.toNat < 0x0B0) →
        exec (.mtsr v n 0 0 p) s = .next (s.issue 1 (.spr n 0 (s.src v) (BitVec.allOnes 64)) 0))) := by
  refine ⟨fun hw => ?_, fun hw hp => ?_, fun hw hl => ?_⟩
  · refine exec_mtsr_error v n 0 p s 0x01 ?_
    rw [s.sprCheck_write n 0 i hi, if_neg fun h => h.1 h0, if_pos hw]
  · refine exec_mtsr_error v n 0 p s 0x03 ?_
    rw [s.sprCheck_write n 0 i hi, if_neg fun h => h.1 h0, if_neg (by omega), if_neg fun h => h.2 rfl,
      if_pos ⟨hp, by omega⟩]
  · rw [exec_mtsr_listed v n 0 p s i hi (by rw [if_pos h0]) hw hl]
    refine ⟨fun hp => by rw [if_neg (by simp [hp])], fun hp h1 h58 h36 hq => ?_⟩
    have unchecked : ¬ checksValue n := by simp only [checksValue, h1, h58, h36, hq, or_self, not_false_eq_true]
    rw [if_pos hp, s.sprWriteCheck_unchecked n _ unchecked, State.settle_ok, s.sprIndex_zero]

/-- `mtsr` of an indexed register. -/
theorem mtsr_indexed (v : Src) (n : U11) (x : U6) (p : U3) (s : State) (i : SprInfo)
    (hi : sprInfo s.core n.toNat = some i) (h0 : i.words ≠ 0) :
    (i.words ≤ s.sprIndex x ∨ i.write = 0 → exec (.mtsr v n x 0 p) s = .next (s.trapWord 0x01)) ∧
    (s.sprIndex x < i.words → i.write = 1 → s.me.priv = false → exec (.mtsr v n x 0 p) s = .next (s.trapWord 0x03)) ∧
    (s.sprIndex x < i.words → i.write ≠ 0 → s.me.priv = true ∨ i.write = 2 → ¬ checksValue n →
      exec (.mtsr v n x 0 p) s =
        .next (if s.pred p then s.issue 1 (.spr n (s.sprIndex x) (s.src v) (BitVec.allOnes 64)) 0 else s)) := by
  refine ⟨fun h => ?_, fun hx hw hp => ?_, fun hx hw hl unchecked => ?_⟩
  · refine exec_mtsr_error v n x p s 0x01 ?_
    rw [s.sprCheck_write n x i hi]
    by_cases hx : i.words ≤ s.sprIndex x
    · rw [if_pos ⟨h0, hx⟩]
    · rw [if_neg fun h => hx h.2, if_pos (h.resolve_left hx)]
  · refine exec_mtsr_error v n x p s 0x03 ?_
    rw [s.sprCheck_write n x i hi, if_neg fun h => absurd h.2 (Nat.not_le.2 hx), if_neg (by omega), if_neg fun h => h0 h.1,
      if_pos ⟨hp, by omega⟩]
  · rw [exec_mtsr_listed v n x p s i hi (by rw [if_neg h0]; exact hx) hw hl, s.sprWriteCheck_unchecked n _ unchecked]
    rfl

/-! ### The writes that check their value (R57, R141, R233, R382) -/

/-- A write at supervisor level under a true predicate: what its value check decides. -/
theorem exec_mtsr_checked (v : Src) (n : U11) (p : U3) (s : State) (hpriv : s.me.priv = true) (hp : s.pred p = true)
    (i : SprInfo) (hi : sprInfo s.core n.toNat = some i) (h0 : i.words = 0) (hw : i.write ≠ 0) :
    exec (.mtsr v n 0 0 p) s = .next (s.settle (s.sprWriteCheck n.toNat (s.src v)) fun _ =>
      s.issue 1 (.spr n 0 (s.src v) (BitVec.allOnes 64)) 0) := by
  rw [exec_mtsr_listed v n 0 p s i hi (by rw [if_pos h0]) hw (.inl hpriv), if_pos hp, s.sprIndex_zero]

/-- A change of RSPLIT needs an M-core with no task bound and no load in flight (R57). -/
def State.splitIdle (s : State) : Prop := isS s.core.phys = false ∧ ∀ t ∈ s.packed.slots, t.bound = none ∧ t.loads = []

theorem State.sprWriteCheck_mode (s : State) (v : U64) :
    (v.getLsbD 0 = s.core.rsplit ∨ s.splitIdle → s.sprWriteCheck 0x001 v = .ok ()) ∧
      (v.getLsbD 0 ≠ s.core.rsplit → ¬ s.splitIdle →
        s.sprWriteCheck 0x001 v = .error (.trap 0x01 (s.me.iss.word.zeroExtend 64))) := by
  have busy : (isS s.core.phys || s.packed.slots.any fun t => t.bound.isSome || !t.loads.isEmpty) = true ↔ ¬ s.splitIdle := by
    rw [State.splitIdle, Classical.not_and_iff_not_or_not, Bool.not_eq_false, Bool.or_eq_true, List.any_eq_true]
    refine or_congr_right ?_
    simp only [Classical.not_forall, Classical.not_and_iff_not_or_not, Bool.or_eq_true, Bool.not_eq_true',
      List.isEmpty_eq_false_iff, Option.isSome_iff_ne_none, ne_eq, exists_prop]
  have check : s.sprWriteCheck 0x001 v = if v.getLsbD 0 == s.core.rsplit then .ok ()
      else if isS s.core.phys || s.packed.slots.any (fun t => t.bound.isSome || !t.loads.isEmpty) then
        .error (.trap 0x01 (s.me.iss.word.zeroExtend 64))
      else .ok () := rfl
  rw [check]
  refine ⟨fun h => ?_, fun hne hb => ?_⟩
  · split
    · rfl
    · next hne =>
      rw [if_neg fun hb => busy.1 hb (h.resolve_left (by simpa using hne))]
  · rw [if_neg (by simpa using hne), if_pos (busy.2 hb)]

/-- The value names each active loop once in the order of active loops (R141). -/
def namesActiveLoops (v : U64) : Prop :=
  let m := (List.range 8).countP fun i => v.getLsbD i
  let loop (i : Nat) : Nat := v.toNat / 2 ^ (8 + 3 * i) % 8
  (∀ i, i < m → v.getLsbD (loop i) = true) ∧ ∀ i j, i < j → j < m → loop i ≠ loop j

/-- Field i of the order of active loops. -/
theorem loopOrder_eq (v : U64) : loopOrder v =
    (List.range ((List.range 8).countP fun n => v.getLsbD n)).map fun i => v.toNat / 2 ^ (8 + 3 * i) % 8 :=
  List.map_congr_left fun i _ => by rw [BitVec.extractLsb'_toNat, Nat.shiftRight_eq_div_pow]

theorem lactOk_iff (v : U64) : lactOk v = true ↔ namesActiveLoops v := by
  have distinctFields (m : Nat) (f : Nat → Nat) :
      ((List.range m).map f).Nodup ↔ ∀ i j : Nat, i < m → j < m → i < j → f i ≠ f j := by
    rw [List.Nodup, List.pairwise_map, List.pairwise_iff_getElem]
    simp only [List.getElem_range, List.length_range]
  simp only [lactOk, loopOrder_eq, Bool.and_eq_true, decide_eq_true_eq, List.all_map, List.all_eq_true, List.mem_range,
    Function.comp_apply, distinctFields, namesActiveLoops]
  rw [and_comm]
  exact and_congr_right fun _ => ⟨fun distinct i j hij hj => distinct i j (Nat.lt_trans hij hj) hj hij,
    fun distinct i j _ hj hij => distinct i j hij hj⟩

theorem State.sprWriteCheck_lact (s : State) (v : U64) :
    (namesActiveLoops v → s.sprWriteCheck 0x058 v = .ok ()) ∧
      (¬ namesActiveLoops v → s.sprWriteCheck 0x058 v = .error (.trap 0x02 (s.me.iss.word.zeroExtend 64))) := by
  have check : s.sprWriteCheck 0x058 v = if lactOk v then .ok () else .error (.trap 0x02 (s.me.iss.word.zeroExtend 64)) := rfl
  rw [check, ← lactOk_iff]
  exact ⟨fun h => if_pos h, fun h => if_neg h⟩

/-- The pointers that a queue region of the configuration may have (R233; log 89). -/
def fitsRegion (cfg v : Nat) : Prop :=
  if cfg / 2 ^ 63 = 1 then
    v % 2 ^ 16 < cfg / 2 ^ 20 % 2 ^ 20 / (16 * 2 ^ (cfg / 2 ^ 40 % 8)) ∧
      v / 2 ^ 32 % 2 ^ 16 + v / 2 ^ 16 % 2 ^ 16 ≤ cfg / 2 ^ 20 % 2 ^ 20 / (16 * 2 ^ (cfg / 2 ^ 40 % 8))
  else v % 2 ^ 48 = 0

theorem getLsbD_63_iff (x : U64) : x.getLsbD 63 = true ↔ x.toNat / 2 ^ 63 = 1 := by
  have := x.isLt
  rw [BitVec.getLsbD, Nat.testBit_eq_decide_div_mod_eq, decide_eq_true_eq]
  omega

theorem qptrOk_iff (cfg v : U64) : qptrOk cfg v = true ↔ fitsRegion cfg.toNat v.toNat := by
  simp only [qptrOk, fitsRegion, bitsOf_eq, getLsbD_63_iff]
  split <;> simp

theorem elem_eq_getD {k : Nat} (v : Vector U64 k) (n : Nat) : elem v n = v.toList.getD n 0 := by
  unfold elem
  split
  · next h => simp [List.getD, h]
  · next h => simp [List.getD, Nat.le_of_not_lt h]

theorem State.sprWriteCheck_qptr (s : State) (r : Nat) (hr : r < 16) (v : U64) :
    (fitsRegion (s.me.sp.qcfg.toList.getD r 0).toNat v.toNat → s.sprWriteCheck (0x0A0 + r) v = .ok ()) ∧
      (¬ fitsRegion (s.me.sp.qcfg.toList.getD r 0).toNat v.toNat →
        s.sprWriteCheck (0x0A0 + r) v = .error (.trap 0x02 (s.me.iss.word.zeroExtend 64))) := by
  have check : s.sprWriteCheck (0x0A0 + r) v = if qptrOk (s.me.sp.qcfg.toList.getD r 0) v then .ok ()
      else .error (.trap 0x02 (s.me.iss.word.zeroExtend 64)) := by
    unfold State.sprWriteCheck
    dsimp only
    rw [if_neg (by omega), if_neg (by omega), if_pos (by omega), Nat.add_sub_cancel_left, elem_eq_getD]
  rw [check, ← qptrOk_iff]
  exact ⟨fun h => if_pos h, fun h => if_neg h⟩

theorem State.sprWriteCheck_accxfer (s : State) (v : U64) :
    s.sprWriteCheck 0x036 v =
      if isS s.core.phys = true then .error (.trap 0x01 (s.me.iss.word.zeroExtend 64))
      else if granuleCount s.core ≤ v.toNat % 2 ^ 11 + v.toNat / 2 ^ 16 % 2 ^ 11 then
        .error (.trap 0x22 (BitVec.ofNat 64 (v.toNat % 2 ^ 11)))
      else if 16 ≤ s.me.queueTaken then .error .hold
      else .ok () := by
  have range : bitsOf v 10 0 = v.toNat % 2 ^ 11 ∧ bitsOf v 26 16 = v.toNat / 2 ^ 16 % 2 ^ 11 := by
    simp [bitsOf_eq]
  rw [← range.1, ← range.2]
  rfl

/-- The number of a queue region's pointers, and that the map lists it (R45). -/
theorem sprInfo_qptr (c : Core) (r : Nat) (hr : r < 16) :
    (BitVec.ofNat 11 (0x0A0 + r)).toNat = 0x0A0 + r ∧ sprInfo c (0x0A0 + r) = some ⟨0, true, 1⟩ := by
  refine ⟨by rw [BitVec.toNat_ofNat]; omega, ?_⟩
  unfold sprInfo
  rw [if_neg (by omega), if_neg (by omega), if_pos (by omega)]

/-- Settles O11: the two instructions by their checks in order, and the four value checks. -/
theorem specialRegisterAccesses : Obligations.SpecialRegisterAccesses := by
  refine ⟨fun d n p s => mfsr_accesses d n p s, fun v n p s i hi h0 => mtsr_accesses v n p s i hi h0,
    fun v n x p s i hi h0 => mtsr_indexed v n x p s i hi h0, fun v p s hpriv hp => ?_⟩
  have checked (n : U11) (i : SprInfo) (hi : sprInfo s.core n.toNat = some i) (h0 : i.words = 0) (hw : i.write ≠ 0) :=
    exec_mtsr_checked v n p s hpriv hp i hi h0 hw
  refine ⟨?_, ?_, fun r hr => ?_, ?_⟩
  · obtain ⟨ok, bad⟩ := s.sprWriteCheck_mode (s.src v)
    have run := checked 0x001 ⟨0, true, 1⟩ rfl rfl (by decide)
    exact ⟨fun h => run.trans (by rw [show (0x001 : U11).toNat = 0x001 from rfl, ok h]; rfl),
      fun hne hb => run.trans (by rw [show (0x001 : U11).toNat = 0x001 from rfl, bad hne hb]; rfl)⟩
  · obtain ⟨ok, bad⟩ := s.sprWriteCheck_lact (s.src v)
    have run := checked 0x058 ⟨0, true, 1⟩ rfl rfl (by decide)
    exact ⟨fun h => run.trans (by rw [show (0x058 : U11).toNat = 0x058 from rfl, ok h]; rfl),
      fun h => run.trans (by rw [show (0x058 : U11).toNat = 0x058 from rfl, bad h]; rfl)⟩
  · obtain ⟨ok, bad⟩ := s.sprWriteCheck_qptr r hr (s.src v)
    obtain ⟨number, listed⟩ := sprInfo_qptr s.core r hr
    have run := checked (BitVec.ofNat 11 (0x0A0 + r)) ⟨0, true, 1⟩ (by rw [number]; exact listed) rfl (by decide)
    rw [number] at run
    exact ⟨fun h => run.trans (by rw [ok h]; rfl), fun h => run.trans (by rw [bad h]; rfl)⟩
  · have run := checked 0x036 ⟨0, false, 1⟩ rfl rfl (by decide)
    rw [show (0x036 : U11).toNat = 0x036 from rfl, s.sprWriteCheck_accxfer] at run
    refine ⟨fun hS => run.trans (by rw [if_pos hS]; rfl), fun hS hg => run.trans ?_, fun hS hg hq => run.trans ?_,
      fun hS hg hq => run.trans ?_⟩ <;> rw [if_neg (by simp [hS])]
    · rw [if_pos hg]
      rfl
    · rw [if_neg (Nat.not_le.2 hg), if_pos hq]
      rfl
    · rw [if_neg (Nat.not_le.2 hg), if_neg (Nat.not_le.2 hq)]
      rfl

/-! ### Landings of special register writes (R44, R134) -/

/-- Numbers whose landing is no operation of its own: all but those of RSPLIT, the active loops, the queue regions, the
accumulator transfer and the log position. -/
def landsPlainly (n : Nat) : Prop :=
  n ≠ 0x001 ∧ n ≠ 0x058 ∧ n ≠ 0x036 ∧ n ≠ 0x0E1 ∧ ¬ (0x090 ≤ n ∧ n < 0x0A0) ∧ ¬ (0x0A0 ≤ n ∧ n < 0x0B0)

theorem merge_allOnes (v old : U64) : (v &&& BitVec.allOnes 64) ||| (old &&& ~~~ BitVec.allOnes 64) = v := by
  rw [BitVec.not_allOnes, BitVec.and_allOnes, BitVec.and_zero, BitVec.or_zero]

/-- A write of a whole register lands in the slot alone. -/
theorem State.landSpr_whole (s : State) (n x : Nat) (v : U64) (h : landsPlainly n) :
    s.landSpr n x v (BitVec.allOnes 64) = { s with me := s.me.writeSpr n x v } := by
  obtain ⟨h1, h58, h36, hE1, h90, hA0⟩ := h
  unfold State.landSpr
  dsimp only
  rw [if_neg (by decide), merge_allOnes, if_neg h1, if_neg h58, if_neg h36, if_neg hE1, if_neg h90, if_neg hA0]

theorem State.landSpr_mmode (s : State) (v w : U64) :
    s.landSpr 0x010 0 v w = { s with me := { s.me with sp := { s.me.sp with mmode :=
      if w = 0 then s.me.sp.mmode else ((v &&& w) ||| (s.me.sp.mmode &&& ~~~ w)) &&& 7 } } } := by
  unfold State.landSpr
  split <;> rfl

theorem elem_setElem {k : Nat} (a : Vector U64 k) (i j : Nat) (v : U64) (h : i < k) :
    elem (setElem a i v) j = if j = i then v else elem a j := by
  simp only [elem, setElem, dif_pos h]
  by_cases hj : j < k
  · simp [hj, Vector.getElem_set, eq_comm (a := i)]
  · simp [hj, show j ≠ i by omega]

/-- What a read of a loop register returns (R140). -/
def LoopRegs.read (l : LoopRegs) (n : Nat) : U64 :=
  if n < 0x048 then elem l.lcnt (n - 0x040)
  else if n < 0x050 then elem l.lbeg (n - 0x048)
  else elem l.lend (n - 0x050)

theorem LoopRegs.read_write (l : LoopRegs) (n : Nat) (v : U64) (h0 : 0x040 ≤ n) (h1 : n < 0x058) :
    (l.write n v).read n = v := by
  unfold LoopRegs.read LoopRegs.write
  split
  · exact (elem_setElem _ _ _ _ (by omega)).trans (if_pos rfl)
  split
  · exact (elem_setElem _ _ _ _ (by omega)).trans (if_pos rfl)
  · exact (elem_setElem _ _ _ _ (by omega)).trans (if_pos rfl)

theorem State.readSpr_loop (s : State) (n : Nat) (h0 : 0x040 ≤ n) (h1 : n < 0x058) :
    s.readSpr n 0 = s.me.loop.read n := by
  unfold State.readSpr LoopRegs.read
  rw [if_neg (by omega)]
  by_cases hc : n < 0x048
  · rw [if_pos ⟨h0, hc⟩, if_pos hc]
  rw [if_neg fun h => hc h.2, if_neg hc]
  by_cases hb : n < 0x050
  · rw [if_pos ⟨by omega, hb⟩, if_pos hb]
  · rw [if_neg fun h => hb h.2, if_pos ⟨by omega, h1⟩, if_neg hb]

/-- A loop register reads as it was written (R140). -/
theorem State.readSpr_loopWrite (s : State) (n : Nat) (v : U64) (h0 : 0x040 ≤ n) (h1 : n < 0x058) :
    (s.landSpr n 0 v (BitVec.allOnes 64)).readSpr n 0 = v := by
  rw [s.landSpr_whole n 0 v (by unfold landsPlainly; omega), State.readSpr_loop _ n h0 h1]
  have written : (s.me.writeSpr n 0 v).loop = s.me.loop.write n v := by
    unfold Thread.writeSpr
    rw [if_pos ⟨h0, h1⟩]
  exact (congrArg (LoopRegs.read · n) written).trans (s.me.loop.read_write n v h0 h1)

/-- The trap registers that software writes, with the bits that it writes (R146, R147). -/
def trapSprs : List (Nat × U64) := [(0x076, 1), (0x077, 0xFFFFFFFF), (0x078, 0x7F), (0x086, 0xFFFFFFFF)]

/-- The other single registers that software writes, with the bits that it writes (R45). -/
def ownSprs : List (Nat × U64) :=
  [(0x011, 0xFFFFFFFF07), (0x012, 0xC00000000000FF0F), (0x018, 3), (0x030, 0x800000000000FFFF), (0x035, 0xFFFFFFFFFFFFF000),
    (0x038, 0x800000007FFFFFFF), (0x039, 0xF8000000007FFFFF), (0x0B0, BitVec.allOnes 64), (0x0B1, 0xFFFFFFFFFFFFFFF1),
    (0x0D0, 0xFFFF), (0x0D8, BitVec.allOnes 64), (0x0D9, BitVec.allOnes 64), (0x0E8, 0x8000FFFFFFFFFFFF)]

/-- In the range of the trap registers the map lists those of R146 alone. -/
theorem sprInfo_trap_range (c : Core) (m : Nat) (h : (sprInfo c m).isSome = true) (h0 : 0x070 ≤ m) (h1 : m < 0x090) :
    m ≤ 0x079 ∨ (0x080 ≤ m ∧ m ≤ 0x086) := by
  have single : sprInfo c m = sprSingle c m := by
    unfold sprInfo
    rw [if_neg (by omega), if_neg (by omega), if_neg (by omega), if_neg (by omega)]
  rw [single] at h
  unfold sprSingle at h
  split at h
  all_goals try omega
  exact absurd h Bool.false_ne_true

theorem Thread.trapReg_write_ne (t : Thread) (x : Nat × U64) (hx : x ∈ trapSprs) (v : U64) (m : Nat) (hne : m ≠ x.1)
    (hm : m ≤ 0x079 ∨ (0x080 ≤ m ∧ m ≤ 0x086)) (h0 : 0x070 ≤ m) :
    ({ t with trap := t.trap.write x.1 v } : Thread).trapReg m = t.trapReg m := by
  simp only [trapSprs, List.mem_cons, List.not_mem_nil, or_false] at hx
  rcases hx with rfl | rfl | rfl | rfl
  all_goals
    unfold Thread.trapReg
    split <;> try rfl
  iterate 3 · exact absurd rfl hne
  · simp only [imp_false] at *
    omega

/-- A write of a trap register leaves every other listed register as it was. -/
theorem State.readSpr_trapWrite_ne (s : State) (x : Nat × U64) (hx : x ∈ trapSprs) (v : U64) (m y : Nat)
    (listed : (sprInfo s.core m).isSome = true) (hne : m ≠ x.1) :
    ({ s with me := { s.me with trap := s.me.trap.write x.1 v } } : State).readSpr m y = s.readSpr m y := by
  unfold State.readSpr
  iterate 4 refine ite_congr rfl (fun _ => rfl) fun _ => ?_
  refine ite_congr rfl (fun h => ?_) fun _ => rfl
  exact s.me.trapReg_write_ne x hx v m hne (sprInfo_trap_range s.core m listed h.1 h.2) h.1

/-- A write of another single register leaves every other register as it was. -/
theorem State.readSpr_ownWrite_ne (s : State) (x : Nat × U64) (hx : x ∈ ownSprs) (v : U64) (m y : Nat) (hne : m ≠ x.1) :
    ({ s with me := s.me.writeSpr x.1 0 v } : State).readSpr m y = s.readSpr m y := by
  simp only [ownSprs, List.mem_cons, List.not_mem_nil, or_false] at hx
  rcases hx with rfl | rfl | rfl | rfl | rfl | rfl | rfl | rfl | rfl | rfl | rfl | rfl | rfl
  all_goals
    unfold State.readSpr
    iterate 8 refine ite_congr rfl (fun _ => rfl) fun _ => ?_
    split <;> try rfl
    exact absurd rfl hne

/-- A listed single register lands in its bits, in its part of the slot, and alone (R44). -/
theorem State.landSpr_single (s : State) (v : U64) (x : Nat × U64) (hx : x ∈ trapSprs ++ ownSprs) :
    (s.landSpr x.1 0 v (BitVec.allOnes 64)).readSpr x.1 0 = v &&& x.2 ∧
    s.landSpr x.1 0 v (BitVec.allOnes 64) =
      { s with me := { s.me with
        trap := (s.landSpr x.1 0 v (BitVec.allOnes 64)).me.trap, sp := (s.landSpr x.1 0 v (BitVec.allOnes 64)).me.sp
        cx := (s.landSpr x.1 0 v (BitVec.allOnes 64)).me.cx } } ∧
    ∀ m : Nat, (sprInfo s.core m).isSome = true → m ≠ x.1 → ∀ y : Nat,
      (s.landSpr x.1 0 v (BitVec.allOnes 64)).readSpr m y = s.readSpr m y := by
  rcases List.mem_append.1 hx with ht | ho
  · have plain : landsPlainly x.1 ∧ s.me.writeSpr x.1 0 v = { s.me with trap := s.me.trap.write x.1 v } := by
      simp only [trapSprs, List.mem_cons, List.not_mem_nil, or_false] at ht
      rcases ht with rfl | rfl | rfl | rfl <;> exact ⟨by unfold landsPlainly; decide, rfl⟩
    rw [s.landSpr_whole x.1 0 v plain.1, plain.2]
    refine ⟨?_, rfl, fun m listed hne y => s.readSpr_trapWrite_ne x ht v m y listed hne⟩
    simp only [trapSprs, List.mem_cons, List.not_mem_nil, or_false] at ht
    rcases ht with rfl | rfl | rfl | rfl <;> rfl
  · have plain : landsPlainly x.1 := by
      simp only [ownSprs, List.mem_cons, List.not_mem_nil, or_false] at ho
      rcases ho with rfl | rfl | rfl | rfl | rfl | rfl | rfl | rfl | rfl | rfl | rfl | rfl | rfl <;>
        (unfold landsPlainly; decide)
    rw [s.landSpr_whole x.1 0 v plain]
    refine ⟨?_, ?_, fun m _ hne y => s.readSpr_ownWrite_ne x ho v m y hne⟩
    · simp only [ownSprs, List.mem_cons, List.not_mem_nil, or_false] at ho
      have whole : v = v &&& BitVec.allOnes 64 := BitVec.and_allOnes.symm
      rcases ho with rfl | rfl | rfl | rfl | rfl | rfl | rfl | rfl | rfl | rfl | rfl | rfl | rfl
      iterate 7 · rfl
      · exact whole
      iterate 2 · rfl
      · exact whole
      · exact whole
      · rfl
    · simp only [ownSprs, List.mem_cons, List.not_mem_nil, or_false] at ho
      rcases ho with rfl | rfl | rfl | rfl | rfl | rfl | rfl | rfl | rfl | rfl | rfl | rfl | rfl <;> rfl

/-- An indexed register that software writes reads back word by word (R44). -/
theorem State.readSpr_indexedWrite (s : State) (v : U64) (x : Nat × Nat) (hx : x ∈ [(0x031, 32), (0x034, 12), (0x0E9, 145)])
    (i y : Nat) (hi : i < x.2) :
    (s.landSpr x.1 i v (BitVec.allOnes 64)).readSpr x.1 y = if y = i then v else s.readSpr x.1 y := by
  simp only [List.mem_cons, List.not_mem_nil, or_false] at hx
  rcases hx with rfl | rfl | rfl <;> rw [State.landSpr_whole _ _ _ _ (by unfold landsPlainly; decide)]
  · exact elem_setElem s.me.cx.accdirty i y v hi
  · exact elem_setElem s.me.cx.pdisc i y v hi
  · exact elem_setElem s.me.sp.lprof i y v hi

/-- A write of a loop or trap register leaves the general registers as they were. -/
theorem State.landSpr_regs (s : State) (v : U64) (n : Nat) (h0 : 0x040 ≤ n) (h1 : n < 0x090) (hn : n ≠ 0x058) :
    (s.landSpr n 0 v (BitVec.allOnes 64)).me.regs = s.me.regs ∧ (s.landSpr n 0 v (BitVec.allOnes 64)).mems = s.mems := by
  rw [s.landSpr_whole n 0 v (by unfold landsPlainly; omega)]
  refine ⟨?_, rfl⟩
  change (s.me.writeSpr n 0 v).regs = s.me.regs
  unfold Thread.writeSpr
  split
  · rfl
  split
  · rfl
  split <;> rfl

/-- A trap register reads as it was written, but for its reserved bits (R146, R147). -/
theorem State.readSpr_trapWrite (s : State) (v : U64) :
    (∀ n : Nat, n = 0x071 ∨ n = 0x074 ∨ n = 0x081 ∨ n = 0x084 →
      (s.landSpr n 0 v (BitVec.allOnes 64)).readSpr n 0 = v &&& 0xFFFFFFFFFFFFFFF0) ∧
    (∀ n : Nat, n = 0x070 ∨ n = 0x080 → (s.landSpr n 0 v (BitVec.allOnes 64)).readSpr n 0 = v &&& 0xFFF) ∧
    (∀ n : Nat, n = 0x075 ∨ n = 0x085 → (s.landSpr n 0 v (BitVec.allOnes 64)).readSpr n 0 = v) := by
  have land (n : Nat) (h0 : 0x070 ≤ n) (h1 : n < 0x090) :
      s.landSpr n 0 v (BitVec.allOnes 64) = { s with me := { s.me with trap := s.me.trap.write n v } } := by
    rw [s.landSpr_whole n 0 v (by unfold landsPlainly; omega)]
    unfold Thread.writeSpr
    rw [if_neg (by omega), if_pos ⟨h0, h1⟩]
  refine ⟨fun n hn => ?_, fun n hn => ?_, fun n hn => ?_⟩ <;> rw [land n (by omega) (by omega)]
  · rcases hn with rfl | rfl | rfl | rfl <;> rfl
  · rcases hn with rfl | rfl <;> rfl
  · rcases hn with rfl | rfl <;> rfl

theorem State.landSpr_stat (s : State) (v : U64) : s.landSpr 0x008 0 v (BitVec.allOnes 64) =
    { s with me := { s.me with sp := { s.me.sp with stat := (v &&& 0xF81F) ||| s.me.iss.landed } } } := by
  rw [s.landSpr_whole 0x008 0 v (by unfold landsPlainly; decide)]
  rfl

/-- READY of %pctl acts at the bundle boundary, so a write of it lands nothing (R364). -/
theorem State.landSpr_pctl (s : State) (v : U64) : s.landSpr 0x033 0 v (BitVec.allOnes 64) = s := by
  rw [s.landSpr_whole 0x033 0 v (by unfold landsPlainly; decide)]
  rfl

/-! ### Core reset and the landing of RSPLIT (R28, R57, R426) -/

theorem Dev.slotReplaced_lessBad (d : Dev) (slot : Nat) : d.lessBad (d.slotReplaced slot) := by
  unfold Dev.slotReplaced
  split
  · exact ⟨rfl, fun _ h => h, fun _ h => h⟩
  · exact ⟨rfl, fun _ h => (List.mem_filter.1 h).1, fun _ h => (List.mem_filter.1 h).1⟩

theorem Dev.lessBad_trans {d e f : Dev} (hde : d.lessBad e) (hef : e.lessBad f) : d.lessBad f := by
  obtain ⟨same, bad, badTags⟩ := hde
  obtain ⟨same', bad', badTags'⟩ := hef
  refine ⟨?_, fun w h => bad w (bad' w h), fun k h => badTags k (badTags' k h)⟩
  rw [same'.trans (congrArg (fun x : Dev => { x with bad := f.bad, badTags := f.badTags }) same)]

theorem Dev.coreReplaced_lessBad (d : Dev) (a b : Nat) : d.lessBad ((d.slotReplaced a).slotReplaced b) :=
  Dev.lessBad_trans (d.slotReplaced_lessBad a) (Dev.slotReplaced_lessBad _ b)

theorem rngWords_length (n : Nat) : ∀ s0 s1 : U64, (rngWords n s0 s1).2.length = n := by
  induction n with
  | zero => exact fun _ _ => rfl
  | succ n ih => exact fun s0 s1 => congrArg (· + 1) (ih _ _)

theorem Thread.reset_rnq_length (slot1 : Bool) (n : Nat) (w : U64) : (Thread.reset slot1 n w).rnq.length = n :=
  rngWords_length n _ _

theorem Regs.readP_readK_reset (i : U3) :
    Regs.reset.readP i = (i == 0) ∧ Regs.reset.readK i = if i = 0 then BitVec.allOnes 64 else 0 := by
  decide +revert

/-- Core reset leaves the slot that executes it as a slot at reset, whichever of the two it is. -/
theorem State.exec_coreReset (s : State) : ∃ t : State, exec .coreReset s = .next t ∧
    t = { s with me := t.me, sib := t.sib, core := t.core, dev := t.dev } ∧ s.dev.lessBad t.dev ∧
    (∃ w : U64, t.me = Thread.reset s.me.slot1 64 w) ∧ t.core.rsplit = false ∧ t.core.phys = s.core.phys := by
  refine ⟨_, rfl, rfl, s.dev.coreReplaced_lessBad _ _, ⟨BitVec.ofNat 64 (s.core.phys + 1), ?_⟩, rfl, rfl⟩
  cases s.me.slot1 <;> simp [CoreRec.reset]

theorem Thread.splitReset_fields (t : Thread) (phys : Nat) (split : Bool) :
    (t.splitReset phys split).regs = Regs.reset ∧ (t.splitReset phys split).infl = [] ∧
      (t.splitReset phys split).pc = t.pc ∧ (t.splitReset phys split).rnq.length = if split then 32 else 64 := by
  cases split
  · exact ⟨rfl, rfl, rfl, Thread.reset_rnq_length t.slot1 64 (BitVec.ofNat 64 (phys + 1))⟩
  · exact ⟨rfl, rfl, rfl,
      Thread.reset_rnq_length t.slot1 32 (BitVec.ofNat 64 (phys + 1 + if t.slot1 then 2 ^ 32 else 0))⟩

theorem State.exec_rsplitWrite (s : State) (w : Bool) : (w = s.core.rsplit → exec (.rsplitWrite w) s = .next s) ∧
    (w ≠ s.core.rsplit → ∃ t : State, exec (.rsplitWrite w) s = .next t ∧
      t = { s with me := t.me, sib := t.sib, core := { s.core with rsplit := w, turn1 := false }, dev := t.dev } ∧
      s.dev.lessBad t.dev ∧
      t.me.regs = Regs.reset ∧ t.sib.regs = Regs.reset ∧ t.me.infl = [] ∧ t.sib.infl = [] ∧ t.me.pc = s.me.pc ∧
      t.me.rnq.length = if w then 32 else 64) := by
  have run : exec (.rsplitWrite w) s = .next (s.writeRsplit w) := rfl
  rw [run]
  unfold State.writeRsplit
  refine ⟨fun h => by rw [if_pos h], fun h => ?_⟩
  rw [if_neg h]
  obtain ⟨regs, infl, pc, rnq⟩ := s.me.splitReset_fields s.core.phys w
  obtain ⟨regs', infl', -, -⟩ := s.sib.splitReset_fields s.core.phys w
  exact ⟨_, rfl, rfl, s.dev.coreReplaced_lessBad _ _, regs, regs', infl, infl', pc, rnq⟩

/-! ### The queue regions' landings (R233) -/

theorem setElem_eq_set {k : Nat} (a : Vector U64 k) (i : Nat) (v : U64) (h : i < k) : setElem a i v = a.set i v h :=
  dif_pos h

/-- The reserved bits of a queue region's configuration change no field below them. -/
theorem bitsOf_and_qcfg (v : U64) (hi lo : Nat) (h : hi < 43) (hl : lo ≤ hi) :
    bitsOf (v &&& 0x800007FFFFFFFFFF) hi lo = bitsOf v hi lo := by
  have ones : ∀ b : Fin 43, (0x800007FFFFFFFFFF : U64).getLsbD b.val = true := by decide
  refine congrArg BitVec.toNat (BitVec.eq_of_getLsbD_eq fun i hi' => ?_)
  have mask : (0x800007FFFFFFFFFF : U64).getLsbD (lo + i) = true := ones ⟨lo + i, by omega⟩
  simp only [BitVec.getLsbD_extractLsb', BitVec.getLsbD_and, mask, Bool.and_true]

theorem qcfgLand_eq (v : U64) (size : Nat) :
    qcfgLand v size = v &&& (if bitsOf v 42 40 ≤ 6 ∧ bitsOf v 19 0 % (16 * 2 ^ bitsOf v 42 40) = 0 ∧
      bitsOf v 39 20 % (16 * 2 ^ bitsOf v 42 40) = 0 ∧ 2 * (16 * 2 ^ bitsOf v 42 40) ≤ bitsOf v 39 20 ∧
      bitsOf v 19 0 + bitsOf v 39 20 ≤ size then 0x800007FFFFFFFFFF else 0x7FFFFFFFFFF) := by
  unfold qcfgLand
  simp only [bitsOf_and_qcfg v 42 40 (by decide) (by decide), bitsOf_and_qcfg v 19 0 (by decide) (by decide),
    bitsOf_and_qcfg v 39 20 (by decide) (by decide)]
  split
  · rfl
  · rw [BitVec.and_assoc]
    rfl

theorem State.exec_qcfgWrite (s : State) (n : U4) (v : U64) : exec (.qcfgWrite n v) s = .next { s with
    dev := { s.dev with badTags := s.dev.badTags.filter (· != regionKey (slotNo s.core.phys s.me.slot1) n.toNat) }
    me := { s.me with sp := { s.me.sp with
      qcfg := s.me.sp.qcfg.set n.toNat (qcfgLand v s.splSize) n.isLt
      qptr := s.me.sp.qptr.set n.toNat 0 n.isLt } } } := by
  rw [← setElem_eq_set, ← setElem_eq_set]
  rfl

theorem State.exec_qptrWrite (s : State) (n : U4) (v : U64) :
    (fitsRegion s.me.sp.qcfg[n.toNat].toNat v.toNat → exec (.qptrWrite n v) s = .next { s with
      dev := { s.dev with badTags := s.dev.badTags.filter (· != regionKey (slotNo s.core.phys s.me.slot1) n.toNat) }
      me := { s.me with sp := { s.me.sp with qptr := s.me.sp.qptr.set n.toNat (v &&& 0xFFFFFFFFFFFF) n.isLt } } }) ∧
    (¬ fitsRegion s.me.sp.qcfg[n.toNat].toNat v.toNat → exec (.qptrWrite n v) s = .next (s.trapWord 0x02)) := by
  rw [← setElem_eq_set, ← qptrOk_iff]
  have run : exec (.qptrWrite n v) s =
      .next (if qptrOk s.me.sp.qcfg[n.toNat] v then s.writeQptr n.toNat v else s.trapWord 0x02) := rfl
  rw [run]
  exact ⟨fun h => by rw [if_pos h]; rfl, fun h => by rw [if_neg h]⟩

/-! ### The log position and the counters' latch (R422, R440) -/

theorem State.exec_elogposWrite (s : State) (v : U64) (p : Part) (hp : s.dev.part s.me.part = some p) : ∃ t : State,
    exec (.elogposWrite v) s = .next t ∧ t = { s with dev := { s.dev with parts := t.dev.parts } } ∧
      t.dev.part s.me.part = some { p with logRd := v.toNat / 65536 % 65536, logLost := 0 } := by
  refine ⟨_, rfl, rfl, ?_⟩
  have rd : bitsOf v 31 16 = v.toNat / 65536 % 65536 := by simp [bitsOf_eq]
  rw [← rd]
  exact Dev.part_updPart s.dev s.me.part _ p hp fun _ => rfl

theorem upperHalf_eq (x : U64) : (x >>> 32).setWidth 32 = BitVec.ofNat 32 (x.toNat / 2 ^ 32) := by
  refine BitVec.eq_of_toNat_eq ?_
  rw [BitVec.toNat_setWidth, BitVec.toNat_ushiftRight, Nat.shiftRight_eq_div_pow, BitVec.toNat_ofNat]

/-! ### The order of active loops (R141) -/

/-- The bits that a list of numbers sets are those of its members. -/
theorem testBit_foldl_or (o : List Nat) (k : Nat) :
    ∀ a : Nat, (o.foldl (fun a n => a ||| 2 ^ n) a).testBit k = (a.testBit k || decide (k ∈ o)) := by
  induction o with
  | nil => simp
  | cons n o ih =>
    intro a
    simp [ih, Nat.testBit_two_pow, eq_comm (a := n), Bool.or_assoc]

/-- Digits of three bits summed at their places give back the number that they are of. -/
theorem foldl_zipIdx_digits (x m : Nat) :
    (((List.range m).map fun i => x / 2 ^ (8 + 3 * i) % 8).zipIdx.foldl (fun a p => a + p.1 * 2 ^ (8 + 3 * p.2)) 0) =
      2 ^ 8 * (x / 2 ^ 8 % 2 ^ (3 * m)) := by
  induction m with
  | zero => simp [Nat.mod_one]
  | succ m ih =>
    rw [List.range_succ, List.map_append, List.zipIdx_append, List.foldl_append, ih]
    have digit : x / 2 ^ 8 % 2 ^ (3 * (m + 1)) = x / 2 ^ 8 % 2 ^ (3 * m) + 2 ^ (3 * m) * (x / 2 ^ (8 + 3 * m) % 8) := by
      rw [show 3 * (m + 1) = 3 * m + 3 by omega, Nat.pow_add, Nat.mod_mul, Nat.div_div_eq_div_mul, ← Nat.pow_add]
    rw [digit]
    simp only [List.length_map, List.length_range, List.map_cons, List.map_nil, List.zipIdx_singleton, List.foldl_cons,
      List.foldl_nil, Nat.zero_add]
    rw [Nat.pow_add 2 8 (3 * m), Nat.mul_add, Nat.mul_comm (_ % 8), Nat.mul_assoc]

/-- An accepted order names the loops that it sets, each of them (R141). -/
theorem mem_loopOrder (v : U64) (h : lactOk v = true) (k : Nat) : k ∈ loopOrder v ↔ k < 8 ∧ v.getLsbD k = true := by
  simp only [lactOk, Bool.and_eq_true, decide_eq_true_eq, List.all_eq_true] at h
  obtain ⟨distinct, active⟩ := h
  have small : ∀ n ∈ loopOrder v, n < 8 := by
    intro n hn
    rw [loopOrder_eq, List.mem_map] at hn
    obtain ⟨i, -, rfl⟩ := hn
    exact Nat.mod_lt _ (by decide)
  have within : loopOrder v ⊆ (List.range 8).filter fun n => v.getLsbD n := fun n hn =>
    List.mem_filter.2 ⟨List.mem_range.2 (small n hn), active n hn⟩
  have asMany : ((List.range 8).filter fun n => v.getLsbD n).length ≤ (loopOrder v).length :=
    Nat.le_of_eq (by rw [loopOrder_eq, List.length_map, List.length_range, List.countP_eq_length_filter])
  refine ⟨fun hk => ⟨small k hk, active k hk⟩, fun hk => Classical.byContradiction fun hno => ?_⟩
  have more : (k :: loopOrder v).length ≤ ((List.range 8).filter fun n => v.getLsbD n).length :=
    List.Nodup.length_le_of_subset (List.nodup_cons.2 ⟨hno, distinct⟩)
      (List.cons_subset.2 ⟨List.mem_filter.2 ⟨List.mem_range.2 hk.1, hk.2⟩, within⟩)
  rw [List.length_cons] at more
  omega

theorem lactOf_loopOrder (v : U64) (h : lactOk v = true) : lactOf (loopOrder v) =
    v &&& BitVec.ofNat 64 (2 ^ (8 + 3 * ((List.range 8).countP fun n => v.getLsbD n)) - 1) := by
  have acts : (loopOrder v).foldl (fun a n => a ||| 2 ^ n) 0 = v.toNat % 2 ^ 8 := by
    refine Nat.eq_of_testBit_eq fun k => ?_
    rw [testBit_foldl_or, Nat.zero_testBit, Bool.false_or, Nat.testBit_mod_two_pow, decide_eq_decide.2 (mem_loopOrder v h k),
      Bool.decide_and, Bool.decide_eq_true]
    rfl
  have few : (List.range 8).countP (fun n => v.getLsbD n) ≤ 8 := List.countP_le_length
  unfold lactOf
  rw [acts, loopOrder_eq, foldl_zipIdx_digits]
  generalize (List.range 8).countP (fun n => v.getLsbD n) = m at few
  have short : 2 ^ (8 + 3 * m) - 1 < 2 ^ 64 :=
    Nat.lt_of_lt_of_le (Nat.sub_lt (Nat.two_pow_pos _) (by decide)) (Nat.pow_le_pow_right (by decide) (by omega))
  refine BitVec.eq_of_toNat_eq ?_
  rw [← Nat.mod_mul, ← Nat.pow_add, BitVec.toNat_and, BitVec.toNat_ofNat, BitVec.toNat_ofNat, Nat.mod_eq_of_lt short,
    Nat.and_two_pow_sub_one_eq_mod, Nat.mod_eq_of_lt (Nat.mod_lt_of_lt v.isLt)]

theorem State.exec_lactWrite (s : State) (v : U64) : exec (.lactWrite v) s = .next (if lactOk v = true then
    { s with me := { s.me with loop := { s.me.loop with
      lact := v &&& BitVec.ofNat 64 (2 ^ (8 + 3 * ((List.range 8).countP fun n => v.getLsbD n)) - 1) } } }
    else s.trapWord 0x02) := by
  have run : exec (.lactWrite v) s = .next (if lactOk v then s.writeLact v else s.trapWord 0x02) := rfl
  rw [run]
  split
  · next h => rw [← lactOf_loopOrder v h]; rfl
  · rfl

/-! ### The landing of an accumulator transfer (R382) -/

theorem getLsbD_setBit (x : U64) (n i : Nat) (hi : i < 64) :
    (x ||| (1#64 <<< n)).getLsbD i = (x.getLsbD i || decide (i = n)) := by
  have bit : (1#64 <<< n).getLsbD i = decide (i = n) := by
    rw [← BitVec.twoPow_eq, BitVec.getLsbD_twoPow]
    by_cases h : i = n
    · simp [← h, hi]
    · simp [h, eq_comm (a := n)]
  rw [BitVec.getLsbD_or, bit]

/-- The bits that a loop over positions sets. -/
theorem getLsbD_foldl_setBit (f : Nat → Bool) (n i : Nat) (hi : i < 64) :
    ((List.range n).foldl (fun (x : U64) b => if f b then x ||| (1#64 <<< b) else x) 0).getLsbD i =
      (decide (i < n) && f i) := by
  induction n with
  | zero => simp
  | succ n ih =>
    have grow : decide (i < n + 1) = (decide (i < n) || decide (i = n)) := by
      rw [← Bool.decide_or]
      exact decide_eq_decide.2 (by omega)
    rw [List.range_succ, List.foldl_append, List.foldl_cons, List.foldl_nil, grow]
    by_cases hf : f n = true
    · rw [if_pos hf, getLsbD_setBit _ _ _ hi, ih]
      by_cases h : i = n <;> simp [h, hf]
    · rw [if_neg hf, ih]
      by_cases h : i = n <;> simp [h, hf]

/-- Granule g of a set of granules. -/
def granuleBit (d : Vector U64 32) (g : Nat) : Bool := (d.toList.getD (g / 64) 0).getLsbD (g % 64)

theorem granuleBit_ofFn (f : Fin 32 → U64) (g : Nat) (hg : g < 2048) :
    granuleBit (Vector.ofFn f) g = (f ⟨g / 64, by omega⟩).getLsbD (g % 64) := by
  rw [granuleBit, ← elem_eq_getD, elem, dif_pos (by omega), Vector.getElem_ofFn]

theorem granuleBit_eq (d : Vector U64 32) (g : Nat) (hg : g < 2048) :
    granuleBit d g = (d[g / 64]'(by omega)).getLsbD (g % 64) := by
  rw [granuleBit, ← elem_eq_getD, elem, dif_pos (by omega)]

/-- The granules of a transfer are those of its range that are dirty. -/
theorem granuleBit_xferMask (d : Vector U64 32) (v : U64) (g : Nat) (hg : g < 2048) :
    granuleBit (xferMask d v) g =
      (decide (bitsOf v 10 0 ≤ g) && decide (g ≤ bitsOf v 10 0 + bitsOf v 26 16) && granuleBit d g) := by
  have low : g % 64 < 64 := Nat.mod_lt _ (by decide)
  rw [xferMask, granuleBit_ofFn _ g hg, granuleBit_eq d g hg]
  refine (getLsbD_foldl_setBit (fun b => decide (bitsOf v 10 0 ≤ 64 * (g / 64) + b) &&
    decide (64 * (g / 64) + b ≤ bitsOf v 10 0 + bitsOf v 26 16) && (d[g / 64]'(by omega)).getLsbD b) 64 _ low).trans ?_
  simp only [low, decide_true, Bool.true_and, Nat.div_add_mod]

theorem granuleBit_clearMask (d m : Vector U64 32) (g : Nat) (hg : g < 2048) :
    granuleBit (clearMask d m) g = (granuleBit d g && !granuleBit m g) := by
  have low : g % 64 < 64 := Nat.mod_lt _ (by decide)
  rw [clearMask, granuleBit_ofFn _ g hg, granuleBit_eq d g hg, granuleBit_eq m g hg]
  simp [low]

/-- The granules that a write of %accxfer captures: with MASKED, the dirty ones of its range (R382). -/
def capturedGranules (d : Vector U64 32) (v : U64) : Vector U64 32 :=
  if v.getLsbD 62 then xferMask d v else Vector.replicate 32 0

theorem granuleBit_capturedGranules (d : Vector U64 32) (v : U64) (g : Nat) (hg : g < 2048) :
    granuleBit (capturedGranules d v) g = (v.getLsbD 62 && decide (bitsOf v 10 0 ≤ g) &&
      decide (g ≤ bitsOf v 10 0 + bitsOf v 26 16) && granuleBit d g) := by
  unfold capturedGranules
  cases v.getLsbD 62
  · rw [if_neg (by decide), granuleBit_eq _ g hg, Vector.getElem_replicate]
    simp
  · rw [if_pos rfl, granuleBit_xferMask d v g hg, Bool.true_and]

theorem State.exec_accxferWrite (s : State) (v : U64) :
    let first := v.toNat % 2 ^ 11
    let more := v.toNat / 2 ^ 16 % 2 ^ 11
    if isS s.core.phys then exec (.accxferWrite v) s = .next (s.trapWord 0x01)
    else if granuleCount s.core ≤ first + more then exec (.accxferWrite v) s = .next (s.trap 0x22 (BitVec.ofNat 64 first))
    else if 16 ≤ s.me.mq.length then exec (.accxferWrite v) s = .next s.hold
    else ∃ (t : State) (e : MqEntry) (m : Vector U64 32), exec (.accxferWrite v) s = .next t ∧ t = { s with me := { s.me with
        mq := s.me.mq ++ [e], follows := []
        cx := { s.me.cx with accxfer := v &&& 0xC000000007FF07FF, accdirty := t.me.cx.accdirty } } } ∧
      e.op = .xfer (v &&& 0xC000000007FF07FF) m ∧ e.base = s.me.cx.accbase ∧ e.started = false ∧ e.follow = s.me.follows ∧
      (∀ g : Nat, g < 2048 → granuleBit m g =
        (v.getLsbD 62 && first ≤ g && g ≤ first + more && granuleBit s.me.cx.accdirty g)) ∧
      ∀ g : Nat, g < 2048 → granuleBit t.me.cx.accdirty g =
        (granuleBit s.me.cx.accdirty g && !(v.getLsbD 62 && first ≤ g && g ≤ first + more)) := by
  have range : bitsOf v 10 0 = v.toNat % 2 ^ 11 ∧ bitsOf v 26 16 = v.toNat / 2 ^ 16 % 2 ^ 11 := by
    simp [bitsOf_eq]
  have run : exec (.accxferWrite v) s = .next (if isS s.core.phys then s.trapWord 0x01
    else if granuleCount s.core ≤ bitsOf v 10 0 + bitsOf v 26 16 then s.trap 0x22 (BitVec.ofNat 64 (bitsOf v 10 0))
    else if 16 ≤ s.me.mq.length then s.hold
    else s.writeAccxfer v) := rfl
  dsimp only
  rw [run, ← range.1, ← range.2]
  by_cases hS : isS s.core.phys = true
  · rw [if_pos hS, if_pos hS]
  rw [if_neg hS, if_neg hS]
  by_cases hg : granuleCount s.core ≤ bitsOf v 10 0 + bitsOf v 26 16
  · rw [if_pos hg, if_pos hg]
  rw [if_neg hg, if_neg hg]
  by_cases hq : 16 ≤ s.me.mq.length
  · rw [if_pos hq, if_pos hq]
  rw [if_neg hq, if_neg hq]
  refine ⟨_, _, capturedGranules s.me.cx.accdirty v, rfl, rfl, rfl, rfl, rfl, rfl, fun g hg => ?_, fun g hg => ?_⟩
  · exact granuleBit_capturedGranules s.me.cx.accdirty v g hg
  · refine (granuleBit_clearMask s.me.cx.accdirty (capturedGranules s.me.cx.accdirty v) g hg).trans ?_
    rw [granuleBit_capturedGranules s.me.cx.accdirty v g hg]
    cases granuleBit s.me.cx.accdirty g
    · rfl
    · rw [Bool.and_true]

/-- Settles O10: what each kind of register's landing does, and the writes with an operation of their own. -/
theorem specialRegisterWritesLand : Obligations.SpecialRegisterWritesLand := by
  intro s v
  obtain ⟨addresses, causes, scratch⟩ := s.readSpr_trapWrite v
  refine ⟨s.landSpr_stat v, s.landSpr_mmode v, addresses, causes, scratch, fun n => s.readSpr_loopWrite n v,
    fun x hx => s.landSpr_single v x hx, s.landSpr_pctl v, fun x hx i y hi => s.readSpr_indexedWrite v x hx i y hi,
    s.landSpr_regs v, ?_, s.exec_rsplitWrite, s.exec_lactWrite v, fun n => ?_, fun n => ?_, s.exec_accxferWrite v,
    s.exec_elogposWrite v, fun c => ?_⟩
  · obtain ⟨t, run, frame, dev, ⟨w, me⟩, split, phys⟩ := s.exec_coreReset
    refine ⟨t, run, frame, dev, ?_⟩
    rw [me]
    exact ⟨rfl, rfl, rfl, rfl, rfl, Regs.readP_readK_reset, rfl, rfl, rfl, rfl, rfl, Thread.reset_rnq_length _ _ _, split,
      phys⟩
  · have fields : bitsOf v 42 40 = v.toNat / 2 ^ 40 % 8 ∧ bitsOf v 19 0 = v.toNat % 2 ^ 20 ∧
        bitsOf v 39 20 = v.toNat / 2 ^ 20 % 2 ^ 20 := by
      simp [bitsOf_eq]
    obtain ⟨entry, base, size⟩ := fields
    rw [State.exec_qcfgWrite, qcfgLand_eq, entry, base, size]
  · obtain ⟨fits, other⟩ := s.exec_qptrWrite n v
    by_cases ok : fitsRegion s.me.sp.qcfg[n.toNat].toNat v.toNat
    · exact (fits ok).trans (congrArg _ (if_pos ok).symm)
    · exact (other ok).trans (congrArg _ (if_neg ok).symm)
  · rw [← upperHalf_eq]
    rfl

end Sys2Proof.Machine
end
